-- ==== Sys2Proof/Word.lean ====
section
/-! DEFINITION. The words, numbers and instance ranges of the Quavis QV3 governor (00_scope.md). -/
namespace Sys2Proof

/-- One byte. -/
abbrev Byte := BitVec 8
/-- A 16-bit field. -/
abbrev Half := BitVec 16
/-- A 32-bit register word (R21). -/
abbrev Word := BitVec 32
/-- A 64-bit register (R21). -/
abbrev DWord := BitVec 64
/-- Fabric time in ns (R10, R79). -/
abbrev Ft := BitVec 64
/-- A tile t0000-t1023 (R7). -/
abbrev Tile := Fin 1024
/-- A regulated domain: 0-63 core, 64-67 array, 68-71 uncore (R8, R207). -/
abbrev Dom := Fin 72
/-- A core domain C00-C63 (R8). -/
abbrev CoreDom := Fin 64
/-- A compute die (R6). -/
abbrev Die := Fin 4
/-- A regulator phase ph000-ph239 (R8). -/
abbrev Phase := Fin 240
/-- A memory stack (R6). -/
abbrev Stack := Fin 24
/-- A power context (R329). -/
abbrev Ctx := Fin 64
/-- A firmware core: 0-3 control, 4 supervisor (R9). -/
abbrev CoreId := Fin 5
/-- A ring of Table 14-1 (R586). -/
abbrev Ring := Fin 134

/-- The die of a tile (R7). -/
def dieOfTile (t : Nat) : Nat := t / 256
/-- The core domain of a tile (R7). -/
def domOfTile (t : Nat) : Nat := t / 16
/-- The die of a domain (R8). -/
def dieOfDom (d : Nat) : Nat := if d < 64 then d / 16 else (d - 64) % 4
/-- The domain a phase feeds (Table 00-2). -/
def domOfPhase (p : Nat) : Nat :=
  if p < 192 then p / 3 else if p < 216 then 64 + (p - 192) / 6 else 68 + (p - 216) / 6
/-- The first phase of a domain (Table 00-2). -/
def firstPhase (d : Nat) : Nat :=
  if d < 64 then 3 * d else if d < 68 then 192 + 6 * (d - 64) else 216 + 6 * (d - 68)
/-- The number of phases of a domain (Table 00-2). -/
def numPhases (d : Nat) : Nat := if d < 64 then 3 else 6
/-- The phases of a domain, in order. -/
def phasesOf (d : Nat) : List Nat := (List.range (numPhases d)).map (firstPhase d + ·)
/-- The tiles of a core domain, in order. -/
def tilesOf (n : Nat) : List Nat := (List.range 16).map (16 * n + ·)

end Sys2Proof
end

