-- ==== Sys2Proof/Wire.lean ====
section
/-! DEFINITION. Records that commands carry across the block's ports and links: what the outside world, or a
unit the block cannot compute (a sensor, a comparator, a DMA read), presents with a command. -/
namespace Sys2Proof

/-- What a tile did since its Post's previous capture: the Post cycles of each residency state it passed through, in
order (R111); the events of counters 4-31 by index (R112; the Post itself counts 26, 27 and 28); and the valid beats of
the streams of Table 03-2 (R117, R118). -/
structure Activity where
  cycles : List Nat
  counts : List Nat
  streams : List (List DWord)
  deriving DecidableEq, Repr

/-- The edge of a register read: what a Post whose counters it names has registered up to it (R113), and its FT. -/
structure ReadEdge where
  act : Activity
  now : Ft
  deriving DecidableEq, Repr

/-- A hop of a chain: the chain, the direction, and its number from the chain port (R143, R146). -/
structure Hop where
  dom : CoreDom
  down : Bool
  hop : Fin 16
  deriving DecidableEq, Repr

/-- A supply sample at a Post while its Lantern asks for a stretch: the level in mV, and the edges since it was taken, or,
for what is left of a 1/4 request, since the release edge of that (R366). -/
structure Recovery where
  tile : Tile
  mv : Fin 2048
  edges : Nat
  deriving DecidableEq, Repr

/-- A fault as a detector presents it (Table 12-2). -/
structure FaultIn where
  group : Fin 64
  source : Fin 8
  inst : Fin 4096
  ended : Bool
  injected : Bool
  deriving DecidableEq, Repr

/-- An item in flight across a crossing at the cut of a global stop (Table 16-16): kind, direction, link or crossing
number, sequence, FT at which it left its source, header or destination value or count, and body or source value. -/
structure CapItem where
  kind : Fin 5
  down : Bool
  num : Half
  seq : Word
  ft : Ft
  word : Word
  body : DWord
  deriving DecidableEq, Repr

/-- A word of the fuse shadow whose parity fails at load (R777): a transition record, a key slot (image slots 0-3,
bundle slots 4-7), the security version, a ceiling slot, a tile's sensor trim, another trim or repair word. -/
inductive FuseWord
  | transition
  | key (j : Fin 8)
  | svn
  | ceiling (c : Fin 3)
  | trim (t : Fin 1024)
  /-- The trim of a bonded-memory sensor, by 64 × die + sensor (R441). -/
  | memTrim (k : Fin 256)
  | other
  deriving DecidableEq, Repr

/-- What a board converter answered in one complete poll (R817): READ_VIN, READ_VOUT, READ_IOUT and STATUS_WORD, and the
VOUT_MODE it answered when it was enabled. -/
structure ConvRead where
  vin : BitVec 16
  vout : BitVec 16
  iout : BitVec 16
  status : BitVec 16
  mode : BitVec 8
  deriving DecidableEq, Repr

end Sys2Proof
end

