-- ==== Sys2Proof/Syntax.lean ====
section
/-! DEFINITION. The commands of the block: one constructor per row of spec/opcode_table.json, with the
operands a sender presents. The table gives the rows no fields, so the operands are the model's (log entry 4). -/
namespace Sys2Proof

/-- A command. `now` is the FT at which its event is registered (log entry 5).
Marks: DESIGN CHOICE, log entry 4. -/
inductive Instr
  /-- POWER_ON_RESET (R720): AON_PWRGD low, PORST_N asserted or return from Off resets every reset group, reloads the fuse shadow and cuts every phase. -/
  | powerOnReset
  /-- WARMRST_N_ASSERT (R722): A WARMRST_N assertion held for at least 1 µs starts a package warm reset with its rail sequence. -/
  | warmrstNAssert (now : Ft)
  /-- WARM_REQ (R722): A management-port write of 1 to warm_req starts a package warm reset. -/
  | warmReq (now : Ft)
  /-- WARM_RESET_GROUPS_ASSERT (R722): Once every domain is OFF or FAILED, the Hub, Relay and Post reset groups assert together. -/
  | warmResetGroupsAssert
  /-- WARM_RESET_RELEASE (R723): At the later of WARMRST_N deassertion and 16 slowest-island periods, the groups leave reset, the CTU enters ACQUIRING and the boot ROM selects the image. -/
  | warmResetRelease
  /-- QV_SOFT (R724): A write of 1 to qv_soft restarts the cores, the host session, the rings, the MPU transaction state and the TTU ring state without asserting any reset group. -/
  | qvSoft (now : Ft)
  /-- FUSE_SHADOW_LOADED (R740): The LFC completes the fuse-shadow load, checks parity and sets fuses_loaded. -/
  | fuseShadowLoaded (bad : List FuseWord)
  /-- BIST_COMPLETE (R749): Hub memory BIST with soft repair and Hub logic BIST end, failures are recorded, the partitions are reset and register accesses are accepted. -/
  | bistComplete (misr : List DWord) (unrep : BitVec 16) (rows : Nat) (cols : Nat)
  /-- CORE_DOMAIN_START (R741): Firmware starts the core domains at LOCKED, or 100 ms after the uncore domains reach RUN, whichever comes first. -/
  | coreDomainStart (now : Ft)
  /-- LOW_WORD_READ (R23): A 32-bit read of the low word of a 64-bit register latches the high word for the same requester. -/
  | lowWordRead (port : Fin 3) (off : Fin 16777216) (edge : ReadEdge)
  /-- LOW_WORD_WRITE (R24): A 32-bit write to the low word of a 64-bit RW register is held for the requester until the high word is written. -/
  | lowWordWrite (req : Fin 4) (off : Fin 16777216) (value : Word) (now : Ft)
  /-- HIGH_WORD_WRITE (R24): A 32-bit write to the high word applies together with any held low word, or alone when none is held. -/
  | highWordWrite (req : Fin 4) (off : Fin 16777216) (value : Word) (now : Ft)
  /-- REGISTER_WRITE (R827): A write to a register field without a row of its own is stored, clamped, ignored or taken under the access code and the writers that field accepts. -/
  | registerWrite (req : Fin 4) (off : Fin 16777216) (wide : Bool) (value : DWord) (now : Ft)
  /-- ACCESS_ERROR (R22): A misaligned or wrong-width access returns an error completion or is discarded, is recorded in HIU_ACC_ERR and raises source 17.0. -/
  | accessError (port : Fin 3) (off : Fin 16777216) (write : Bool) (len : Nat) (full : Bool) (syn : Byte) (now : Ft)
  /-- FAB_MARK_STROBE (R807): An FT marker on P3 is checked and loads, measures or corrects FT and drives the time-state transitions. -/
  | fabMarkStrobe (marker : Ft) (par : Bool) (gap : Nat) (now : Ft)
  /-- MARKER_MISSING (R828): The marker timer reaches 67,584 ns without a strobe and counts one missing marker. -/
  | markerMissing (now : Ft)
  /-- ACQUIRING_TIMEOUT (R84): After 10 ms in ACQUIRING with no valid marker, the CTU enters FREE and counts from 0. -/
  | acquiringTimeout
  /-- TICK_BOUNDARY (R96): At each tick boundary, strobes are distributed, slews and steps are applied, named-tick actions take effect and per-tick records are formed. -/
  | tickBoundary (bmem : List (List (Option Int)))
  /-- EPOCH_BOUNDARY (R98): At each epoch boundary, credit refills, margin entry is checked, regressors are captured, drains are detected and epoch counts are cleared. -/
  | epochBoundary (lanes : List Bool)
  /-- THERMAL_STEP_BOUNDARY (R98): At each thermal-step boundary, stacks are polled, bonded-memory sensor flits are sent and TME bank swaps take effect. -/
  | thermalStepBoundary (polls : List (Option Int × Option (BitVec 16)))
  /-- SIDEBAND_LANE_LOSS (R73): A lane loss starts a retrain on 4 lanes, during which the Relay holds its upward traffic. -/
  | sidebandLaneLoss (die : Die)
  /-- LINK_RETRAIN_COMPLETE (R73): A link finishes training on 8 or 4 lanes and updates lanes_up and degraded_seen. -/
  | linkRetrainComplete (die : Die) (lanes8 : Bool)
  /-- LINK_DOWN (R74): A link with fewer than 4 passing lanes, or untrained for 16 ticks, is down; the Relay rations, holds setpoints and merges Sheafs. -/
  | linkDown (die : Die)
  /-- SIDEBAND_CRC_MISMATCH (R68): A CRC-32 mismatch discards the group of 8 flits and requests a replay from the sender's replay buffer. -/
  | sidebandCrcMismatch (die : Die) (up : Bool) (now : Ft)
  /-- POST_TICK_LATCH (R114): At the first tile edge after the tick strobe, the Post captures its counters and closes the segment of the tick. -/
  | postTickLatch (tile : Tile) (act : Activity) (reading : Option Int)
  /-- COMMAND_LAUNCH (R133): A command launched on P1 makes a boundary that captures the counters and closes a segment. -/
  | commandLaunch (tile : Tile) (tag : Half) (act : Activity) (atLatch : Bool) (now : Ft)
  /-- COMMAND_COMPLETION (R133): A TP_DONE that leaves no command running makes a boundary and sends an idle notice. -/
  | commandCompletion (tile : Tile) (act : Activity) (atLatch : Bool) (now : Ft)
  /-- SEGMENT_ADD (R132): A closed segment's energy enters the accumulator, after which the snapshot registers, the Sheaf or the trace record are formed. -/
  | segmentAdd (tile : Tile)
  /-- SNAP_HOLD_EXPIRY (R152): snap_hold clears itself 1,024 ticks after it was set. -/
  | snapHoldExpiry (tile : Tile)
  /-- WEIGHT_PUBLICATION (R125): A publication writes the inactive weight bank, which is valid only when its CRC matches. -/
  | weightPublication (tile : Tile) (flip : List Half) (now : Ft)
  /-- POST_POWER_UP (R726): A Post powers up with a Post reset, takes the recorded bank selection and starts probation, calibration and a restore publication. -/
  | postPowerUp (tile : Tile)
  /-- SHEAF_AT_RELAY (R140): The Relay checks an arriving Sheaf, takes its thermal reading, and queues or merges it into the FIFO. -/
  | sheafAtRelay (tile : Tile) (flip : DWord) (now : Ft)
  /-- CHAIN_CRC_ERROR (R146): A chain flit with a bad CRC is not credited, and the next flit carries nak. -/
  | chainCrcError (hop : Hop) (channel : Fin 5) (body : DWord) (now : Ft)
  /-- CHAIN_NAK (R146): A received nak makes the sender resend every unacknowledged flit of the channel in order. -/
  | chainNak (hop : Hop) (channel : Fin 5)
  /-- SHEAF_AT_HUB (R165): A Sheaf is matched to its tick at the Hub and counted in time or late. -/
  | sheafAtHub (die : Die) (now : Ft)
  /-- INPUT_SENSE_RECORD (R258): An input-sense record reaches the LG and updates vin16 in its Relay. -/
  | inputSenseRecord (die : Die) (record : DWord) (now : Ft)
  /-- DOMAIN_MEASUREMENT_RECORD (R394): A domain measurement record is registered at the Hub, or handled as missing when late. -/
  | domainMeasurementRecord (dom : Dom) (now : Ft)
  /-- POST_REGRESSOR_RECORD (R221): The Relay adds a Post regressor record to its chain's sums for the epoch. -/
  | postRegressorRecord (tile : Tile)
  /-- DOMAIN_REGRESSOR_RECORD (R221): A domain regressor record reaches the WCE for the epoch's update. -/
  | domainRegressorRecord (dom : CoreDom)
  /-- EA_EVALUATION (R190): At B + 1,024 ns, the EA freezes its inputs and computes substitutes, leakage, corrections and attribution. -/
  | eaEvaluation (now : Ft)
  /-- EA_PUBLICATION (R191): At B + 2,048 ns, the EA publishes every figure of the tick on one edge. -/
  | eaPublication (now : Ft)
  /-- WINNOW_UPDATE (R223): At E + 24,576 ns, the WCE freezes inputs and updates each domain's instance with its outcome. -/
  | winnowUpdate
  /-- WINNOW_RESULTS_VISIBLE (R235): At E + 32,768 ns, θ, confidence and statistics become visible on one edge. -/
  | winnowResultsVisible
  /-- PUBLICATION_BOUNDARY (R237): Every 1,024 ticks, the WCE snapshots θ and forms each domain's image. -/
  | publicationBoundary
  /-- IMAGE_RELEASE (R239): Core 2 releases an image, which sends publications and schedules the Post bank swap. -/
  | imageRelease
  /-- IMAGE_LAPSE (R239): An image not released before tick N − 16 lapses, and pub_lapsed increments. -/
  | imageLapse
  /-- FACTORY_SET_COMMIT (R249): An accepted factory set commits at the next epoch boundary, restores every instance and forms an out-of-cycle publication. -/
  | factorySetCommit
  /-- WCE_DOM_RESTORE (R255): A write of 1 to restore in WCE_DOM_CTRL requests a factory restore of the domain. -/
  | wceDomRestore (dom : Dom)
  /-- WCE_RESTORE_ALL (R251): A write of 1 to restore_all requests a factory restore of every instance at the next epoch boundary. -/
  | wceRestoreAll
  /-- LG_EVALUATION (R280): At B + 1,024 ns, the LG forms p_k, i_k, averages, allow and rho and sets the package level. -/
  | lgEvaluation (now : Ft)
  /-- LG_LEVEL_STEP_DOWN (R280): After hold_ticks ticks below 0.90, the LG steps the package level down. -/
  | lgLevelStepDown
  /-- LEVEL5_RESTORE_COMPLETE (R281): Once every affected VID has reached its setpoint, level 5 becomes level 4. -/
  | level5RestoreComplete (dom : Option CoreDom)
  /-- UNACHIEVABLE_LIMIT (R285): After 64 ticks at level 5 with lowest VIDs and rho above 1.0, unachievable_seen is set and an LG fault is raised. -/
  | unachievableLimit
  /-- L5_EXPIRY (R265): At LG_L5_EXPIRY, a positive adj is cleared; 1,024 ns later, a negative adj is cleared, unless a write protects it. -/
  | l5Expiry (now : Ft)
  /-- LG_ACTION_AT_RELAY (R325): An LG action flit at a Relay sets the domain levels in the slice, revokes grants, orders stretches and applies VID steps. -/
  | lgActionAtRelay (die : Die)
  /-- THERMAL_LEVEL_FALL (R274): After hold_ticks ticks at least 1 °C below, a thermal level falls by one. -/
  | thermalLevelFall (die : Die) (dom : Fin 16) (row : Fin 3)
  /-- THERMAL_STATE_RECORD (R277): A thermal state record from a Relay updates the Hub's domain levels and the trip state. -/
  | thermalStateRecord (die : Die) (now : Ft)
  /-- HOT_N_CHANGE (R278): A registered HOT_N assertion raises every core domain to at least hot_level; its deassertion releases them. -/
  | hotNChange (asserted : Bool) (now : Ft)
  /-- CEILING_PROGRAM_COMPLETE (R290): A ceiling fuse slot verifies or fails, and the new ceiling takes effect at the next tick boundary. -/
  | ceilingProgramComplete (ok : Bool) (now : Ft)
  /-- POOL_POST (R333): Core 1 computes the pool and posts SILO_POOL and SILO_POOL_EPOCH by E + 10,240 ns. -/
  | poolPost (now : Ft)
  /-- POOL_DIVISION (R334): At E + 10,240 ns, the hub Silo divides the pool in normal, ration or boot mode, then corrects and splits it among dies. -/
  | poolDivision (now : Ft)
  /-- CREDIT_REPORT (R332): A credit-report flit from a slice reaches the hub Silo. -/
  | creditReport (die : Die)
  /-- DELEGATION_RECEIVED (R337): Delegation flits reach a slice for the next epoch. -/
  | delegationReceived (die : Die)
  /-- TP_REQUEST (R305): The command processor presents a launch request on P1, which the Post sends or holds. -/
  | tpRequest (tile : Tile) (ctx : Ctx) (tag : Half) (cls : Fin 4096) (lead : Fin 64) (now : Ft)
  /-- LAUNCH_REQUEST (R321): The slice decides a launch request into a grant, wait or refuse and books the calendar. -/
  | launchRequest (tile : Tile) (flip : DWord) (now : Ft)
  /-- GRANT (R309): A grant reply at the Post is expanded and either awaits its window or is reported as lapsed. -/
  | grant (tile : Tile) (now : Ft)
  /-- WAIT (R328): A wait reply keeps the request outstanding and sets its retry delay. -/
  | wait (tile : Tile) (now : Ft)
  /-- REVOKE (R326): A revoke reply holds the gate when it comes before the granted window begins. -/
  | revoke (tile : Tile) (now : Ft)
  /-- REFUSE (R313): A refuse reply ends the request, which is reported to the command processor. -/
  | refuse (tile : Tile) (now : Ft)
  /-- REQUEST_RETRY (R328): When a wait's retry delay has passed, the Post resends the request. -/
  | requestRetry (tile : Tile) (tag : Half)
  /-- REQUEST_RESEND (R312): After 64 windows without a reply the Post resends the request, and after 3 resends it refuses it with LOST. -/
  | requestResend (tile : Tile) (tag : Half)
  /-- REQUEST_WITHDRAW (R310): The command processor withdraws an outstanding request, and the Post sends a cancel. -/
  | requestWithdraw (tile : Tile) (tag : Half) (now : Ft)
  /-- CANCEL (R310): The slice unbooks and refunds a granted request whose cancel it decides before the window begins. -/
  | cancel (tile : Tile) (now : Ft)
  /-- GATE_RELEASE (R308): At the granted window, the Post releases the launch gate. -/
  | gateRelease (tile : Tile) (now : Ft)
  /-- GRANT_LAPSE (R308): A grant unused by the end of its third window lapses, keeping its booking and debit. -/
  | grantLapse (tile : Tile) (now : Ft)
  /-- IDLE_NOTICE (R311): An idle notice ends the tile's busy count for its context. -/
  | idleNotice (tile : Tile)
  /-- LIMITER_WINDOW (R323): At each 32 ns window, calendar entries clear, new levels and limits take effect and pre-boost is computed. -/
  | limiterWindow (now : Ft)
  /-- CLASS_TABLE_VERIFIED (R318): Every slice has verified its copy of a loaded class table, and inactive_valid is set. -/
  | classTableVerified
  /-- LANTERN_DETECTION (R359): A supply sample below a detect level registers a detection, counts a Glint and requests a stretch. -/
  | lanternDetection (tile : Tile) (mv : Fin 2048) (again : Bool) (now : Ft)
  /-- LANTERN_RELEASE (R366): After the supply reads 5 mV above the level and str_hold has passed, the Lantern's stretch request ends or relaxes. -/
  | lanternRelease (sample : Recovery)
  /-- LANTERN_STUCK (R500): A primary request active at 256 consecutive tick latches raises source 10.1. -/
  | lanternStuck (tile : Tile)
  /-- STRETCH_ORDER (R364): An LG stretch order registered at a Post takes effect two edges later. -/
  | stretchOrder (tile : Tile)
  /-- GLINT_SUMMARY (R370): The Relay adds a Glint summary to the domain's epoch count and may start a Glint exit. -/
  | glintSummary (tile : Tile) (now : Ft)
  /-- GLINT_RECORD (R370): A Glint record reaches the Hub for telemetry and the risk score. -/
  | glintRecord (dom : CoreDom) (now : Ft)
  /-- MARGIN_ORDER (R374): A margin order sets a Post's threshold, deep offset, ratio and str_hold. -/
  | marginOrder (tile : Tile)
  /-- MARGIN_TIGHTEN_SLEW (R374): No sooner than 256 ns after the margin order, the VID starts to slew down. -/
  | marginTightenSlew (dom : CoreDom) (now : Ft)
  /-- MARGIN_HOLD_END (R375): At the end of a fallback hold, the stored req is tried again. -/
  | marginHoldEnd (dom : CoreDom)
  /-- PLL_LOCK (R354): A PLL_LOCK report allows the VID to slew down after a frequency lowering, or lets grants resume. -/
  | pllLock (dom : CoreDom) (now : Ft)
  /-- CAL_REQ (R361): A write of 1 to cal_req requests a Lantern calibration. -/
  | calReq (tile : Tile)
  /-- LANTERN_CAL_START (R361): A pending calibration starts at the first idle Post edge, gating the compute clock and holding requests. -/
  | lanternCalStart (tile : Tile)
  /-- LANTERN_CAL_END (R362): The sweep finds the trim and sets cal_valid, or sets cal_fail when |trim| exceeds 31 mV. -/
  | lanternCalEnd (tile : Tile) (level : Fin 2048)
  /-- PWM_PERIOD (R388): Each 8 ns period runs the loop, forms duties, moves the reference and sheds or restores phases. -/
  | pwmPeriod (dom : Dom) (adc : Fin 4096 × Fin 4096) (isns : List (Fin 1024)) (now : Ft)
  /-- PEAK_LIMIT (R406): A registered peak comparator truncates the high-side pulse of the phase. -/
  | peakLimit (phase : Phase)
  /-- PHASE_TRIP (R407): A registered trip comparator cuts the phase into TRIP_WAIT, or FAILED on the fourth trip. -/
  | phaseTrip (phase : Phase)
  /-- TRIP_WAIT_END (R407): After 1,024 periods, a tripped phase returns to on or shed. -/
  | tripWaitEnd (phase : Phase)
  /-- ZERO_CROSS (R413): In diode emulation, a registered low zero comparator lowers PH_LS. -/
  | zeroCross (phase : Phase)
  /-- OVER_RATING (R409): An iavg above 10 A restores shed phases and, when it persists 2^17 periods, sends a fault record. -/
  | overRating (phase : Phase)
  /-- DOMAIN_ENABLE (R415): A domain in OFF with en = 1 measures its output and enters SOFTSTART or PREBIAS_WAIT. -/
  | domainEnable (dom : Dom)
  /-- PREBIAS_RELEASE (R415): When the output mean falls to the target, PREBIAS_WAIT enters SOFTSTART. -/
  | prebiasRelease (dom : Dom)
  /-- SOFTSTART_COMPLETE (R417): ref_q reaches the target, and the domain enters RUN. -/
  | softstartComplete (dom : Dom)
  /-- VRC_COMMAND_REACHED (R398): ref_q reaches the command's target, completing it REACHED and ending any margin transition. -/
  | vrcCommandReached (dom : Dom)
  /-- SHORT_DETECTED (R419): A short cuts the domain's phases and enters HICCUP, or FAILED at 3 retries. -/
  | shortDetected (dom : Dom)
  /-- HICCUP_END (R419): After 125,000 periods, HICCUP ends and the domain starts again. -/
  | hiccupEnd (dom : Dom)
  /-- RETRY_RESET (R419): After 125,000 consecutive periods in RUN, retries returns to 0. -/
  | retryReset (dom : Dom)
  /-- FAIL_CLR (R420): A write of 1 to fail_clr takes a FAILED domain to OFF with retries = 0. -/
  | failClr (dom : Dom)
  /-- DOMAIN_DISABLE (R421): A write of en = 0 opens the tile switches and enters STOPPING, or enters OFF at once. -/
  | domainDisable (dom : Dom)
  /-- STOP_COMPLETE (R421): The reference reaches 100 mV in STOPPING, and the domain cuts its phases and enters OFF. -/
  | stopComplete (dom : Dom)
  /-- OVERVOLTAGE (R423): 4 consecutive samples above ovp_mv crowbar the domain and send a fault record. -/
  | overvoltage (dom : Dom)
  /-- OVERVOLTAGE_RELEASE (R423): The period mean falls below the target, and the overvoltage action is released. -/
  | overvoltageRelease (dom : Dom)
  /-- UNDERVOLTAGE (R424): 64 periods below the reference minus 2 × uvp_off set uvp_seen and send a record. -/
  | undervoltage (dom : Dom)
  /-- SENSE_FAULT (R425): An ADC stuck at a rail code for 64 samples raises a sense fault, with hiccup or phase FAILED. -/
  | senseFault (dom : Dom) (phase : Option Phase)
  /-- COEF_COMMIT (R401): A write of 1 to coef_commit transfers every shadow coefficient at the next period boundary. -/
  | coefCommit (dom : Dom)
  /-- PHASE_RESTORE (R437): A write of 1 to restore returns a FAILED phase to shed with its trip count cleared. -/
  | phaseRestore (phase : Phase)
  /-- SYNC_RELEASE (R427): Loss of the forwarded root, or a root source other than source 0, moves the DCO from TRACK to RELEASE. -/
  | syncRelease (die : Die)
  /-- SYNC_MOVE_COMPLETE (R428): The DCO completes its move in RELEASE to OWN, or in RELOCK to TRACK. -/
  | syncMoveComplete (die : Die) (ppm : Int)
  /-- SYNC_RELOCK (R427): The root returns to source 0 with the CTU LOCKED and track_en = 1, and the DCO enters RELOCK. -/
  | syncRelock (die : Die)
  /-- DCO_TRIM (R429): After 2^20 periods in TRACK, the slice trims its DCO. -/
  | dcoTrim (die : Die)
  /-- BMEM_SENSOR_FLITS (R442): A Relay's bonded-memory sensor flits reach the Hub for the TME. -/
  | bmemSensorFlits (die : Die) (flit : Fin 16) (now : Ft)
  /-- TME_STEP (R455): At S + 4,096 ns, the TME freezes its inputs, integrates the substeps, corrects nodes and counts suspects. -/
  | tmeStep (now : Ft)
  /-- TME_RESULTS_VISIBLE (R455): At S + 65,536 ns, node temperatures, resid_max and suspect marks become visible. -/
  | tmeResultsVisible (now : Ft)
  /-- FORECAST_PERIOD (R461): Core 2 forms the forecasts and margins of a forecast period. -/
  | forecastPeriod (now : Ft)
  /-- FC_COMMIT (R466): A forecast commit updates demand_pct and cool_req, and firmware may derate its L2 and L3 slots. -/
  | fcCommit (now : Ft)
  /-- FORECAST_STALE (R464): After 4 periods without a commit, fc_stale is set, and the cooling request takes source 2. -/
  | forecastStale (now : Ft)
  /-- AMBIENT_AGE_EXPIRY (R454): A t_amb older than amb_age is replaced by t_amb_default, and amb_default reads 1. -/
  | ambientAgeExpiry (now : Ft)
  /-- SUSPECT_CLR (R471): A write of 1 to suspect_clr clears every suspect mark at the next step. -/
  | suspectClr
  /-- GROUP_CONFIG_EFFECT (R477): At X, a lending configuration takes effect, ending borrowed leases and setting the share. -/
  | groupConfigEffect (now : Ft)
  /-- OFFER_INTERVAL_START (R486): At O, each member freezes its offer inputs and forms its OFFER. -/
  | offerIntervalStart (now : Ft)
  /-- OFFER_SEND (R486): At O + m × 2^20 ns, member m sends its OFFER. -/
  | offerSend (now : Ft)
  /-- OFFER_MESSAGE (R492): A received OFFER is checked and kept for the claims, or discarded. -/
  | offerMessage (bytes : List Byte) (now : Ft)
  /-- CLAIMS_COMPUTE (R488): At O + 2^24 ns, a wanting member computes its claims and sends LEASE messages. -/
  | claimsCompute (now : Ft)
  /-- LEASE_MESSAGE (R492): A received LEASE claim is checked and kept for the lender's decision, or discarded. -/
  | leaseMessage (bytes : List Byte) (now : Ft)
  /-- LENDER_DECIDE (R489): At O + 2^25 ns, the lender grants claims, writes its reduction and sends ACKs once it is in force. -/
  | lenderDecide (now : Ft)
  /-- ACK_MESSAGE (R490): An ACK accepted by O + 2^26 ns adds a lease; a later one is counted in late_acks. -/
  | ackMessage (bytes : List Byte) (now : Ft)
  /-- BORROWER_ADJ_WRITE (R480): Before each offer boundary, the borrower writes LG_L5_ADJ and LG_L5_EXPIRY. -/
  | borrowerAdjWrite (now : Ft)
  /-- LEASE_RELEASE (R480): At E + 1,024 ns of a lease, the lender writes the smaller sum to release it. -/
  | leaseRelease (now : Ft)
  /-- HUB_FAULT (R501): A Hub unit presents a fault, which the FC registers. -/
  | hubFault (f : FaultIn) (now : Ft)
  /-- POST_FAULT (R502): A Post sends a fault flit, or queues or merges it. -/
  | postFault (tile : Tile) (f : Option FaultIn) (now : Ft)
  /-- FAULT_RECORD (R505): The FC registers a fault record, sets sticky bits, decides FC_FIRST and chooses the reaction. -/
  | faultRecord (die : Die)
  /-- POST_SILENT (R500): A powered Post with no good Sheaf for 64 ticks raises source 9.6. -/
  | postSilent (tile : Tile)
  /-- CHAIN_STALLED (R500): A chain port with neither flit nor credit for 16 ticks raises source 12.1. -/
  | chainStalled (dom : CoreDom)
  /-- FC_GRP_CLR (R508): A write of 1 to FC_GRP_CLR clears sticky and forced bits, except for active condition sources. -/
  | fcGrpClr (group : Fin 26) (bits : Byte)
  /-- FIRST_CLR (R508): A write of 1 to first_clr clears FC_FIRST, FC_FIRST_FT and FC_FIRST_OVF. -/
  | firstClr
  /-- ALERT_PEND_CLEAR (R516): A write of 1 to alert_pend clears it and deasserts SMB_ALERT_N. -/
  | alertPendClear
  /-- FC_GRP_SEV_WRITE (R510): A severity write takes effect at the next engines cycle and may change FAULT_N. -/
  | fcGrpSevWrite (group : Fin 26) (value : Word)
  /-- FC_GRP_FORCE (R519): A write of 1 to a force bit raises the source with FC_FORCE_INST. -/
  | fcGrpForce (group : Fin 26) (bits : Byte) (now : Ft)
  /-- INJECTION_GO (R523): A write of go arms the injection of FC_INJ_CTRL, or refuses it. -/
  | injectionGo
  /-- INJECTION_FIRE (R522): An armed injection places its stimulus at the detector, which acts as for a real fault. -/
  | injectionFire (now : Ft)
  /-- FC_ISO_ISOLATE_TILE (R529): A write of op 0 to FC_ISO_REQ isolates a tile. -/
  | fcIsoIsolateTile (tile : Tile) (now : Ft)
  /-- FC_ISO_ISOLATE_DOMAIN (R529): A write of op 1 to FC_ISO_REQ isolates a core domain. -/
  | fcIsoIsolateDomain (dom : CoreDom) (now : Ft)
  /-- FC_ISO_READMIT_TILE (R530): A write of op 2 to FC_ISO_REQ starts the re-admission of a tile. -/
  | fcIsoReadmitTile (tile : Tile)
  /-- FC_ISO_READMIT_DOMAIN (R533): A write of op 3 to FC_ISO_REQ re-admits a core domain by a domain power cycle. -/
  | fcIsoReadmitDomain (dom : CoreDom)
  /-- ISOLATION_ORDER (R525): An isolation order at the Relay marks the unit, revokes grants, orders the stretch and opens the switches in stages. -/
  | isolationOrder (domain : Bool) (index : Tile) (now : Ft)
  /-- SWITCH_OPENED (R525): TSW_OPEN reads open for the last switch of the unit, and isolation completes. -/
  | switchOpened (tile : Tile) (now : Ft)
  /-- READMIT_RESET_DONE (R530): The paired reset of the Post and its hub slot ends and the VID is raised to include the tile's floor. -/
  | readmitResetDone (tile : Tile)
  /-- READMIT_SWITCH_CLOSED (R530): The switch closes and the Post is released into LBIST. -/
  | readmitSwitchClosed (tile : Tile)
  /-- LBIST_END (R748): Post logic BIST ends with its signature, raising 9.7 on a mismatch. -/
  | lbistEnd (tile : Tile) (signature : DWord) (now : Ft)
  /-- READMIT_REJOIN (R530): After 16 good Sheafs, the tile rejoins at the next epoch boundary. -/
  | readmitRejoin (tile : Tile)
  /-- READMIT_TIMEOUT (R531): 64 ticks after step 6 without 16 good Sheafs, the re-admission fails. -/
  | readmitTimeout (tile : Tile) (now : Ft)
  /-- RISK_INTERVAL (R535): At the end of each risk interval, the FC computes the score and sets source 25.0. -/
  | riskInterval
  /-- WATCHDOG_SERVICE (R549): A core services its watchdog and restarts its count. -/
  | watchdogService (core : CoreId) (now : Ft)
  /-- WATCHDOG_EXPIRY (R552): A control-core watchdog expires, crashing the core with cause 0. -/
  | watchdogExpiry (core : Fin 4) (now : Ft)
  /-- CORE_EXCEPTION (R553): An unrecovered exception, bus error or declared inconsistency crashes a control core. -/
  | coreException (core : Fin 4) (cause : Fin 3) (now : Ft)
  /-- TASK_REBIND (R554): The supervisor rebinds a crashed core's tasks to its partner. -/
  | taskRebind (core : Fin 4)
  /-- DUMP_COMPLETE (R559): The dump engine finishes a crash dump and marks its slot valid. -/
  | dumpComplete
  /-- CORE_READY (R555): A restarted control core checks its image and reports ready, or is held. -/
  | coreReady (core : Fin 4) (now : Ft)
  /-- TASK_RETURN (R555): At the first epoch boundary after ready, tasks return to their home core. -/
  | taskReturn (core : Fin 4) (now : Ft)
  /-- SUPERVISOR_WATCHDOG_EXPIRY (R557): The supervisor watchdog expires, and the supervisor is dumped and reset. -/
  | supervisorWatchdogExpiry (now : Ft)
  /-- BOOT_GO (R564): A write of go starts a boot image fetch by DMA, or sets result 6 when region_lock is 0. -/
  | bootGo
  /-- BOOT_IMAGE_CHECKED (R562): The fetched boot image is checked and starts every core, or is refused. -/
  | bootImageChecked (fetched : Option (List Byte)) (now : Ft)
  /-- IMAGE_AUTHENTICATED (R562): A loaded Shadow image passes or fails its checks. -/
  | imageAuthenticated (now : Ft)
  /-- UPDATE_CORES_PARKED (R568): Every control core has parked, and the update enters REFLECTING. -/
  | updateCoresParked
  /-- REFLECTION_COMPLETE (R568): The Reflection record is complete, and the cores are reset into the Shadow image. -/
  | reflectionComplete
  /-- UPDATE_CORES_ENTERED (R566): Every control core has entered the new image, and the update enters ADOPTING. -/
  | updateCoresEntered
  /-- UPDATE_ADOPTED (R573): Every section is adopted, and the supervisor writes the commit word and boot record. -/
  | updateAdopted (now : Ft)
  /-- UPDATE_ABANDON (R572): A refusal, a crash or 12 ms without adoption abandons the update. -/
  | updateAbandon (refused : Bool) (now : Ft)
  /-- DEBUG_HALT (R576): A write of halt stops a core at an instruction boundary. -/
  | debugHalt (core : CoreId) (now : Ft)
  /-- DEBUG_RESUME (R577): A write of resume restarts a halted core. -/
  | debugResume (core : CoreId) (now : Ft)
  /-- BREAKPOINT_HIT (R576): An armed breakpoint comparator halts its core. -/
  | breakpointHit (core : CoreId) (k : Fin 4) (now : Ft)
  /-- GRANARY_CLR (R560): A write of 1 to a slot clear bit invalidates a dump slot. -/
  | granaryClr (bits : Fin 4)
  /-- RING_ENABLE (R587): A write of en = 1 enables a ring and zeroes its positions, or is ignored on bad geometry. -/
  | ringEnable (ring : Ring)
  /-- RING_DISABLE (R588): A write of en = 0 stops a ring. -/
  | ringDisable (ring : Ring)
  /-- DOORBELL (R591): A doorbell moves a ring position, or stops the ring on a protocol error. -/
  | doorbell (ring : Ring) (value : Word) (now : Ft)
  /-- PACKET_FETCH (R594): Firmware fetches a submission entry, frees it and checks the packet under Table 15-3. -/
  | packetFetch (ring : Ctx) (entry payload : Option (List Byte)) (now : Ft)
  /-- COMPLETION_WRITE (R597): The HIU writes a completion or TTU entry in two DMA writes and may raise an interrupt. -/
  | completionWrite (ring : Option Ring) (fail : Bool) (now : Ft)
  /-- HEARTBEAT (R610): A write to HIU_HB is stamped in HIU_HB_LAST. -/
  | heartbeat (value : Word) (now : Ft)
  /-- HEARTBEAT_TIMEOUT (R612): No heartbeat within the timeout enters UNATTENDED and drains needs_host contexts. -/
  | heartbeatTimeout (now : Ft)
  /-- NOP (R636): The NOP packet completes with no effect. -/
  | nop (now : Ft)
  /-- HELLO (R603): HELLO negotiates the contract minor and feature intersection and enters NEGOTIATING. -/
  | hello (now : Ft)
  /-- COMMIT (R604): COMMIT fixes the feature set and profile and enters ATTACHED. -/
  | commit (now : Ft)
  /-- GOODBYE (R613): GOODBYE enters UNATTENDED without raising 17.3. -/
  | goodbye (now : Ft)
  /-- IDENTIFY (R636): IDENTIFY returns the identification, image and lifecycle fields. -/
  | identify (now : Ft)
  /-- CTX_CREATE (R638): CTX_CREATE creates an ACTIVE context with a budget record. -/
  | ctxCreate (now : Ft)
  /-- CTX_SET_BUDGET (R638): CTX_SET_BUDGET changes a context's budget record. -/
  | ctxSetBudget (now : Ft)
  /-- CTX_SET_TILES (R638): CTX_SET_TILES adds tiles to or removes tiles from a context. -/
  | ctxSetTiles (now : Ft)
  /-- CTX_DRAIN (R638): CTX_DRAIN writes DRAINING and completes when the context is drained. -/
  | ctxDrain (now : Ft)
  /-- CTX_FREE (R638): CTX_FREE drains a context and writes FREE once it is drained. -/
  | ctxFree (now : Ft)
  /-- CTX_ACTIVATE (R638): CTX_ACTIVATE returns a DRAINING context to ACTIVE. -/
  | ctxActivate (now : Ft)
  /-- CTX_QUERY (R637): CTX_QUERY returns a context's state, share, counts and credit. -/
  | ctxQuery (now : Ft)
  /-- LIMIT_SET (R639): LIMIT_SET writes the port's request slot of L1–L4. -/
  | limitSet (now : Ft)
  /-- THERMAL_SET (R639): THERMAL_SET writes the port's slot of a thermal threshold. -/
  | thermalSet (now : Ft)
  /-- LIMIT_QUERY (R639): LIMIT_QUERY returns thresholds, averages, p_k and the level. -/
  | limitQuery (now : Ft)
  /-- CEILING_UPDATE (R640): CEILING_UPDATE programs the next ceiling fuse slot under R288. -/
  | ceilingUpdate (now : Ft)
  /-- CEILING_QUERY (R639): CEILING_QUERY returns the ceilings, slot counts and log. -/
  | ceilingQuery (now : Ft)
  /-- MARGIN_SET_MODE (R642): MARGIN_SET_MODE stores a domain's requested margin mode. -/
  | marginSetMode (now : Ft)
  /-- MARGIN_SET_FREQ (R641): MARGIN_SET_FREQ requests a domain frequency and completes at PLL lock. -/
  | marginSetFreq (now : Ft)
  /-- MARGIN_SET_PARAMS (R642): MARGIN_SET_PARAMS changes the masked margin settings at the next epoch. -/
  | marginSetParams (now : Ft)
  /-- MARGIN_QUERY (R641): MARGIN_QUERY returns a domain's margin state. -/
  | marginQuery (now : Ft)
  /-- LANTERN_CAL (R642): LANTERN_CAL calibrates a tile's Lantern and returns its trim. -/
  | lanternCal (now : Ft)
  /-- BUNDLE_LOAD (R644): BUNDLE_LOAD checks a signed bundle and loads it into the inactive bank. -/
  | bundleLoad (now : Ft)
  /-- BUNDLE_LOAD_VERIFIED (R644): The inactive bank holds the verified load, and inactive_valid is set. -/
  | bundleLoadVerified
  /-- BUNDLE_SWAP (R644): BUNDLE_SWAP schedules an EA, class-table or TME bank swap at a named tick. -/
  | bundleSwap (now : Ft)
  /-- WINNOW_CTRL (R643): WINNOW_CTRL holds, restores or switches fitting and publication. -/
  | winnowCtrl (now : Ft)
  /-- WINNOW_CFG (R643): WINNOW_CFG sets the fit parameters and swap delay. -/
  | winnowCfg (now : Ft)
  /-- WINNOW_READ (R644): WINNOW_READ returns a domain's unknowns, covariance and statistics. -/
  | winnowRead (now : Ft)
  /-- EA_READ (R643): EA_READ returns leakage tables, factors or a network record. -/
  | eaRead (now : Ft)
  /-- COOL_SET (R645): COOL_SET sets the cooling override or t_amb. -/
  | coolSet (now : Ft)
  /-- THERMAL_READ (R643): THERMAL_READ returns node temperatures. -/
  | thermalRead (now : Ft)
  /-- TELEM_CONFIG (R663): TELEM_CONFIG sets a telemetry ring's interval and mask. -/
  | telemConfig (now : Ft)
  /-- TRACE_CONFIG (R646): TRACE_CONFIG enables or disables boundary trace on tiles. -/
  | traceConfig (now : Ft)
  /-- DIGEST_CONFIG (R676): DIGEST_CONFIG sets channel 1 and the window of tiles and the digest mask. -/
  | digestConfig (now : Ft)
  /-- COUNTERS_READ (R662): COUNTERS_READ returns one counter set sampled at one edge. -/
  | countersRead (now : Ft)
  /-- FAULT_READ (R647): FAULT_READ returns the FC state and group records. -/
  | faultRead (now : Ft)
  /-- FAULT_CLEAR (R648): FAULT_CLEAR clears sticky bits, FC_FIRST or alert_pend. -/
  | faultClear (now : Ft)
  /-- FAULT_SET_SEV (R648): FAULT_SET_SEV sets a source's severity. -/
  | faultSetSev (now : Ft)
  /-- FAULT_SET_CTRL (R647): FAULT_SET_CTRL sets the FC thresholds and log_to_ring. -/
  | faultSetCtrl (now : Ft)
  /-- ISOLATE (R648): ISOLATE isolates a tile or core domain and completes at isolation. -/
  | isolate (now : Ft)
  /-- READMIT (R648): READMIT re-admits a tile or domain and completes at rejoin, failure or abort. -/
  | readmit (now : Ft)
  /-- FAULT_FORCE (R648): FAULT_FORCE writes force_dry and raises a source by its force bit. -/
  | faultForce (now : Ft)
  /-- FAULT_INJECT (R648): FAULT_INJECT arms an injection point. -/
  | faultInject (now : Ft)
  /-- RISK_CFG (R647): RISK_CFG sets the risk threshold, base and weights. -/
  | riskCfg (now : Ft)
  /-- RISK_READ (R647): RISK_READ returns the last score and its inputs. -/
  | riskRead (now : Ft)
  /-- IMAGE_LOAD (R650): IMAGE_LOAD loads a chunk of a Shadow image, authenticating it at the last chunk. -/
  | imageLoad (now : Ft)
  /-- IMAGE_ACTIVATE (R567): IMAGE_ACTIVATE starts a live update from AUTHENTICATED. -/
  | imageActivate (now : Ft)
  /-- IMAGE_DISCARD (R649): IMAGE_DISCARD discards the loaded Shadow image. -/
  | imageDiscard (now : Ft)
  /-- IMAGE_QUERY (R649): IMAGE_QUERY returns the image and update registers. -/
  | imageQuery (now : Ft)
  /-- GROUP_SET (R652): GROUP_SET stores a lending configuration to take effect at X. -/
  | groupSet (now : Ft)
  /-- LEND_CFG (R652): LEND_CFG sets the lending enables, margins and step. -/
  | lendCfg (now : Ft)
  /-- LEND_QUERY (R651): LEND_QUERY returns the lending role, leases and counts. -/
  | lendQuery (now : Ft)
  /-- DUMP_READ (R653): DUMP_READ returns a crash dump slot. -/
  | dumpRead (now : Ft)
  /-- DUMP_CLEAR (R653): DUMP_CLEAR invalidates the masked dump slots. -/
  | dumpClear (now : Ft)
  /-- CORE_RESET (R654): CORE_RESET crashes a control core with cause 4 and completes at ready. -/
  | coreReset (now : Ft)
  /-- POST_LBIST (R654): POST_LBIST runs logic BIST on an isolated tile and reopens its switch. -/
  | postLbist (now : Ft)
  /-- GLOBAL_STOP (R679): GLOBAL_STOP arms a cut of the whole block at stop_ft. -/
  | globalStop (now : Ft)
  /-- WFG_READ (R678): WFG_READ builds and returns the wait-for graph. -/
  | wfgRead (now : Ft)
  /-- LC_QUERY (R655): LC_QUERY returns the lifecycle state, key slots and minimum svn. -/
  | lcQuery (now : Ft)
  /-- LC_TRANSITION (R764): LC_TRANSITION checks the authorisation and programs a transition record. -/
  | lcTransition (now : Ft)
  /-- KEY_REVOKE (R770): KEY_REVOKE sets the revoked bit of a key slot. -/
  | keyRevoke (now : Ft)
  /-- SVN_RAISE (R771): SVN_RAISE raises the fused minimum security version. -/
  | svnRaise (now : Ft)
  /-- FUSE_OP_COMPLETE (R776): A lifecycle, key, revocation or raise fuse operation verifies or fails. -/
  | fuseOpComplete (ok : Bool) (readback : Fin 64) (now : Ft)
  /-- LC_TRANSITION_EFFECT (R767): At the first tick boundary after verification, the new state closes its accesses. -/
  | lcTransitionEffect
  /-- TELEMETRY_INTERVAL_END (R665): At the end of a telemetry interval, the TTU writes the selected records, discarding any left from the last interval. -/
  | telemetryIntervalEnd (ring : Fin 4) (now : Ft)
  /-- TRACE_RECORD (R671): A boundary trace record or loss flit reaches the TTU and updates the tile's kept boundary. -/
  | traceRecord (die : Die) (tile : Option Tile)
  /-- DIGEST_RECORD (R676): A digest record reaches the TTU, which writes two DIGEST entries. -/
  | digestRecord (die : Die)
  /-- WFG_BUILD (R677): At each FT with FT[23:0] = 0, core 3 builds the wait-for graph. -/
  | wfgBuild
  /-- STOP_ARM (R679): A write of arm with TTU_STOP_FT sends stop_ft to every Relay. -/
  | stopArm
  /-- GLOBAL_STOP_CUT (R680): At stop_ft, every island stops and items in flight are recorded. -/
  | globalStopCut (items : List CapItem) (now : Ft)
  /-- GLOBAL_STOP_COMPLETE (R683): By stop_ft + 250 µs, the HIU writes the GLOBAL_STOP completion and state reads 3. -/
  | globalStopComplete (now : Ft)
  /-- MONITOR_WINDOW (R689): A monitor window ends, and its count qualifies or fails the counted source. -/
  | monitorWindow (m : Fin 3) (count : Nat) (now : Ft)
  /-- SOURCE_STOP (R690): A source giving no edge for 32 ns fails. -/
  | sourceStop (src : Fin 3) (now : Ft)
  /-- ROOT_PLL_LOCK (R695): The root PLL locks to a qualified source, and the islands return to it when allowed. -/
  | rootPllLock (lock : Bool) (now : Ft)
  /-- RET_REQ (R695): A write of 1 to ret_req requests a return of the root. -/
  | retReq
  /-- ISLAND_SWITCH_COMPLETE (R701): After 24 suppressed edges, an island runs on its new clock and its FT copies advance. -/
  | islandSwitchComplete (island : Fin 14)
  /-- GATE_CLOSE (R705): A gating node not in use, with its children closed, closes its gate. -/
  | gateClose (node : Fin 13) (die : Die) (now : Ft)
  /-- GATE_OPEN (R707): A closed node that comes into use opens with its ancestors. -/
  | gateOpen (node : Fin 13) (die : Die) (now : Ft)
  /-- CDC_AGREEMENT_TIMEOUT (R710): 16 edges of disagreement raise source 14.0. -/
  | cdcAgreementTimeout (crossing : Fin 2048) (now : Ft)
  /-- PULSE_COUNT_OVERFLOW (R712): An overflowed snapshot raises source 14.1. -/
  | pulseCountOverflow (crossing : Fin 2048) (now : Ft)
  /-- PSTATE_TARGET (R732): A write of the power-state target starts or queues a transition. -/
  | pstateTarget (by_ : Fin 3) (value : Fin 4) (now : Ft)
  /-- IDLE_GATED_DRAINED (R733): With no busy tile and no grant, the margin logic lowers each domain to 800 MHz. -/
  | idleGatedDrained (now : Ft)
  /-- IDLE_GATED_REACHED (R733): Every core VID reaches its target, and the state reads Idle-Gated. -/
  | idleGatedReached (now : Ft)
  /-- DEEP_ENTRY_SWITCH (R735): With every core domain OFF or FAILED, the islands switch to their Deep divisions. -/
  | deepEntrySwitch (now : Ft)
  /-- DEEP_EXIT_DOMAIN_START (R737): At X + 1,024 + n × stagger ns, core domain n receives en = 1. -/
  | deepExitDomainStart (dom : CoreDom) (now : Ft)
  /-- DEEP_EXIT_COMPLETE (R737): Every started core domain is in RUN, and the state reads Active. -/
  | deepExitComplete (now : Ft)
  /-- ECC_CORRECTED (R750): A single-bit error is corrected, written back and logged, raising 16.0. -/
  | eccCorrected (sram : Fin 24) (addr : Nat) (syn : Byte) (copy : Bool) (now : Ft)
  /-- ECC_UNCORRECTABLE (R750): A double-bit error returns the error of Table 19-2 and raises 16.1. -/
  | eccUncorrectable (sram : Fin 24) (addr : Nat) (syn : Byte) (copy : Bool) (who : Fin 4) (part : Nat) (now : Ft)
  /-- PATROL_SCRUB (R752): The patrol scrubber reads words on idle port cycles and corrects them. -/
  | patrolScrub (sram : Fin 24) (addr : Nat) (found : Fin 3 × Byte) (part : Nat) (now : Ft)
  /-- PAGE_RETIRE (R754): A write of BTC_RETIRE_REQ copies a page to a spare. -/
  | pageRetire (sram : Fin 4096) (page : Fin 512)
  /-- PAGE_RETIRE_COMPLETE (R754): The mapping goes into force, and source 16.2 is raised. -/
  | pageRetireComplete (now : Ft)
  /-- MCTP_SET_ENDPOINT_ID (R811): Set Endpoint ID assigns the MPU's endpoint ID. -/
  | mctpSetEndpointId (src : Byte) (inst : Fin 32) (op : Fin 4) (eid : Byte) (now : Ft)
  /-- MCTP_GET_ENDPOINT_ID (R811): Get Endpoint ID returns the endpoint ID. -/
  | mctpGetEndpointId (src : Byte) (inst : Fin 32) (now : Ft)
  /-- MCTP_GET_VERSION_SUPPORT (R811): Get MCTP Version Support returns the supported versions. -/
  | mctpGetVersionSupport (src : Byte) (inst : Fin 32) (type : Byte) (now : Ft)
  /-- MCTP_GET_MESSAGE_TYPE_SUPPORT (R811): Get Message Type Support returns the supported types. -/
  | mctpGetMessageTypeSupport (src : Byte) (inst : Fin 32) (now : Ft)
  /-- MCTP_GET_VENDOR_SUPPORT (R811): Get Vendor Defined Message Support returns the vendor support. -/
  | mctpGetVendorSupport (src : Byte) (inst : Fin 32) (selector : Byte) (now : Ft)
  /-- MCTP_UNSUPPORTED_COMMAND (R811): Any other control command is answered with ERROR_UNSUPPORTED_CMD. -/
  | mctpUnsupportedCommand (src : Byte) (inst : Fin 32) (command : Byte) (now : Ft)
  /-- PACKET (R814): A vendor PACKET message carries a control packet over P4. -/
  | packet (eid seq : Byte) (entry payload : List Byte) (now : Ft)
  /-- REG_READ (R813): A vendor REG_READ message returns a register value. -/
  | regRead (eid seq : Byte) (off : Word) (width syn : Byte) (edge : ReadEdge)
  /-- REG_WRITE (R813): A vendor REG_WRITE message writes the fields that the management port may write. -/
  | regWrite (eid seq : Byte) (off : Word) (width : Byte) (value : DWord) (now : Ft)
  /-- BOOT_CHUNK (R815): A vendor BOOT_CHUNK message loads part of a boot image over P4. -/
  | bootChunk (eid seq : Byte) (off : Word) (last : Bool) (data : List Byte) (now : Ft)
  /-- MALFORMED_VENDOR_MESSAGE (R812): A vendor message with IC = 1, an unknown command or a wrong length is answered with code 0x06. -/
  | malformedVendorMessage (eid cmd seq : Byte) (now : Ft)
  /-- ALERT_RESPONSE (R810): The MPU answers the Alert Response Address with its address. -/
  | alertResponse (now : Ft)
  /-- SMBUS_TIMEOUT (R809): SCL held low for 25 ms makes the MPU release the bus. -/
  | smbusTimeout (now : Ft)
  /-- PEC_ERROR (R809): A write with a failing or missing PEC is NACKed or discarded. -/
  | pecError (now : Ft)
  /-- PMBUS_POLL (R817): At each FT with FT[23:0] = 0, the MPU reads every enabled converter. -/
  | pmbusPoll (reads : List (Option ConvRead)) (now : Ft)
  /-- PMB_ALERT (R817): A PMB_ALERT_N assertion makes the MPU read every STATUS_WORD. -/
  | pmbAlert (status : List (Option (BitVec 16))) (now : Ft)
  /-- CONVERTER_CLR (R817): A write of 1 to clr sends CLEAR_FAULTS. -/
  | converterClr (k : Fin 8) (now : Ft)
  /-- TAP_RESET (R821): Test-Logic-Reset selects IDCODE. -/
  | tapReset
  /-- EXTEST (R823): EXTEST drives the P4 outputs from the boundary register. -/
  | extest (pins load : BitVec 14)
  /-- IDCODE (R821): IDCODE shifts out the 32-bit identification code. -/
  | idcode
  /-- SAMPLE_PRELOAD (R821): SAMPLE/PRELOAD captures and loads the boundary register. -/
  | samplePreload (pins load : BitVec 14)
  /-- BYPASS (R821): BYPASS selects the 1-bit register. -/
  | bypass
  /-- SCAN_ENTER (R759): SCAN_ENTER zeroises the secrets and then enables scan. -/
  | scanEnter (readbackZero : Bool) (now : Ft)
  /-- MBIST_RUN (R749): MBIST_RUN runs memory BIST on request. -/
  | mbistRun (unrep : BitVec 16) (rows cols : Nat) (now : Ft)
  /-- FUSE_PROGRAM (R822): FUSE_PROGRAM programs a repair entry or a key slot hash. -/
  | fuseProgram (entry : Word) (key : Option (BitVec 4 × List Byte)) (now : Ft)
  /-- TAP_CEILING_UPDATE (R822): The TAP CEILING_UPDATE instruction requests a ceiling update. -/
  | tapCeilingUpdate (c : Byte) (value : Word) (now : Ft)
  /-- LC_REQUEST (R822): LC_REQUEST carries a lifecycle request with its authorisation over P6. -/
  | lcRequest (op : Byte) (record : List Byte) (now : Ft)
  /-- REG_ACCESS (R822): REG_ACCESS performs a register access with host write rules. -/
  | regAccess (off : Fin 16777216) (write wide : Bool) (data : DWord) (syn : Byte) (edge : ReadEdge)
  /-- SUPERVISOR_READY (R557): The reset supervisor core finishes checking the active image and runs again, rebinding the tasks of any control core that crashed while it was down. -/
  | supervisorReady (now : Ft)
  /-- SMBUS_ARBITRATION_LOST (R809): The MPU loses arbitration while mastering the bus to send an MCTP packet, sets arb_lost_seen, and drops the message with source 18.0 after 16 losses. -/
  | smbusArbitrationLost (now : Ft)
  /-- SMBUS_UNSUPPORTED_TRANSACTION (R809): An SMBus transaction other than an MCTP block write or the Alert Response Address is NACKed at its command byte. -/
  | smbusUnsupportedTransaction (now : Ft)
  deriving DecidableEq, Repr

end Sys2Proof
end

