-- ==== Sys2Proof/Decode.lean ====
section
/-! DEFINITION. Commands spelled by words. Every row of spec/opcode_table.json has an empty field list: no word spells a
command of this block. -/
namespace Sys2Proof

/-- The command a word spells: none, since no row of the table gives bits.
Marks: DESIGN CHOICE, log entry 4. -/
def decodeTableWord (_nbits _w : Nat) : Option Instr := none

end Sys2Proof
end

