-- ==== Sys2Proof/Config.lean ====
section
/-! DEFINITION. What one part or one implementation fixes and the manual leaves open: free values and the standard
functions the manual names without defining. Nothing here has a body, so no proof can see a value. -/
namespace Sys2Proof.Config

/-- Free values, one per index; State counts the indices used (log entry 1).
Marks: DESIGN CHOICE, log entry 1. -/
opaque freeValue : Nat → BitVec 64

/-- SHA-384 of a byte string (R245, R562, R773), 48 bytes.
Marks: DESIGN CHOICE, log entry 1. -/
opaque sha384 : List Byte → List Byte

/-- ECDSA P-384 verification of a signature over a byte string by a public key (R245, R562, R773).
Marks: DESIGN CHOICE, log entry 1. -/
opaque ecdsaVerify : (pubkey msg sig : List Byte) → Bool

/-- HMAC-SHA-384 of a byte string under a key (R774), 48 bytes.
Marks: DESIGN CHOICE, log entry 1. -/
opaque hmac384 : BitVec 384 → List Byte → List Byte

/-- The part's device-unique secret, and the keys the LFC derives from it (R758).
Marks: DESIGN CHOICE, log entry 129. -/
opaque deviceSecret : BitVec 384
/-- Marks: DESIGN CHOICE, log entry 129. -/
opaque derivedKeys : BitVec 384 → BitVec 384

/-- What a check of a byte string leaves in the working registers of the hash and signature engine (R758).
Marks: DESIGN CHOICE, log entry 129. -/
opaque engineRegs : List Byte → BitVec 384

/-- Task, code and argument of the n-th entry that the image writes to the event log (Table 13-6).
Marks: DESIGN CHOICE, log entry 130. -/
opaque eventWord : Nat → BitVec 56

/-- The bytes of the boot record and the commit word as the Granary lays them out (Table 13-3): for the active region and
its hash, the pending region and its hash, and the commit word.
Marks: DESIGN CHOICE, log entry 84. -/
opaque bootRecByte : Bool → List Byte → Option (Bool × List Byte) → Nat → Nat → BitVec 8

/-- The minor version of the n-th Reflection record, and the body of a section of it, by its id (Tables 13-10 and 13-11).
Marks: DESIGN CHOICE, log entry 131. -/
opaque reflMinor : Nat → BitVec 16
/-- Marks: DESIGN CHOICE, log entry 131. -/
opaque reflBody : Nat → Nat → List Byte

/-- The type and the body of a flit whose record the manual names and does not lay out, by its kind (0 kv and tick order, 1
bank swap, 2 register access, 3 register read data, 4 limiter or margin setting, 5 PLL command, 6 retention setpoint), its address and its value.
Marks: DESIGN CHOICE, log entry 9. -/
opaque flitType : Nat → Nat
/-- Marks: DESIGN CHOICE, log entry 9. -/
opaque flitBody : Nat → Nat → Nat → BitVec 64

/-- The leakage tables of the boot ROM (R201), by index kind × 176 + row × 11 + column.
Marks: DESIGN CHOICE, log entry 28. -/
opaque romLeak : Nat → BitVec 16

/-- The thermal parameters of the boot ROM (R460): substeps, header values 0 t_amb_default, 1 sens, 2 k_obs, and the
nodes: c_inv, g_amb and the neighbours with their conductances, binary32.
Marks: DESIGN CHOICE, log entry 28. -/
opaque romTmeSub : Nat
/-- Marks: DESIGN CHOICE, log entry 28. -/
opaque romTmeHead : Nat → BitVec 32
/-- Marks: DESIGN CHOICE, log entry 28. -/
opaque romTmeNode : Nat → BitVec 32 × BitVec 32 × List (Nat × BitVec 32)

/-- The payload of a type in the factory bundles that an image carries (R201, Table 18-5 step 8): for the image's bytes and
the payload type. How an image carries them is left open.
Marks: DESIGN CHOICE, log entry 126. -/
opaque factoryBundle : List Byte → Nat → List Byte

/-- The boot ROM's bytes (Table 13-17).
Marks: DESIGN CHOICE, log entry 1. -/
opaque bootRom : Nat → BitVec 8

/-- What a row of a leakage table without a valid entry gives (R200 states a neighbour only).
Marks: DEDUCED, log entry 15. -/
opaque badLeakRow : Nat → BitVec 16

end Sys2Proof.Config
end

