-- ==== Sys2Proof/Machine/Bits.lean ====
section
/-! DEFINITION. Bit fields, saturation, fixed point and byte order (00_scope.md R10-R16). -/
namespace Sys2Proof.Machine

/-- Bits [lo + width - 1 : lo] of a number. -/
def getBits (x lo width : Nat) : Nat := (x >>> lo) % 2 ^ width

/-- The number with bits [lo + width - 1 : lo] replaced by the low bits of `v`. -/
def putBits (x lo width v : Nat) : Nat :=
  x % 2 ^ lo + (v % 2 ^ width) * 2 ^ lo + (x >>> (lo + width)) * 2 ^ (lo + width)

/-- The two's complement value of the low `w` bits. -/
def toSigned (w x : Nat) : Int :=
  if x % 2 ^ w < 2 ^ (w - 1) then (x % 2 ^ w : Nat) else ((x % 2 ^ w : Nat) : Int) - (2 ^ w : Nat)

/-- The low `w` bits of an integer, as an unsigned number. -/
def ofSigned (w : Nat) (i : Int) : Nat := (i % (2 ^ w : Nat)).toNat

/-- Saturate at the top of `w` unsigned bits (R13). -/
def satU (w n : Nat) : Nat := min n (2 ^ w - 1)

/-- Saturate an integer into `w` signed bits (R13). -/
def satS (w : Nat) (i : Int) : Int := max (-(2 ^ (w - 1) : Nat)) (min i ((2 ^ (w - 1) : Nat) - 1))

/-- Clamp a natural number into a range (R12). -/
def clampN (lo hi x : Nat) : Nat := max lo (min hi x)

/-- Clamp an integer into a range (R12). -/
def clampI (lo hi x : Int) : Int := max lo (min hi x)

/-- 1 for true. -/
def b2n (b : Bool) : Nat := if b then 1 else 0

/-- Bit `k` of a number. -/
def bit (x k : Nat) : Bool := x.testBit k

/-- The number with bit `k` set to `b`. -/
def setBit (x k : Nat) (b : Bool) : Nat := putBits x k 1 (b2n b)

/-- Even parity bit of the low `n` bits: 1 when an odd number of them is set. -/
def parity : Nat → Nat → Bool
  | 0, _ => false
  | n + 1, x => xor (x.testBit n) (parity n x)

/-- The number of set bits among the low `n`. -/
def popCount : Nat → Nat → Nat
  | 0, _ => 0
  | n + 1, x => b2n (x.testBit n) + popCount n x

/-- One bit of the reflected CRC-32 of IEEE 802.3 (R491). -/
def crc32Bit (c : Nat) : Nat := if c.testBit 0 then (c >>> 1) ^^^ 0xEDB88320 else c >>> 1

/-- One byte of it. -/
def crc32Byte (c x : Nat) : Nat := (List.range 8).foldl (fun c _ => crc32Bit c) (c ^^^ x)

/-- CRC-32 of bytes. -/
def crc32 (l : List Byte) : Nat := (l.foldl (fun c b => crc32Byte c b.toNat) 0xFFFFFFFF) ^^^ 0xFFFFFFFF

/-- Little-endian bytes of a number (R16). -/
def leBytes : Nat → Nat → List Byte
  | 0, _ => []
  | n + 1, x => BitVec.ofNat 8 x :: leBytes n (x / 256)

/-- Little-endian fields of records, unsigned and signed (R16). -/
def u8 (n : Nat) : List Byte := leBytes 1 n
def u16 (n : Nat) : List Byte := leBytes 2 n
def u32 (n : Nat) : List Byte := leBytes 4 n
def u64 (n : Nat) : List Byte := leBytes 8 n
def s16 (i : Int) : List Byte := leBytes 2 (ofSigned 16 i)
def s32 (i : Int) : List Byte := leBytes 4 (ofSigned 32 i)

/-- The number of little-endian bytes (R16). -/
def ofLe : List Byte → Nat
  | [] => 0
  | b :: bs => b.toNat + 256 * ofLe bs

/-- `n` bytes of a record at an offset, as a little-endian number. -/
def rdAt (l : List Byte) (off n : Nat) : Nat := ofLe ((l.drop off).take n)

/-- A word assembled from (lo, width, value) parts. -/
def packBits (parts : List (Nat × Nat × Nat)) : Nat :=
  parts.foldl (fun acc p => putBits acc p.1 p.2.1 p.2.2) 0

/-- Signed division rounding toward zero. -/
def divZ (a b : Int) : Int := a.tdiv b

/-- Division by a power of two rounding down (an arithmetic shift right). -/
def sar (i : Int) (k : Nat) : Int := i.fdiv (2 ^ k : Nat)

/-- Quotient rounded to the nearest, halves up.
Marks: DEDUCED, log entry 25. -/
def divRound (a b : Nat) : Nat := if b = 0 then 0 else (2 * a + b) / (2 * b)

/-- Sum of a list. -/
def sumN (l : List Nat) : Nat := l.foldl (· + ·) 0

/-- Sum of a list of integers. -/
def sumI (l : List Int) : Int := l.foldl (· + ·) 0

/-- Greatest of a list, 0 when empty. -/
def maxN (l : List Nat) : Nat := l.foldl max 0

/-- Least of a list, `d` when empty. -/
def minN (d : Nat) : List Nat → Nat
  | [] => d
  | x :: xs => xs.foldl min x

/-- CRC-16 with polynomial 0x1021, most significant bit first (R124). -/
def crc16Bit (crc : Nat) (b : Bool) : Nat :=
  let top := xor (crc.testBit 15) b
  let sh := (crc * 2) % 65536
  if top then sh ^^^ 0x1021 else sh

/-- CRC-16 of one byte, most significant bit first. -/
def crc16Byte (crc : Nat) (x : Nat) : Nat :=
  (List.range 8).foldl (fun c i => crc16Bit c (x.testBit (7 - i))) crc

/-- CRC-16 of bytes with initial value 0xFFFF (R124). -/
def crc16 (bytes : List Nat) : Nat := bytes.foldl crc16Byte 0xFFFF

end Sys2Proof.Machine
end

