-- ==== Sys2Proof/Machine/RegMap.lean ====
section
/-! DEFINITION. The register map of the QV window: every register and field of the tables of spec/
(Tables 22-9 to 22-22 and the field tables they name), with access code, range, writers and reset. -/
namespace Sys2Proof.Machine

/-- A register field: the register's window offset, lowest bit and width. -/
structure Fld where
  off : Nat
  lo : Nat
  width : Nat
  deriving DecidableEq, Repr

/-- The access codes of Table 00-7. -/
inductive Acc
  | ro | rw | rwl | w1c | w1s | wo | ros
  deriving DecidableEq, Repr

/-- The range or the reserved codes of a field (R12, R26). -/
inductive Lim
  /-- Every value of the field. -/
  | any
  /-- Unsigned, clamped to a range. -/
  | u (lo hi : Nat)
  /-- Signed, clamped to a range. -/
  | s (lo hi : Int)
  /-- Codes above the bound are reserved: the field keeps its value. -/
  | resv (top : Nat)
  deriving DecidableEq, Repr

/-- The requesters whose writes a field accepts (R827 and the chapters). -/
inductive Wr
  | none | fw | host | fwHost | mgmt | fwMgmt | hostMgmt | all
  /-- Host software, only while the boot ROM waits (R579). -/
  | romWait
  /-- Where firmware debug is admitted (R576). -/
  | debug
  deriving DecidableEq, Repr

/-- One field of a register. -/
structure FieldRow where
  lo : Nat
  width : Nat
  acc : Acc
  reset : Nat
  lim : Lim
  wr : Wr
  deriving DecidableEq, Repr

/-- One register, or one array of registers: base offset, (stride, count) of each index, 64-bit flag. -/
structure RegRow where
  base : Nat
  dims : List (Nat × Nat)
  wide : Bool
  fields : List FieldRow
  deriving DecidableEq, Repr

/-- Rows of the register tables of the Hub part (Table 22-8 and the unit tables it names). -/
def regRowsHub : List RegRow := [
  -- HUB_ID
  ⟨0x0, [], false,
    [⟨16, 16, .ro, 20822, .any, .none⟩,
     ⟨8, 8, .ro, 3, .any, .none⟩,
     ⟨0, 8, .ro, 0, .any, .none⟩]⟩,
  -- HUB_TOPOLOGY
  ⟨0x4, [], false,
    [⟨16, 7, .ro, 0, .any, .none⟩,
     ⟨4, 11, .ro, 0, .any, .none⟩,
     ⟨0, 3, .ro, 0, .any, .none⟩]⟩,
  -- HUB_TOPOLOGY_B
  ⟨0x8, [], false,
    [⟨8, 5, .ro, 0, .any, .none⟩,
     ⟨0, 8, .ro, 0, .any, .none⟩]⟩,
  -- HUB_SB_STATUS
  ⟨0x40, [(0x4, 4)], false,
    [⟨17, 1, .w1c, 0, .any, .fwHost⟩,
     ⟨16, 1, .w1c, 0, .any, .fwHost⟩,
     ⟨8, 8, .ro, 0, .any, .none⟩,
     ⟨1, 4, .ro, 0, .any, .none⟩,
     ⟨0, 1, .ro, 0, .any, .none⟩]⟩,
  -- HUB_RESET_CTRL
  ⟨0x100, [], false,
    [⟨1, 1, .w1s, 0, .any, .mgmt⟩,
     ⟨0, 1, .w1s, 0, .any, .hostMgmt⟩]⟩,
  -- HUB_RESET_STATUS
  ⟨0x104, [], false,
    [⟨24, 8, .ro, 0, .any, .none⟩,
     ⟨16, 8, .ro, 0, .any, .none⟩,
     ⟨0, 4, .ro, 0, .any, .none⟩]⟩,
  -- HUB_RESET_FT
  ⟨0x108, [], true,
    [⟨0, 64, .ro, 0, .any, .none⟩]⟩,
  -- HUB_PSTATE_CTRL
  ⟨0x110, [], false,
    [⟨0, 2, .rw, 0, (.resv 2), .all⟩]⟩,
  -- HUB_PSTATE_CFG
  ⟨0x114, [], false,
    [⟨16, 10, .rw, 700, (.u 650 900), .fw⟩,
     ⟨0, 8, .rw, 32, (.u 1 255), .fw⟩]⟩,
  -- HUB_PSTATE_STATUS
  ⟨0x118, [], false,
    [⟨29, 3, .ro, 0, .any, .none⟩,
     ⟨28, 1, .ro, 0, .any, .none⟩,
     ⟨0, 16, .ro, 0, .any, .none⟩]⟩,
  -- HUB_PSTATE_FT
  ⟨0x120, [], true,
    [⟨0, 64, .ro, 0, .any, .none⟩]⟩,
  -- HUB_BOOT_STATUS
  ⟨0x128, [], false,
    [⟨7, 1, .ro, 0, .any, .none⟩,
     ⟨6, 1, .ro, 0, .any, .none⟩,
     ⟨5, 1, .ro, 0, .any, .none⟩,
     ⟨4, 1, .ro, 0, .any, .none⟩,
     ⟨3, 1, .ro, 0, .any, .none⟩,
     ⟨2, 1, .ro, 0, .any, .none⟩,
     ⟨1, 1, .ro, 0, .any, .none⟩,
     ⟨0, 1, .ro, 0, .any, .none⟩]⟩]

/-- Rows of the register tables of the Ctu part (Table 22-8 and the unit tables it names). -/
def regRowsCtu : List RegRow := [
  -- CTU_FT
  ⟨0x2000, [], true,
    [⟨0, 64, .ro, 0, .any, .none⟩]⟩,
  -- CTU_FT_STATUS
  ⟨0x2008, [], false,
    [⟨16, 8, .ro, 0, .any, .none⟩,
     ⟨8, 8, .ro, 0, .any, .none⟩,
     ⟨5, 1, .w1c, 0, .any, .fwHost⟩,
     ⟨4, 1, .w1c, 0, .any, .fwHost⟩,
     ⟨3, 1, .ro, 0, .any, .none⟩,
     ⟨0, 3, .ro, 0, .any, .none⟩]⟩,
  -- CTU_FT_OFFSET
  ⟨0x200C, [], false,
    [⟨0, 32, .ro, 0, .any, .none⟩]⟩,
  -- CTU_CLK_CTRL
  ⟨0x2100, [], false,
    [⟨8, 8, .rw, 4, (.u 2 255), .fw⟩,
     ⟨3, 1, .w1s, 0, .any, .fw⟩,
     ⟨2, 1, .rw, 1, .any, .fw⟩,
     ⟨1, 1, .rw, 1, .any, .fw⟩,
     ⟨0, 1, .rw, 1, .any, .fw⟩]⟩,
  -- CTU_CLK_STATUS
  ⟨0x2104, [], false,
    [⟨24, 8, .ro, 0, .any, .none⟩,
     ⟨16, 8, .ro, 0, .any, .none⟩,
     ⟨8, 3, .w1c, 0, .any, .fwHost⟩,
     ⟨5, 3, .ro, 0, .any, .none⟩,
     ⟨4, 1, .ro, 0, .any, .none⟩,
     ⟨3, 1, .ro, 0, .any, .none⟩,
     ⟨0, 2, .ro, 2, .any, .none⟩]⟩,
  -- CTU_RING
  ⟨0x2108, [], false,
    [⟨24, 8, .ro, 0, .any, .none⟩,
     ⟨0, 22, .ro, 0, .any, .none⟩]⟩,
  -- CTU_MON
  ⟨0x2110, [(0x4, 3)], false,
    [⟨16, 16, .ro, 0, .any, .none⟩,
     ⟨8, 8, .ro, 0, .any, .none⟩,
     ⟨2, 1, .ro, 0, .any, .none⟩,
     ⟨1, 1, .ro, 0, .any, .none⟩,
     ⟨0, 1, .ro, 0, .any, .none⟩]⟩,
  -- CTU_ISL_STATUS
  ⟨0x2120, [], false,
    [⟨16, 2, .ro, 0, .any, .none⟩,
     ⟨14, 2, .ro, 1, .any, .none⟩,
     ⟨12, 2, .ro, 1, .any, .none⟩,
     ⟨10, 2, .ro, 1, .any, .none⟩,
     ⟨8, 2, .ro, 1, .any, .none⟩,
     ⟨6, 2, .ro, 1, .any, .none⟩,
     ⟨4, 2, .ro, 1, .any, .none⟩,
     ⟨2, 2, .ro, 1, .any, .none⟩,
     ⟨0, 2, .ro, 1, .any, .none⟩]⟩,
  -- CTU_GATE_EN
  ⟨0x2140, [], false,
    [⟨8, 5, .rw, 0, .any, .fw⟩,
     ⟨0, 7, .rw, 79, .any, .fw⟩]⟩,
  -- CTU_GATE_STATUS
  ⟨0x2144, [], false,
    [⟨16, 13, .ro, 7936, .any, .none⟩,
     ⟨0, 13, .ro, 0, .any, .none⟩]⟩,
  -- CTU_CDC_STATUS
  ⟨0x2180, [], false,
    [⟨20, 12, .ro, 0, .any, .none⟩,
     ⟨8, 12, .ro, 0, .any, .none⟩,
     ⟨1, 1, .w1c, 0, .any, .fwHost⟩,
     ⟨0, 1, .w1c, 0, .any, .fwHost⟩]⟩,
  -- CTU_CDC_COUNT
  ⟨0x2184, [], false,
    [⟨16, 16, .ro, 0, .any, .none⟩,
     ⟨0, 16, .ro, 0, .any, .none⟩]⟩]

/-- Rows of the register tables of the Fwc part (Table 22-8 and the unit tables it names). -/
def regRowsFwc : List RegRow := [
  -- FWC_STATUS
  ⟨0x3000, [], false,
    [⟨15, 1, .ro, 1, .any, .none⟩,
     ⟨12, 3, .ro, 0, .any, .none⟩,
     ⟨9, 3, .ro, 6, .any, .none⟩,
     ⟨6, 3, .ro, 6, .any, .none⟩,
     ⟨3, 3, .ro, 6, .any, .none⟩,
     ⟨0, 3, .ro, 6, .any, .none⟩]⟩,
  -- FWC_IMAGE
  ⟨0x3004, [], false,
    [⟨0, 32, .ro, 0, .any, .none⟩]⟩,
  -- FWC_IMAGE_INFO
  ⟨0x3008, [], false,
    [⟨31, 1, .ro, 0, .any, .none⟩,
     ⟨30, 1, .ro, 0, .any, .none⟩,
     ⟨24, 6, .ro, 0, .any, .none⟩,
     ⟨22, 2, .ro, 0, .any, .none⟩,
     ⟨8, 8, .ro, 0, .any, .none⟩,
     ⟨0, 8, .ro, 0, .any, .none⟩]⟩,
  -- FWC_UPD_STATUS
  ⟨0x300C, [], false,
    [⟨29, 3, .ro, 0, .any, .none⟩,
     ⟨26, 3, .ro, 0, .any, .none⟩,
     ⟨16, 8, .ro, 0, .any, .none⟩,
     ⟨0, 16, .ro, 0, .any, .none⟩]⟩,
  -- FWC_UPD_LAST_FT
  ⟨0x3010, [], true,
    [⟨0, 64, .ro, 0, .any, .none⟩]⟩,
  -- FWC_CORE
  ⟨0x3020, [(0x4, 5)], false,
    [⟨24, 8, .ro, 0, .any, .none⟩,
     ⟨21, 3, .ro, 0, .any, .none⟩,
     ⟨18, 3, .ro, 0, .any, .none⟩,
     ⟨17, 1, .ro, 0, .any, .none⟩,
     ⟨0, 16, .ro, 0, .any, .none⟩]⟩,
  -- FWC_WDT
  ⟨0x3040, [(0x4, 5)], false,
    [⟨24, 8, .ro, 0, .any, .none⟩,
     ⟨0, 10, .rw, 0, (.u 1 1000), .fw⟩]⟩,
  -- FWC_GRANARY
  ⟨0x3060, [], false,
    [⟨24, 8, .ros, 0, .any, .none⟩,
     ⟨8, 3, .ros, 0, .any, .none⟩,
     ⟨3, 1, .ro, 0, .any, .none⟩,
     ⟨2, 1, .ros, 0, .any, .none⟩,
     ⟨1, 1, .ros, 0, .any, .none⟩,
     ⟨0, 1, .ros, 0, .any, .none⟩]⟩,
  -- FWC_GRANARY_CLR
  ⟨0x3064, [], false,
    [⟨1, 1, .w1c, 0, .any, .fwHost⟩,
     ⟨0, 1, .w1c, 0, .any, .fwHost⟩]⟩,
  -- FWC_BOOT_ADDR
  ⟨0x3080, [], true,
    [⟨0, 64, .rw, 0, .any, .romWait⟩]⟩,
  -- FWC_BOOT_LEN
  ⟨0x3088, [], false,
    [⟨0, 32, .rw, 0, (.u 288 524288), .romWait⟩]⟩,
  -- FWC_BOOT_CTRL
  ⟨0x308C, [], false,
    [⟨1, 3, .ro, 0, .any, .none⟩,
     ⟨0, 1, .w1s, 0, .any, .romWait⟩]⟩,
  -- FWC_DBG_CTRL
  ⟨0x3100, [], false,
    [⟨16, 1, .rw, 0, .any, .debug⟩,
     ⟨8, 5, .w1s, 0, .any, .debug⟩,
     ⟨0, 5, .w1s, 0, .any, .debug⟩]⟩,
  -- FWC_DBG_STATUS
  ⟨0x3104, [], false,
    [⟨9, 1, .ro, 0, .any, .none⟩,
     ⟨8, 1, .ro, 0, .any, .none⟩,
     ⟨0, 5, .ro, 0, .any, .none⟩]⟩,
  -- FWC_DBG_PAGE
  ⟨0x3108, [], false,
    [⟨0, 2, .rw, 0, .any, .debug⟩]⟩,
  -- FWC_BP
  ⟨0x3200, [(0x20, 5), (0x4, 4)], false,
    [⟨2, 30, .rw, 0, .any, .debug⟩,
     ⟨0, 2, .rw, 0, .any, .debug⟩]⟩,
  -- FWC_BP_CTRL
  ⟨0x3210, [(0x20, 5)], false,
    [⟨0, 4, .w1c, 0, .any, .debug⟩]⟩]

/-- Rows of the register tables of the Ea part (Table 22-8 and the unit tables it names). -/
def regRowsEa : List RegRow := [
  -- EA_CTRL
  ⟨0x4000, [], false,
    [⟨2, 1, .rw, 1, .any, .fwHost⟩,
     ⟨1, 1, .rw, 1, .any, .fwHost⟩,
     ⟨0, 1, .rw, 1, .any, .fwHost⟩]⟩,
  -- EA_STATUS
  ⟨0x4004, [], false,
    [⟨16, 11, .ro, 0, .any, .none⟩,
     ⟨5, 1, .w1c, 0, .any, .fwHost⟩,
     ⟨4, 1, .w1c, 0, .any, .fwHost⟩,
     ⟨2, 2, .ro, 0, .any, .none⟩,
     ⟨1, 1, .ro, 0, .any, .none⟩,
     ⟨0, 1, .ro, 0, .any, .none⟩]⟩,
  -- EA_SUBST_CFG
  ⟨0x4008, [], false,
    [⟨24, 8, .rw, 64, (.u 1 255), .fwHost⟩,
     ⟨0, 16, .rw, 1024, .any, .fwHost⟩]⟩,
  -- EA_LAST_TICK
  ⟨0x4010, [], true,
    [⟨0, 64, .ro, 0, .any, .none⟩]⟩,
  -- EA_SUBST_MAP
  ⟨0x4040, [(0x4, 32)], false,
    [⟨0, 32, .ro, 0, .any, .none⟩]⟩,
  -- EA_DOM_EST
  ⟨0x4100, [(0x4, 72)], false,
    [⟨0, 32, .ro, 0, .any, .none⟩]⟩,
  -- EA_DOM_INFO
  ⟨0x4440, [(0x4, 72)], false,
    [⟨16, 1, .ro, 0, .any, .none⟩,
     ⟨8, 8, .ro, 0, .any, .none⟩,
     ⟨6, 2, .ro, 3, .any, .none⟩,
     ⟨5, 1, .ro, 0, .any, .none⟩,
     ⟨4, 1, .ro, 0, .any, .none⟩,
     ⟨0, 4, .ro, 0, .any, .none⟩]⟩,
  -- EA_DOM_SCALE
  ⟨0x4600, [(0x4, 72)], false,
    [⟨0, 16, .ro, 16384, .any, .none⟩]⟩,
  -- EA_DOM_LOFF
  ⟨0x4800, [(0x4, 72)], false,
    [⟨0, 32, .ro, 0, .any, .none⟩]⟩,
  -- EA_DOM_EACC
  ⟨0x4A00, [(0x8, 72)], true,
    [⟨0, 64, .ro, 0, .any, .none⟩]⟩,
  -- EA_LEAK_FACTOR
  ⟨0x5000, [(0x4, 1032)], false,
    [⟨0, 16, .ro, 0, .any, .none⟩]⟩,
  -- EA_TILE_EST
  ⟨0x6400, [(0x4, 1024)], false,
    [⟨0, 32, .ro, 0, .any, .none⟩]⟩]

/-- Rows of the register tables of the Wce part (Table 22-8 and the unit tables it names). -/
def regRowsWce : List RegRow := [
  -- WCE_CTRL
  ⟨0x8000, [], false,
    [⟨2, 1, .w1s, 0, .any, .fw⟩,
     ⟨1, 1, .rw, 1, .any, .fw⟩,
     ⟨0, 1, .rw, 1, .any, .fw⟩]⟩,
  -- WCE_CFG
  ⟨0x8004, [], false,
    [⟨24, 8, .rw, 192, (.u 192 255), .fw⟩,
     ⟨16, 8, .rw, 16, (.u 4 255), .fw⟩,
     ⟨8, 4, .rw, 4, (.u 2 15), .fw⟩,
     ⟨4, 4, .rw, 6, (.u 4 10), .fw⟩,
     ⟨0, 4, .rw, 10, (.u 6 14), .fw⟩]⟩,
  -- WCE_PUB_CFG
  ⟨0x8008, [], false,
    [⟨0, 10, .rw, 64, (.u 32 512), .fw⟩]⟩,
  -- WCE_STATUS
  ⟨0x800C, [], false,
    [⟨24, 8, .ro, 0, .any, .none⟩,
     ⟨16, 8, .ro, 0, .any, .none⟩,
     ⟨8, 8, .ro, 0, .any, .none⟩,
     ⟨7, 1, .w1c, 0, .any, .fwHost⟩,
     ⟨6, 1, .w1c, 0, .any, .fwHost⟩,
     ⟨5, 1, .ro, 0, .any, .none⟩,
     ⟨4, 1, .ro, 0, .any, .none⟩,
     ⟨3, 1, .ro, 0, .any, .none⟩]⟩,
  -- WCE_LAST_EPOCH
  ⟨0x8010, [], true,
    [⟨0, 64, .ro, 0, .any, .none⟩]⟩,
  -- WCE_PUB_FT
  ⟨0x8018, [], true,
    [⟨0, 64, .ro, 0, .any, .none⟩]⟩,
  -- WCE_DOM_CONF
  ⟨0x8100, [(0x4, 72)], false,
    [⟨20, 1, .ro, 0, .any, .none⟩,
     ⟨17, 3, .ro, 2, .any, .none⟩,
     ⟨8, 9, .ro, 0, .any, .none⟩,
     ⟨0, 8, .ro, 0, .any, .none⟩]⟩,
  -- WCE_DOM_STAT
  ⟨0x8300, [(0x4, 72)], false,
    [⟨24, 8, .ro, 0, .any, .none⟩,
     ⟨16, 8, .ro, 0, .any, .none⟩,
     ⟨0, 16, .ro, 0, .any, .none⟩]⟩,
  -- WCE_DOM_CTRL
  ⟨0x8500, [(0x4, 72)], false,
    [⟨1, 1, .w1s, 0, .any, .fw⟩,
     ⟨0, 1, .rw, 0, .any, .fw⟩]⟩]

/-- Rows of the register tables of the Lg part (Table 22-8 and the unit tables it names). -/
def regRowsLg : List RegRow := [
  -- LG_CTRL
  ⟨0x9000, [], false,
    [⟨24, 8, .rw, 16, (.u 4 255), .fw⟩,
     ⟨16, 8, .rw, 64, (.u 8 255), .fw⟩,
     ⟨11, 5, .rw, 16, (.u 2 31), .fw⟩,
     ⟨6, 5, .rw, 8, (.u 1 30), .fw⟩,
     ⟨3, 3, .rw, 3, (.u 2 5), .fw⟩,
     ⟨0, 3, .rw, 2, (.u 1 7), .fw⟩]⟩,
  -- LG_STATUS
  ⟨0x9004, [], false,
    [⟨16, 16, .ro, 0, .any, .none⟩,
     ⟨13, 3, .ro, 0, .any, .none⟩,
     ⟨10, 3, .ro, 0, .any, .none⟩,
     ⟨9, 1, .ro, 0, .any, .none⟩,
     ⟨8, 1, .ros, 0, .any, .none⟩,
     ⟨7, 1, .w1c, 0, .any, .fwHost⟩,
     ⟨6, 1, .ro, 0, .any, .none⟩,
     ⟨5, 1, .ro, 0, .any, .none⟩]⟩,
  -- LG_PKG_P
  ⟨0x9008, [], false,
    [⟨0, 32, .ro, 0, .any, .none⟩]⟩,
  -- LG_PKG_I
  ⟨0x900C, [], false,
    [⟨0, 16, .ro, 0, .any, .none⟩]⟩,
  -- LG_STACK_CFG
  ⟨0x9020, [], false,
    [⟨24, 8, .rw, 8, (.u 1 255), .fw⟩,
     ⟨0, 16, .rw, 16000, (.u 5000 65535), .fw⟩]⟩,
  -- LG_L5_ADJ
  ⟨0x9028, [], false,
    [⟨0, 32, .rw, 0, (.s (-800000) 800000), .fw⟩]⟩,
  -- LG_L5_EXPIRY
  ⟨0x9030, [], true,
    [⟨10, 54, .rw, 0, .any, .fw⟩]⟩,
  -- LG_DOM_STATE
  ⟨0x9100, [(0x4, 72)], false,
    [⟨16, 16, .ro, 32768, .any, .none⟩,
     ⟨13, 3, .ro, 0, .any, .none⟩,
     ⟨10, 3, .ro, 0, .any, .none⟩,
     ⟨9, 1, .ro, 0, .any, .none⟩,
     ⟨8, 1, .ro, 0, .any, .none⟩]⟩,
  -- LG_MARGIN_CFG
  ⟨0x9400, [], false,
    [⟨24, 6, .rw, 16, (.u 0 63), .fw⟩,
     ⟨16, 8, .rw, 16, (.u 1 255), .fw⟩,
     ⟨8, 8, .rw, 32, (.u 1 255), .fw⟩,
     ⟨0, 8, .rw, 96, (.u 1 255), .fw⟩]⟩,
  -- LG_MARGIN_PEN
  ⟨0x9404, [], false,
    [⟨24, 5, .rw, 20, (.u 1 20), .fw⟩,
     ⟨16, 8, .rw, 20, (.u 15 40), .fw⟩,
     ⟨8, 8, .rw, 35, (.u 25 60), .fw⟩,
     ⟨0, 8, .rw, 60, (.u 40 100), .fw⟩]⟩,
  -- LG_MARGIN_LANT
  ⟨0x9408, [], false,
    [⟨16, 8, .rw, 32, (.u 8 255), .fw⟩,
     ⟨14, 1, .rw, 0, .any, .fw⟩,
     ⟨12, 2, .rw, 1, .any, .fw⟩,
     ⟨8, 4, .rw, 0, (.resv 9), .fw⟩,
     ⟨4, 4, .rw, 2, (.resv 9), .fw⟩,
     ⟨0, 4, .rw, 6, (.resv 9), .fw⟩]⟩,
  -- LG_PB_CFG
  ⟨0x940C, [], false,
    [⟨16, 5, .rw, 15, (.u 0 30), .fw⟩,
     ⟨8, 8, .rw, 8, .any, .fw⟩,
     ⟨4, 4, .rw, 4, (.u 1 15), .fw⟩,
     ⟨0, 4, .rw, 4, (.u 2 15), .fw⟩]⟩,
  -- LG_MARGIN_STATUS
  ⟨0x9410, [], false,
    [⟨16, 7, .ro, 0, .any, .none⟩,
     ⟨8, 7, .ro, 0, .any, .none⟩,
     ⟨2, 1, .w1c, 0, .any, .fwHost⟩,
     ⟨1, 1, .w1c, 0, .any, .fwHost⟩,
     ⟨0, 1, .w1c, 0, .any, .fwHost⟩]⟩,
  -- LG_MARGIN_MODE
  ⟨0x9500, [(0x4, 64)], false,
    [⟨24, 3, .ro, 0, .any, .none⟩,
     ⟨16, 8, .ro, 0, .any, .none⟩,
     ⟨12, 4, .ro, 0, .any, .none⟩,
     ⟨8, 4, .ro, 0, .any, .none⟩,
     ⟨6, 1, .ro, 0, .any, .none⟩,
     ⟨4, 2, .ro, 0, .any, .none⟩,
     ⟨2, 2, .ro, 0, .any, .none⟩,
     ⟨0, 2, .rw, 0, (.resv 2), .fw⟩]⟩,
  -- LG_MARGIN_FREQ
  ⟨0x9600, [(0x4, 64)], false,
    [⟨29, 1, .ro, 0, .any, .none⟩,
     ⟨28, 1, .ro, 0, .any, .none⟩,
     ⟨16, 12, .ro, 1000, .any, .none⟩,
     ⟨0, 12, .rw, 1000, (.u 800 2200), .fw⟩]⟩,
  -- LG_MARGIN_DOM
  ⟨0x9700, [(0x4, 64)], false,
    [⟨24, 5, .ro, 0, .any, .none⟩,
     ⟨16, 7, .ro, 60, .any, .none⟩,
     ⟨0, 10, .ro, 0, .any, .none⟩]⟩,
  -- LG_MARGIN_GLINT
  ⟨0x9800, [(0x4, 64)], false,
    [⟨26, 6, .ro, 0, .any, .none⟩,
     ⟨16, 10, .ro, 0, .any, .none⟩,
     ⟨0, 10, .ro, 0, .any, .none⟩]⟩,
  -- LG_AVG
  ⟨0x9010, [(0x4, 3)], false,
    [⟨0, 32, .ro, 0, .any, .none⟩]⟩,
  -- LG_LIM1
  ⟨0x9040, [(0x4, 3)], false,
    [⟨0, 16, .rw, 0, .any, .fw⟩]⟩,
  -- LG_LIM1_EFF
  ⟨0x904C, [], false,
    [⟨0, 16, .ro, 0, .any, .none⟩]⟩,
  -- LG_LIM
  ⟨0x9050, [(0x10, 3), (0x4, 3)], false,
    [⟨0, 32, .rw, 0, .any, .fw⟩]⟩,
  -- LG_LIM_EFF
  ⟨0x905C, [(0x10, 3)], false,
    [⟨0, 32, .ro, 0, .any, .none⟩]⟩,
  -- LG_TTHR0
  ⟨0x9080, [(0x10, 3)], false,
    [⟨16, 16, .rw, 0, (.s 1120 1760), .fw⟩,
     ⟨0, 16, .rw, 0, (.s 960 1760), .fw⟩]⟩,
  -- LG_TTHR0_EFF
  ⟨0x90B0, [], false,
    [⟨16, 16, .ro, 0, .any, .none⟩,
     ⟨0, 16, .ro, 0, .any, .none⟩]⟩,
  -- LG_TTHR1
  ⟨0x9084, [(0x10, 3)], false,
    [⟨16, 16, .rw, 0, (.s 1120 1520), .fw⟩,
     ⟨0, 16, .rw, 0, .any, .fw⟩]⟩,
  -- LG_TTHR1_EFF
  ⟨0x90B4, [], false,
    [⟨16, 16, .ro, 0, .any, .none⟩,
     ⟨0, 16, .ro, 0, .any, .none⟩]⟩,
  -- LG_TTHR2
  ⟨0x9088, [(0x10, 3)], false,
    [⟨0, 16, .rw, 0, (.s 1120 1520), .fw⟩]⟩,
  -- LG_TTHR2_EFF
  ⟨0x90B8, [], false,
    [⟨0, 16, .ro, 0, .any, .none⟩]⟩]

/-- Rows of the register tables of the Silo part (Table 22-8 and the unit tables it names). -/
def regRowsSilo : List RegRow := [
  -- SILO_CTRL
  ⟨0xA000, [], false,
    [⟨1, 1, .rw, 0, .any, .fw⟩,
     ⟨0, 1, .rw, 0, .any, .fw⟩]⟩,
  -- SILO_STATUS
  ⟨0xA004, [], false,
    [⟨24, 8, .ro, 0, .any, .none⟩,
     ⟨7, 1, .w1c, 0, .any, .fwHost⟩,
     ⟨6, 1, .w1c, 0, .any, .fwHost⟩,
     ⟨5, 1, .ro, 0, .any, .none⟩,
     ⟨4, 1, .ro, 0, .any, .none⟩,
     ⟨3, 1, .ro, 0, .any, .none⟩,
     ⟨0, 2, .ro, 2, .any, .none⟩]⟩,
  -- SILO_TABLE_ID
  ⟨0xA008, [], false,
    [⟨0, 32, .ro, 0, .any, .none⟩]⟩,
  -- SILO_DEFAULT_CLASS
  ⟨0xA00C, [], false,
    [⟨12, 20, .rw, 2048, (.u 1 1048575), .fw⟩,
     ⟨0, 8, .rw, 32, .any, .fw⟩]⟩,
  -- SILO_RESERVE
  ⟨0xA010, [], false,
    [⟨0, 17, .rw, 24000, (.u 0 100000), .fw⟩]⟩,
  -- SILO_POOL
  ⟨0xA014, [], false,
    [⟨0, 32, .rw, 0, .any, .fw⟩]⟩,
  -- SILO_POOL_EPOCH
  ⟨0xA018, [], false,
    [⟨0, 32, .rw, 0, .any, .fw⟩]⟩,
  -- SILO_LAST_EPOCH
  ⟨0xA020, [], true,
    [⟨0, 64, .ro, 0, .any, .none⟩]⟩,
  -- SILO_CTX_CFG
  ⟨0xA100, [(0x4, 64)], false,
    [⟨16, 2, .rw, 0, (.resv 2), .fw⟩,
     ⟨12, 1, .rw, 0, .any, .fw⟩,
     ⟨11, 1, .rw, 0, .any, .fw⟩,
     ⟨8, 3, .rw, 0, .any, .fw⟩,
     ⟨0, 8, .rw, 1, (.u 1 255), .fw⟩]⟩,
  -- SILO_CTX_MIN
  ⟨0xA200, [(0x4, 64)], false,
    [⟨0, 32, .rw, 0, .any, .fw⟩]⟩,
  -- SILO_CTX_MAX
  ⟨0xA300, [(0x4, 64)], false,
    [⟨0, 32, .rw, 0, .any, .fw⟩]⟩,
  -- SILO_CTX_SHARE
  ⟨0xA400, [(0x4, 64)], false,
    [⟨0, 32, .ro, 0, .any, .none⟩]⟩,
  -- SILO_CTX_STAT
  ⟨0xA500, [(0x4, 64)], false,
    [⟨21, 11, .ro, 0, .any, .none⟩,
     ⟨20, 1, .ro, 0, .any, .none⟩,
     ⟨0, 16, .ro, 0, .any, .none⟩]⟩,
  -- SILO_CTX_EACC
  ⟨0xA600, [(0x8, 64)], true,
    [⟨0, 64, .ro, 0, .any, .none⟩]⟩,
  -- SILO_TILE_CTX
  ⟨0xA800, [(0x4, 256)], false,
    [⟨24, 6, .rw, 0, .any, .fw⟩,
     ⟨16, 6, .rw, 0, .any, .fw⟩,
     ⟨8, 6, .rw, 0, .any, .fw⟩,
     ⟨0, 6, .rw, 0, .any, .fw⟩]⟩,
  -- SILO_SLICE_STATUS
  ⟨0xAC00, [(0x4, 4)], false,
    [⟨16, 16, .ro, 0, .any, .none⟩,
     ⟨8, 8, .ro, 0, .any, .none⟩,
     ⟨4, 1, .ro, 0, .any, .none⟩,
     ⟨3, 1, .ro, 0, .any, .none⟩]⟩,
  -- SILO_DOM_LIM
  ⟨0xAC40, [(0x4, 64)], false,
    [⟨16, 1, .rw, 0, .any, .fw⟩,
     ⟨8, 3, .ro, 0, .any, .none⟩,
     ⟨0, 8, .rw, 16, (.u 1 255), .fw⟩]⟩,
  -- SILO_DOM_STAT
  ⟨0xAD40, [(0x4, 64)], false,
    [⟨16, 16, .ro, 0, .any, .none⟩,
     ⟨8, 8, .ro, 0, .any, .none⟩,
     ⟨0, 8, .ro, 0, .any, .none⟩]⟩,
  -- SILO_CREDIT
  ⟨0xB000, [(0x100, 4), (0x4, 64)], false,
    [⟨0, 32, .ro, 0, .any, .none⟩]⟩]

/-- Rows of the register tables of the Tme part (Table 22-8 and the unit tables it names). -/
def regRowsTme : List RegRow := [
  -- TME_CTRL
  ⟨0xC000, [], false,
    [⟨2, 1, .rw, 1, .any, .fw⟩,
     ⟨1, 1, .w1s, 0, .any, .fw⟩,
     ⟨0, 1, .rw, 1, .any, .fw⟩]⟩,
  -- TME_STATUS
  ⟨0xC004, [], false,
    [⟨27, 5, .ro, 0, .any, .none⟩,
     ⟨16, 11, .ro, 0, .any, .none⟩,
     ⟨8, 8, .ro, 0, .any, .none⟩,
     ⟨7, 1, .w1c, 0, .any, .fwHost⟩,
     ⟨6, 1, .ro, 1, .any, .none⟩,
     ⟨5, 1, .ro, 0, .any, .none⟩,
     ⟨4, 1, .ro, 0, .any, .none⟩,
     ⟨3, 1, .ro, 0, .any, .none⟩,
     ⟨2, 1, .ro, 0, .any, .none⟩]⟩,
  -- TME_CFG
  ⟨0xC008, [], false,
    [⟨26, 6, .rw, 12, (.u 4 63), .fw⟩,
     ⟨24, 2, .rw, 2, .any, .fw⟩,
     ⟨16, 8, .rw, 4, (.u 0 40), .fw⟩,
     ⟨8, 8, .rw, 40, (.u 8 255), .fw⟩,
     ⟨0, 8, .rw, 12, (.u 0 40), .fw⟩]⟩,
  -- TME_AMB
  ⟨0xC00C, [], false,
    [⟨16, 16, .rw, 560, (.s 0 960), .fwMgmt⟩,
     ⟨8, 8, .rw, 10, (.u 1 255), .fwMgmt⟩,
     ⟨0, 1, .ro, 1, .any, .none⟩]⟩,
  -- TME_LAST_STEP
  ⟨0xC010, [], true,
    [⟨0, 64, .ro, 0, .any, .none⟩]⟩,
  -- TME_COOL
  ⟨0xC018, [], false,
    [⟨31, 1, .ro, 1, .any, .none⟩,
     ⟨30, 1, .ro, 0, .any, .none⟩,
     ⟨28, 2, .ro, 2, .any, .none⟩,
     ⟨24, 2, .rw, 0, (.resv 1), .fw⟩,
     ⟨0, 8, .ro, 100, .any, .none⟩]⟩,
  -- TME_DERATE
  ⟨0xC01C, [], false,
    [⟨0, 32, .rw, 0, .any, .fw⟩]⟩,
  -- TME_FC_TILE
  ⟨0xC020, [(0x4, 4)], false,
    [⟨16, 16, .rw, 32768, .any, .fw⟩,
     ⟨0, 10, .rw, 0, .any, .fw⟩]⟩,
  -- TME_FC_MARGIN
  ⟨0xC030, [(0x4, 4)], false,
    [⟨16, 16, .rw, 0, .any, .fw⟩,
     ⟨0, 2, .rw, 0, (.resv 2), .fw⟩]⟩,
  -- TME_FC_COMMIT
  ⟨0xC040, [], false,
    [⟨0, 1, .wo, 0, .any, .fw⟩]⟩,
  -- TME_MODEL_ID
  ⟨0xC044, [], false,
    [⟨0, 32, .ro, 0, .any, .none⟩]⟩,
  -- TME_SUSPECT
  ⟨0xC080, [(0x4, 32)], false,
    [⟨0, 32, .ro, 0, .any, .none⟩]⟩,
  -- TME_NODE_T
  ⟨0xC800, [(0x4, 1120)], false,
    [⟨0, 16, .ro, 0, .any, .none⟩]⟩,
  -- SSU_CFG
  ⟨0xE000, [], false,
    [⟨24, 8, .rw, 85, (.u 80 90), .fw⟩,
     ⟨16, 8, .rw, 0, .any, .fw⟩,
     ⟨8, 8, .rw, 25, (.u 1 25), .fw⟩]⟩,
  -- SSU_STATUS
  ⟨0xE004, [], false,
    [⟨0, 24, .ro, 0, .any, .none⟩]⟩,
  -- SSU_STK
  ⟨0xE100, [(0x4, 24)], false,
    [⟨16, 16, .ro, 32768, .any, .none⟩,
     ⟨8, 8, .ro, 255, .any, .none⟩,
     ⟨2, 1, .ro, 0, .any, .none⟩,
     ⟨1, 1, .ro, 0, .any, .none⟩,
     ⟨0, 1, .ro, 0, .any, .none⟩]⟩,
  -- SSU_STK_P
  ⟨0xE200, [(0x4, 24)], false,
    [⟨16, 8, .ro, 255, .any, .none⟩,
     ⟨0, 16, .ro, 0, .any, .none⟩]⟩]

/-- Rows of the register tables of the Lfc part (Table 22-8 and the unit tables it names). -/
def regRowsLfc : List RegRow := [
  -- LFC_LC
  ⟨0xF000, [], false,
    [⟨17, 3, .ro, 0, .any, .none⟩,
     ⟨16, 1, .ro, 0, .any, .none⟩,
     ⟨8, 4, .ro, 0, .any, .none⟩,
     ⟨3, 1, .ros, 0, .any, .none⟩,
     ⟨0, 3, .ro, 0, .any, .none⟩]⟩,
  -- LFC_KEYS
  ⟨0xF004, [], false,
    [⟨12, 4, .ro, 0, .any, .none⟩,
     ⟨8, 4, .ro, 0, .any, .none⟩,
     ⟨4, 4, .ro, 0, .any, .none⟩,
     ⟨0, 4, .ro, 0, .any, .none⟩]⟩,
  -- LFC_SVN
  ⟨0xF008, [], false,
    [⟨8, 4, .ro, 0, .any, .none⟩,
     ⟨0, 6, .ro, 0, .any, .none⟩]⟩,
  -- LFC_ACCESS
  ⟨0xF00C, [], false,
    [⟨0, 8, .ro, 0, .any, .none⟩]⟩,
  -- LFC_SERIAL
  ⟨0xF010, [], true,
    [⟨0, 64, .ro, 0, .any, .none⟩]⟩,
  -- LFC_AUTH_NONCE
  ⟨0xF020, [(0x4, 4)], false,
    [⟨0, 32, .ro, 0, .any, .none⟩]⟩,
  -- LFC_CEIL
  ⟨0xF100, [(0x4, 3)], false,
    [⟨0, 32, .ro, 0, .any, .none⟩]⟩,
  -- LFC_CEIL_STATUS
  ⟨0xF110, [], false,
    [⟨17, 1, .w1c, 0, .any, .fwHost⟩,
     ⟨16, 1, .ro, 0, .any, .none⟩,
     ⟨8, 3, .ro, 0, .any, .none⟩,
     ⟨4, 3, .ro, 0, .any, .none⟩,
     ⟨0, 3, .ro, 0, .any, .none⟩]⟩,
  -- LFC_KEY_HASH
  ⟨0xF800, [(0x30, 8), (0x4, 12)], false,
    [⟨0, 32, .ro, 0, .any, .none⟩]⟩,
  -- LFC_CEIL_LOG_VALUE
  ⟨0xF200, [(0x40, 3), (0x10, 4)], false,
    [⟨0, 32, .ro, 0, .any, .none⟩]⟩,
  -- LFC_CEIL_LOG_REQ
  ⟨0xF204, [(0x40, 3), (0x10, 4)], false,
    [⟨0, 16, .ro, 0, .any, .none⟩]⟩,
  -- LFC_CEIL_LOG_FT
  ⟨0xF208, [(0x40, 3), (0x10, 4)], true,
    [⟨0, 64, .ro, 0, .any, .none⟩]⟩,
  -- LFC_EVT_LOG_INFO
  ⟨0xF400, [(0x10, 40)], false,
    [⟨28, 4, .ro, 0, .any, .none⟩,
     ⟨20, 8, .ro, 0, .any, .none⟩]⟩,
  -- LFC_EVT_LOG_REQ
  ⟨0xF404, [(0x10, 40)], false,
    [⟨0, 16, .ro, 0, .any, .none⟩]⟩,
  -- LFC_EVT_LOG_FT
  ⟨0xF408, [(0x10, 40)], true,
    [⟨0, 64, .ro, 0, .any, .none⟩]⟩]

/-- Rows of the register tables of the Fc part (Table 22-8 and the unit tables it names). -/
def regRowsFc : List RegRow := [
  -- FC_STATUS
  ⟨0x10000, [], true,
    [⟨0, 26, .ro, 0, .any, .none⟩]⟩,
  -- FC_CTRL
  ⟨0x10008, [], false,
    [⟨16, 3, .rw, 2, (.u 0 4), .fw⟩,
     ⟨12, 3, .rw, 1, (.u 0 4), .fw⟩,
     ⟨8, 3, .rw, 1, (.u 0 4), .fw⟩,
     ⟨1, 1, .rw, 0, .any, .fw⟩,
     ⟨0, 1, .rw, 0, .any, .fw⟩]⟩,
  -- FC_SUMMARY
  ⟨0x1000C, [], false,
    [⟨24, 2, .ro, 0, .any, .none⟩,
     ⟨16, 8, .ro, 0, .any, .none⟩,
     ⟨3, 1, .ro, 0, .any, .none⟩,
     ⟨2, 1, .w1c, 0, .any, .fwMgmt⟩,
     ⟨1, 1, .ro, 0, .any, .none⟩]⟩,
  -- FC_FIRST
  ⟨0x10010, [], false,
    [⟨31, 1, .ros, 0, .any, .none⟩,
     ⟨28, 3, .ros, 0, .any, .none⟩,
     ⟨26, 2, .ros, 0, .any, .none⟩,
     ⟨25, 1, .ros, 0, .any, .none⟩,
     ⟨24, 1, .ros, 0, .any, .none⟩,
     ⟨18, 6, .ros, 0, .any, .none⟩,
     ⟨15, 3, .ros, 0, .any, .none⟩,
     ⟨0, 12, .ros, 0, .any, .none⟩]⟩,
  -- FC_FIRST_OVF
  ⟨0x10014, [], false,
    [⟨31, 1, .w1c, 0, .any, .fwHost⟩,
     ⟨16, 1, .ros, 0, .any, .none⟩,
     ⟨0, 16, .ros, 0, .any, .none⟩]⟩,
  -- FC_FIRST_FT
  ⟨0x10018, [], true,
    [⟨0, 64, .ros, 0, .any, .none⟩]⟩,
  -- FC_FORCE_INST
  ⟨0x10020, [], false,
    [⟨0, 12, .rw, 0, .any, .fw⟩]⟩,
  -- FC_INJ_CTRL
  ⟨0x10024, [], false,
    [⟨28, 4, .rw, 0, (.resv 9), .fw⟩,
     ⟨26, 2, .rw, 0, .any, .fw⟩,
     ⟨12, 12, .rw, 0, .any, .fw⟩,
     ⟨4, 8, .rw, 0, .any, .fw⟩,
     ⟨0, 1, .w1s, 0, .any, .fw⟩]⟩,
  -- FC_INJ_STATUS
  ⟨0x10028, [], false,
    [⟨28, 4, .ro, 0, .any, .none⟩,
     ⟨2, 2, .ro, 0, .any, .none⟩]⟩,
  -- FC_ISO_REQ
  ⟨0x10030, [], false,
    [⟨30, 2, .wo, 0, .any, .fw⟩,
     ⟨0, 12, .wo, 0, .any, .fw⟩]⟩,
  -- FC_ISO_STATUS
  ⟨0x10034, [], false,
    [⟨31, 1, .ro, 0, .any, .none⟩,
     ⟨29, 2, .ro, 0, .any, .none⟩,
     ⟨27, 2, .ro, 0, .any, .none⟩,
     ⟨23, 4, .ro, 0, .any, .none⟩,
     ⟨0, 12, .ro, 0, .any, .none⟩]⟩,
  -- FC_RISK
  ⟨0x10040, [], false,
    [⟨16, 16, .ro, 0, .any, .none⟩,
     ⟨0, 16, .ro, 0, .any, .none⟩]⟩,
  -- FC_RISK_CFG
  ⟨0x10044, [], false,
    [⟨16, 16, .rw, 2000, .any, .fw⟩,
     ⟨0, 16, .rw, 650, .any, .fw⟩]⟩,
  -- FC_ISO_TILE
  ⟨0x10100, [(0x4, 32)], false,
    [⟨0, 32, .ro, 0, .any, .none⟩]⟩,
  -- FC_ISO_DOM
  ⟨0x10180, [(0x4, 3)], false,
    [⟨0, 32, .ro, 0, .any, .none⟩]⟩,
  -- FC_GRP_STICKY
  ⟨0x10800, [(0x20, 26)], false,
    [⟨8, 8, .ros, 0, .any, .none⟩,
     ⟨0, 8, .ros, 0, .any, .none⟩]⟩,
  -- FC_GRP_CLR
  ⟨0x10804, [(0x20, 26)], false,
    [⟨0, 8, .w1c, 0, .any, .fwHost⟩]⟩,
  -- FC_GRP_SEV
  ⟨0x10808, [(0x20, 26)], false,
    [⟨28, 3, .rw, 0, (.resv 4), .fw⟩,
     ⟨24, 3, .rw, 0, (.resv 4), .fw⟩,
     ⟨20, 3, .rw, 0, (.resv 4), .fw⟩,
     ⟨16, 3, .rw, 0, (.resv 4), .fw⟩,
     ⟨12, 3, .rw, 0, (.resv 4), .fw⟩,
     ⟨8, 3, .rw, 0, (.resv 4), .fw⟩,
     ⟨4, 3, .rw, 0, (.resv 4), .fw⟩,
     ⟨0, 3, .rw, 0, (.resv 4), .fw⟩]⟩,
  -- FC_GRP_FORCE
  ⟨0x1080C, [(0x20, 26)], false,
    [⟨0, 8, .w1s, 0, .any, .fw⟩]⟩,
  -- FC_GRP_LAST
  ⟨0x10810, [(0x20, 26)], false,
    [⟨29, 3, .ros, 0, .any, .none⟩,
     ⟨17, 12, .ros, 0, .any, .none⟩,
     ⟨16, 1, .ros, 0, .any, .none⟩,
     ⟨0, 16, .ros, 0, .any, .none⟩]⟩,
  -- FC_GRP_LAST_FT
  ⟨0x10818, [(0x20, 26)], true,
    [⟨0, 64, .ros, 0, .any, .none⟩]⟩,
  -- FC_RISK_W0
  ⟨0x10048, [], false,
    [⟨16, 16, .rw, 2, .any, .fw⟩,
     ⟨0, 16, .rw, 1, .any, .fw⟩]⟩,
  -- FC_RISK_W1
  ⟨0x1004C, [], false,
    [⟨16, 16, .rw, 100, .any, .fw⟩,
     ⟨0, 16, .rw, 20, .any, .fw⟩]⟩,
  -- FC_RISK_W2
  ⟨0x10050, [], false,
    [⟨16, 16, .rw, 5, .any, .fw⟩,
     ⟨0, 16, .rw, 50, .any, .fw⟩]⟩]

/-- Rows of the register tables of the Hiu part (Table 22-8 and the unit tables it names). -/
def regRowsHiu : List RegRow := [
  -- HIU_LEND_GROUP
  ⟨0x12000, [], false,
    [⟨16, 16, .rw, 0, .any, .fw⟩,
     ⟨8, 4, .rw, 0, .any, .fw⟩,
     ⟨0, 5, .rw, 0, (.resv 16), .fw⟩]⟩,
  -- HIU_LEND_CAP
  ⟨0x12004, [], false,
    [⟨0, 32, .rw, 0, .any, .fw⟩]⟩,
  -- HIU_LEND_CFG
  ⟨0x12008, [], false,
    [⟨31, 1, .rw, 1, .any, .fw⟩,
     ⟨30, 1, .rw, 1, .any, .fw⟩,
     ⟨16, 8, .rw, 20, .any, .fw⟩,
     ⟨8, 8, .rw, 10, .any, .fw⟩,
     ⟨0, 8, .rw, 150, (.u 1 255), .fw⟩]⟩,
  -- HIU_LEND_STATUS
  ⟨0x1200C, [], false,
    [⟨24, 8, .ro, 0, .any, .none⟩,
     ⟨3, 1, .w1c, 0, .any, .fwHost⟩,
     ⟨2, 1, .ro, 0, .any, .none⟩,
     ⟨0, 2, .ro, 0, .any, .none⟩]⟩,
  -- HIU_LEND_LENT
  ⟨0x12010, [], false,
    [⟨0, 32, .ro, 0, .any, .none⟩]⟩,
  -- HIU_LEND_BORROWED
  ⟨0x12014, [], false,
    [⟨0, 32, .ro, 0, .any, .none⟩]⟩,
  -- HIU_LEND_RX
  ⟨0x12018, [], false,
    [⟨16, 16, .ro, 0, .any, .none⟩,
     ⟨0, 16, .ro, 0, .any, .none⟩]⟩,
  -- HIU_LEND_X
  ⟨0x12020, [], true,
    [⟨0, 64, .rw, 0, .any, .fw⟩]⟩,
  -- HIU_LEND_SHARE
  ⟨0x12040, [(0x4, 16)], false,
    [⟨0, 32, .rw, 0, .any, .fw⟩]⟩,
  -- HIU_LEND_NODE
  ⟨0x12080, [(0x4, 16)], false,
    [⟨0, 16, .rw, 0, .any, .fw⟩]⟩,
  -- HIU_CTRL
  ⟨0x14000, [], false,
    [⟨0, 1, .rwl, 0, .any, .host⟩]⟩,
  -- HIU_SESSION
  ⟨0x14004, [], false,
    [⟨30, 2, .rw, 0, .any, .fw⟩,
     ⟨16, 12, .rw, 0, .any, .fw⟩,
     ⟨8, 8, .rw, 0, .any, .fw⟩,
     ⟨0, 8, .rw, 0, .any, .fw⟩]⟩,
  -- HIU_REGION
  ⟨0x14008, [], true,
    [⟨26, 38, .rwl, 0, .any, .host⟩]⟩,
  -- HIU_HB
  ⟨0x14010, [], false,
    [⟨0, 32, .rw, 0, .any, .host⟩]⟩,
  -- HIU_HB_CFG
  ⟨0x14014, [], false,
    [⟨0, 14, .rw, 1000, (.u 100 10000), .fw⟩]⟩,
  -- HIU_HB_LAST
  ⟨0x14018, [], true,
    [⟨0, 64, .ro, 0, .any, .none⟩]⟩,
  -- HIU_PROFILE
  ⟨0x14020, [], false,
    [⟨16, 16, .rw, 768, .any, .fw⟩,
     ⟨0, 16, .ro, 0, .any, .none⟩]⟩,
  -- HIU_PROFILES
  ⟨0x14024, [(0x4, 4)], false,
    [⟨16, 16, .ro, 0, .any, .none⟩,
     ⟨0, 16, .ro, 0, .any, .none⟩]⟩,
  -- HIU_FEAT
  ⟨0x14040, [(0x4, 8)], false,
    [⟨0, 32, .rw, 0, .any, .fw⟩]⟩,
  -- HIU_FEAT_SUP
  ⟨0x14060, [(0x4, 8)], false,
    [⟨0, 32, .ro, 0, .any, .none⟩]⟩,
  -- HIU_RING_BASE
  ⟨0x14400, [(0x20, 134)], true,
    [⟨12, 14, .rw, 0, .any, .host⟩]⟩,
  -- HIU_RING_CFG
  ⟨0x14408, [(0x20, 134)], false,
    [⟨16, 5, .rw, 0, .any, .host⟩,
     ⟨15, 1, .rw, 0, .any, .host⟩,
     ⟨4, 5, .rw, 6, (.u 6 16), .host⟩,
     ⟨0, 1, .rw, 0, .any, .host⟩]⟩,
  -- HIU_RING_STATUS
  ⟨0x1440C, [(0x20, 134)], false,
    [⟨16, 16, .ro, 0, .any, .none⟩,
     ⟨2, 1, .w1c, 0, .any, .host⟩,
     ⟨1, 1, .w1c, 0, .any, .host⟩,
     ⟨0, 1, .ro, 0, .any, .none⟩]⟩,
  -- HIU_RING_PROD
  ⟨0x14410, [(0x20, 134)], false,
    [⟨0, 32, .ro, 0, .any, .none⟩]⟩,
  -- HIU_RING_CONS
  ⟨0x14414, [(0x20, 134)], false,
    [⟨0, 32, .ro, 0, .any, .none⟩]⟩,
  -- HIU_DB
  ⟨0x16000, [(0x4, 134)], false,
    [⟨0, 32, .wo, 0, .any, .host⟩]⟩,
  -- HIU_ACC_ERR
  ⟨0x17000, [], false,
    [⟨30, 2, .ro, 0, .any, .none⟩,
     ⟨28, 2, .ro, 0, .any, .none⟩,
     ⟨27, 1, .ro, 0, .any, .none⟩,
     ⟨0, 24, .ro, 0, .any, .none⟩]⟩,
  -- HIU_ACC_COUNT
  ⟨0x17004, [], false,
    [⟨0, 32, .ro, 0, .any, .none⟩]⟩,
  -- HIU_ACC_FT
  ⟨0x17008, [], true,
    [⟨0, 64, .ro, 0, .any, .none⟩]⟩]

/-- Rows of the register tables of the Ttu part (Table 22-8 and the unit tables it names). -/
def regRowsTtu : List RegRow := [
  -- TTU_CTRL
  ⟨0x18000, [], false,
    [⟨8, 4, .rw, 2, (.u 2 15), .fw⟩,
     ⟨1, 1, .rw, 0, .any, .fw⟩,
     ⟨0, 1, .rw, 1, .any, .fw⟩]⟩,
  -- TTU_STATUS
  ⟨0x18004, [], false,
    [⟨16, 16, .ro, 0, .any, .none⟩,
     ⟨0, 4, .ro, 0, .any, .none⟩]⟩,
  -- TTU_STAGE_LOST
  ⟨0x18008, [], false,
    [⟨0, 32, .ro, 0, .any, .none⟩]⟩,
  -- TTU_TELEM_MASK
  ⟨0x18010, [(0x8, 4)], true,
    [⟨0, 9, .rw, 0, .any, .fw⟩]⟩,
  -- TTU_TELEM_INT
  ⟨0x18030, [(0x4, 4)], false,
    [⟨0, 21, .rw, 1024, (.u 16 1048576), .fw⟩]⟩,
  -- TTU_STOP_FT
  ⟨0x18040, [], true,
    [⟨0, 64, .rw, 0, .any, .fw⟩]⟩,
  -- TTU_STOP_CTRL
  ⟨0x18048, [], false,
    [⟨0, 1, .w1s, 0, .any, .fw⟩]⟩,
  -- TTU_STOP_STATUS
  ⟨0x1804C, [], false,
    [⟨30, 2, .ro, 0, .any, .none⟩,
     ⟨29, 1, .ro, 0, .any, .none⟩,
     ⟨14, 15, .ro, 0, .any, .none⟩]⟩,
  -- TTU_LGLOG_POS
  ⟨0x18050, [], false,
    [⟨0, 32, .ro, 0, .any, .none⟩]⟩,
  -- TTU_DIG_MASK
  ⟨0x18080, [(0x4, 32)], false,
    [⟨0, 32, .rw, 0, .any, .fw⟩]⟩,
  -- BTC_STATUS
  ⟨0x1A000, [], false,
    [⟨2, 1, .ro, 0, .any, .none⟩,
     ⟨1, 1, .ro, 0, .any, .none⟩,
     ⟨0, 1, .ro, 0, .any, .none⟩]⟩,
  -- BTC_LBIST_STATUS
  ⟨0x1A004, [], false,
    [⟨0, 5, .ro, 0, .any, .none⟩]⟩,
  -- BTC_MBIST_STATUS
  ⟨0x1A008, [], false,
    [⟨0, 32, .ro, 0, .any, .none⟩]⟩,
  -- BTC_REPAIR
  ⟨0x1A00C, [], false,
    [⟨16, 16, .ro, 0, .any, .none⟩,
     ⟨8, 8, .ro, 0, .any, .none⟩,
     ⟨0, 8, .ro, 0, .any, .none⟩]⟩,
  -- BTC_POST_MISR
  ⟨0x1A010, [], true,
    [⟨0, 64, .ro, 0, .any, .none⟩]⟩,
  -- BTC_LBIST_MISR
  ⟨0x1A040, [(0x8, 5)], true,
    [⟨0, 64, .ro, 0, .any, .none⟩]⟩,
  -- BTC_ECC_CFG
  ⟨0x1A080, [], false,
    [⟨0, 1, .rw, 1, .any, .fw⟩]⟩,
  -- BTC_ECC_STATUS
  ⟨0x1A084, [], false,
    [⟨16, 16, .ro, 0, .any, .none⟩,
     ⟨8, 8, .ro, 0, .any, .none⟩,
     ⟨1, 1, .w1c, 0, .any, .fwHost⟩,
     ⟨0, 1, .w1c, 0, .any, .fwHost⟩]⟩,
  -- BTC_RETIRE_REQ
  ⟨0x1A500, [], false,
    [⟨20, 12, .wo, 0, .any, .fw⟩,
     ⟨0, 9, .wo, 0, .any, .fw⟩]⟩,
  -- BTC_RETIRE_STATUS
  ⟨0x1A504, [], false,
    [⟨31, 1, .ro, 0, .any, .none⟩,
     ⟨29, 2, .ro, 0, .any, .none⟩]⟩,
  -- BTC_RETIRE
  ⟨0x1A540, [(0x4, 18)], false,
    [⟨31, 1, .ro, 0, .any, .none⟩,
     ⟨0, 9, .ro, 0, .any, .none⟩]⟩,
  -- MPU_SMB_CFG
  ⟨0x1C000, [], false,
    [⟨7, 1, .rw, 1, .any, .fw⟩,
     ⟨0, 7, .ro, 0, .any, .none⟩]⟩,
  -- MPU_STATUS
  ⟨0x1C004, [], false,
    [⟨29, 3, .ro, 0, .any, .none⟩,
     ⟨16, 8, .ro, 0, .any, .none⟩,
     ⟨8, 8, .ro, 0, .any, .none⟩,
     ⟨2, 1, .ro, 0, .any, .none⟩,
     ⟨1, 1, .ro, 0, .any, .none⟩,
     ⟨0, 1, .w1c, 0, .any, .fwHost⟩]⟩,
  -- MPU_MCTP_EID
  ⟨0x1C008, [], false,
    [⟨0, 8, .ro, 0, .any, .none⟩]⟩,
  -- MPU_MCTP_VENDOR
  ⟨0x1C00C, [], false,
    [⟨0, 32, .ro, 0, .any, .none⟩]⟩,
  -- MPU_PMB_CFG
  ⟨0x1C010, [], false,
    [⟨8, 1, .rw, 0, .any, .fw⟩,
     ⟨0, 8, .rw, 0, .any, .fw⟩]⟩,
  -- MPU_CONV_CFG
  ⟨0x1C020, [(0x4, 8)], false,
    [⟨9, 1, .ro, 0, .any, .none⟩,
     ⟨8, 1, .ro, 0, .any, .none⟩,
     ⟨7, 1, .w1s, 0, .any, .fw⟩,
     ⟨0, 7, .rw, 0, .any, .fw⟩]⟩,
  -- MPU_CONV
  ⟨0x1C040, [(0x8, 8)], true,
    [⟨48, 16, .ro, 0, .any, .none⟩,
     ⟨32, 16, .ro, 0, .any, .none⟩,
     ⟨16, 16, .ro, 0, .any, .none⟩,
     ⟨0, 16, .ro, 0, .any, .none⟩]⟩,
  -- BTC_ECC_LOG_INFO
  ⟨0x1A100, [(0x10, 64)], false,
    [⟨20, 12, .ro, 0, .any, .none⟩,
     ⟨18, 2, .ro, 0, .any, .none⟩,
     ⟨16, 2, .ro, 0, .any, .none⟩,
     ⟨0, 8, .ro, 0, .any, .none⟩]⟩,
  -- BTC_ECC_LOG_ADDR
  ⟨0x1A104, [(0x10, 64)], false,
    [⟨0, 32, .ro, 0, .any, .none⟩]⟩,
  -- BTC_ECC_LOG_FT
  ⟨0x1A108, [(0x10, 64)], true,
    [⟨0, 64, .ro, 0, .any, .none⟩]⟩]

/-- Rows of the register tables of the Post part (Table 22-8 and the unit tables it names). -/
def regRowsPost : List RegRow := [
  -- POST_ID
  ⟨0x100000, [(0x1000, 1024)], false,
    [⟨18, 2, .ro, 0, .any, .none⟩,
     ⟨12, 6, .ro, 0, .any, .none⟩,
     ⟨0, 10, .ro, 0, .any, .none⟩]⟩,
  -- POST_CTRL
  ⟨0x100004, [(0x1000, 1024)], false,
    [⟨1, 1, .rw, 0, .any, .fwHost⟩,
     ⟨0, 1, .rw, 0, .any, .fwHost⟩]⟩,
  -- POST_STATUS
  ⟨0x100008, [(0x1000, 1024)], false,
    [⟨24, 8, .ro, 0, .any, .none⟩,
     ⟨16, 8, .ro, 0, .any, .none⟩,
     ⟨10, 1, .w1c, 0, .any, .fwHost⟩,
     ⟨9, 1, .w1c, 0, .any, .fwHost⟩,
     ⟨4, 5, .ro, 0, .any, .none⟩,
     ⟨3, 1, .ro, 0, .any, .none⟩,
     ⟨2, 1, .ro, 0, .any, .none⟩,
     ⟨1, 1, .ro, 0, .any, .none⟩,
     ⟨0, 1, .ro, 0, .any, .none⟩]⟩,
  -- POST_EACC
  ⟨0x100010, [(0x1000, 1024)], true,
    [⟨0, 64, .ro, 0, .any, .none⟩]⟩,
  -- POST_SHEAF_LAST
  ⟨0x100018, [(0x1000, 1024)], true,
    [⟨0, 64, .ro, 0, .any, .none⟩]⟩,
  -- POST_KV
  ⟨0x100020, [(0x1000, 1024)], false,
    [⟨0, 16, .ro, 16384, .any, .none⟩]⟩,
  -- POST_SNAP_SEQ
  ⟨0x100040, [(0x1000, 1024)], false,
    [⟨0, 32, .ro, 0, .any, .none⟩]⟩,
  -- POST_SNAP_CMD
  ⟨0x100044, [(0x1000, 1024)], false,
    [⟨16, 6, .ro, 0, .any, .none⟩,
     ⟨0, 16, .ro, 0, .any, .none⟩]⟩,
  -- POST_SNAP_FT
  ⟨0x100048, [(0x1000, 1024)], true,
    [⟨0, 64, .ro, 0, .any, .none⟩]⟩,
  -- POST_SNAP_EACC
  ⟨0x100050, [(0x1000, 1024)], true,
    [⟨0, 64, .ro, 0, .any, .none⟩]⟩,
  -- POST_CNT
  ⟨0x100100, [(0x1000, 1024), (0x8, 32)], true,
    [⟨0, 48, .ro, 0, .any, .none⟩]⟩,
  -- POST_SNAP_CNT
  ⟨0x100200, [(0x1000, 1024), (0x8, 32)], true,
    [⟨0, 48, .ro, 0, .any, .none⟩]⟩,
  -- POST_WBANK_A
  ⟨0x100300, [(0x1000, 1024), (0x4, 16)], false,
    [⟨16, 16, .ro, 0, .any, .none⟩,
     ⟨0, 16, .ro, 0, .any, .none⟩]⟩,
  -- POST_WBANK_A_CRC
  ⟨0x100340, [(0x1000, 1024)], false,
    [⟨0, 16, .ro, 0, .any, .none⟩]⟩,
  -- POST_WBANK_B
  ⟨0x100380, [(0x1000, 1024), (0x4, 16)], false,
    [⟨16, 16, .ro, 0, .any, .none⟩,
     ⟨0, 16, .ro, 0, .any, .none⟩]⟩,
  -- POST_WBANK_B_CRC
  ⟨0x1003C0, [(0x1000, 1024)], false,
    [⟨0, 16, .ro, 0, .any, .none⟩]⟩,
  -- POST_DIG_CFG
  ⟨0x100400, [(0x1000, 1024)], false,
    [⟨31, 1, .rwl, 0, .any, .fw⟩,
     ⟨16, 8, .rw, 1, .any, .fw⟩,
     ⟨15, 1, .rw, 1, .any, .fw⟩,
     ⟨12, 3, .rw, 1, (.resv 5), .fw⟩,
     ⟨10, 2, .rw, 1, .any, .fw⟩,
     ⟨9, 1, .rw, 1, .any, .fw⟩,
     ⟨6, 3, .rw, 4, .any, .fw⟩,
     ⟨5, 1, .rwl, 1, .any, .fw⟩,
     ⟨3, 2, .rwl, 1, .any, .fw⟩,
     ⟨0, 3, .rwl, 0, (.resv 5), .fw⟩]⟩,
  -- POST_DIG_SEQ
  ⟨0x100404, [(0x1000, 1024)], false,
    [⟨0, 32, .ro, 0, .any, .none⟩]⟩,
  -- POST_DIG_HIST
  ⟨0x100440, [(0x1000, 1024), (0x4, 16)], false,
    [⟨16, 16, .ro, 0, .any, .none⟩,
     ⟨0, 16, .ro, 0, .any, .none⟩]⟩,
  -- POST_LANTERN
  ⟨0x100500, [(0x1000, 1024)], false,
    [⟨16, 2, .ro, 0, .any, .none⟩,
     ⟨8, 4, .ro, 6, .any, .none⟩,
     ⟨6, 2, .ro, 1, .any, .none⟩,
     ⟨5, 1, .ro, 0, .any, .none⟩,
     ⟨4, 1, .ro, 0, .any, .none⟩]⟩,
  -- POST_LANTERN_CAL
  ⟨0x100504, [(0x1000, 1024)], false,
    [⟨16, 16, .ro, 0, .any, .none⟩,
     ⟨4, 6, .ro, 0, .any, .none⟩,
     ⟨3, 1, .w1c, 0, .any, .fw⟩,
     ⟨2, 1, .ro, 0, .any, .none⟩,
     ⟨1, 1, .ro, 0, .any, .none⟩,
     ⟨0, 1, .w1s, 0, .any, .fw⟩]⟩,
  -- POST_GLINT_TOTAL
  ⟨0x100508, [(0x1000, 1024)], false,
    [⟨0, 32, .ro, 0, .any, .none⟩]⟩,
  -- POST_VF_FLOOR
  ⟨0x100510, [(0x1000, 1024), (0x4, 4)], false,
    [⟨16, 16, .ro, 0, .any, .none⟩,
     ⟨0, 16, .ro, 0, .any, .none⟩]⟩,
  -- POST_TSENS
  ⟨0x100520, [(0x1000, 1024)], false,
    [⟨16, 16, .ro, 32768, .any, .none⟩,
     ⟨8, 8, .ro, 0, .any, .none⟩,
     ⟨3, 1, .ro, 0, .any, .none⟩,
     ⟨2, 1, .w1c, 0, .any, .fwHost⟩,
     ⟨1, 1, .ro, 0, .any, .none⟩]⟩]

/-- Rows of the register tables of the Vrc part (Table 22-8 and the unit tables it names). -/
def regRowsVrc : List RegRow := [
  -- VRC_DOM_CTRL
  ⟨0x500000, [(0x40, 72)], false,
    [⟨7, 1, .w1s, 0, .any, .fw⟩,
     ⟨6, 1, .w1s, 0, .any, .fw⟩,
     ⟨5, 1, .rw, 1, .any, .fw⟩,
     ⟨4, 1, .rw, 1, .any, .fw⟩,
     ⟨3, 1, .rw, 1, .any, .fw⟩,
     ⟨0, 1, .rw, 0, .any, .fw⟩]⟩,
  -- VRC_DOM_STATUS
  ⟨0x500004, [(0x40, 72)], false,
    [⟨29, 3, .ro, 0, .any, .none⟩,
     ⟨27, 2, .ro, 0, .any, .none⟩,
     ⟨24, 3, .ro, 0, .any, .none⟩,
     ⟨21, 3, .ro, 0, .any, .none⟩,
     ⟨20, 1, .ro, 0, .any, .none⟩,
     ⟨19, 1, .ro, 0, .any, .none⟩,
     ⟨18, 1, .ro, 0, .any, .none⟩,
     ⟨17, 1, .ro, 0, .any, .none⟩,
     ⟨5, 1, .w1c, 0, .any, .fwHost⟩,
     ⟨4, 1, .w1c, 0, .any, .fwHost⟩,
     ⟨3, 1, .w1c, 0, .any, .fwHost⟩,
     ⟨2, 1, .w1c, 0, .any, .fwHost⟩,
     ⟨1, 1, .w1c, 0, .any, .fwHost⟩]⟩,
  -- VRC_DOM_VID
  ⟨0x500008, [(0x40, 72)], false,
    [⟨16, 10, .ro, 0, .any, .none⟩,
     ⟨0, 10, .rw, 750, (.u 650 900), .fw⟩]⟩,
  -- VRC_DOM_SLEW
  ⟨0x50000C, [(0x40, 72)], false,
    [⟨16, 5, .rw, 5, (.u 1 20), .fw⟩,
     ⟨0, 5, .rw, 5, (.u 1 20), .fw⟩]⟩,
  -- VRC_DOM_CMD
  ⟨0x500010, [(0x40, 72)], false,
    [⟨16, 16, .ro, 0, .any, .none⟩,
     ⟨14, 2, .ro, 1, .any, .none⟩,
     ⟨12, 2, .ro, 0, .any, .none⟩,
     ⟨8, 4, .ro, 0, .any, .none⟩,
     ⟨0, 8, .ro, 0, .any, .none⟩]⟩,
  -- VRC_DOM_PHASE
  ⟨0x500014, [(0x40, 72)], false,
    [⟨24, 8, .rw, 120, (.u 16 160), .fw⟩,
     ⟨16, 8, .rw, 80, (.u 8 152), .fw⟩,
     ⟨0, 3, .rw, 1, (.u 1 6), .fw⟩]⟩,
  -- VRC_DOM_DE
  ⟨0x500018, [(0x40, 72)], false,
    [⟨8, 8, .rw, 8, .any, .fw⟩,
     ⟨0, 8, .rw, 32, .any, .fw⟩]⟩,
  -- VRC_DOM_PROT
  ⟨0x50001C, [(0x40, 72)], false,
    [⟨16, 11, .rw, 0, (.u 600 1200), .fw⟩,
     ⟨8, 8, .rw, 0, (.u 10 127), .fw⟩]⟩,
  -- VRC_DOM_COEF0
  ⟨0x500020, [(0x40, 72)], false,
    [⟨16, 16, .rw, 0, .any, .fw⟩,
     ⟨0, 16, .rw, 0, .any, .fw⟩]⟩,
  -- VRC_DOM_COEF1
  ⟨0x500024, [(0x40, 72)], false,
    [⟨16, 16, .rw, 0, .any, .fw⟩,
     ⟨8, 8, .rw, 0, .any, .fw⟩,
     ⟨0, 8, .rw, 0, .any, .fw⟩]⟩,
  -- VRC_DOM_COEF2
  ⟨0x500028, [(0x40, 72)], false,
    [⟨24, 8, .rw, 192, (.u 64 240), .fw⟩,
     ⟨16, 8, .rw, 8, (.u 2 64), .fw⟩,
     ⟨0, 16, .rw, 4096, (.u 256 32767), .fw⟩]⟩,
  -- VRC_DOM_COEF3
  ⟨0x50002C, [(0x40, 72)], false,
    [⟨16, 8, .rw, 0, .any, .fw⟩,
     ⟨8, 5, .rw, 0, (.u 2 31), .fw⟩,
     ⟨0, 5, .rw, 0, (.u 2 31), .fw⟩]⟩,
  -- VRC_DOM_MEAS
  ⟨0x500030, [(0x40, 72)], false,
    [⟨16, 16, .ro, 0, .any, .none⟩,
     ⟨0, 16, .ro, 0, .any, .none⟩]⟩,
  -- VRC_DOM_REF
  ⟨0x500034, [(0x40, 72)], false,
    [⟨16, 16, .ro, 0, .any, .none⟩,
     ⟨0, 16, .ro, 0, .any, .none⟩]⟩,
  -- VRC_PH_CTRL
  ⟨0x520000, [(0x10, 240)], false,
    [⟨1, 1, .w1s, 0, .any, .fw⟩,
     ⟨0, 1, .rw, 0, .any, .fw⟩]⟩,
  -- VRC_PH_STATUS
  ⟨0x520004, [(0x10, 240)], false,
    [⟨29, 3, .ro, 0, .any, .none⟩,
     ⟨24, 5, .ro, 0, .any, .none⟩,
     ⟨16, 1, .ro, 0, .any, .none⟩,
     ⟨0, 16, .ro, 0, .any, .none⟩]⟩,
  -- VRC_PH_COUNT
  ⟨0x520008, [(0x10, 240)], false,
    [⟨16, 16, .ro, 0, .any, .none⟩,
     ⟨0, 16, .ro, 0, .any, .none⟩]⟩,
  -- VRC_SLICE_SYNC
  ⟨0x5F0000, [(0x40, 4)], false,
    [⟨30, 2, .ro, 2, .any, .none⟩,
     ⟨16, 1, .rw, 1, .any, .fw⟩,
     ⟨0, 16, .ro, 0, .any, .none⟩]⟩,
  -- VRC_SLICE_SS
  ⟨0x5F0004, [(0x40, 4)], false,
    [⟨8, 8, .rw, 60, (.u 30 120), .fw⟩,
     ⟨0, 5, .rw, 0, (.u 0 20), .fw⟩]⟩,
  -- VRC_SLICE_STATUS
  ⟨0x5F0008, [(0x40, 4)], false,
    [⟨24, 8, .ro, 0, .any, .none⟩,
     ⟨8, 6, .ro, 0, .any, .none⟩,
     ⟨0, 5, .ro, 0, .any, .none⟩]⟩]

/-- The severities of Table 12-1, source 0 of group g in bits [2:0] (R540). -/
def defaultSev (g : Nat) : Nat :=
  match g with
  | 0 => 0x44
  | 1 => 0x112
  | 2 => 0x1110
  | 3 => 0x11
  | 4 => 0x1
  | 5 => 0x111
  | 6 => 0x1120
  | 7 => 0x11131
  | 8 => 0x0
  | 9 => 0x33111010
  | 10 => 0x10
  | 11 => 0x10021
  | 12 => 0x20
  | 13 => 0x112
  | 14 => 0x11
  | 15 => 0x1211
  | 16 => 0x10
  | 17 => 0x1110
  | 18 => 0x10
  | 19 => 0x0
  | 20 => 0x110
  | 21 => 0x100
  | 22 => 0x12
  | 23 => 0x24
  | 24 => 0x1
  | 25 => 0x1
  | _ => 0

/-- The cost class of a source (Table 12-1). -/
def sourceCost (g s : Nat) : Nat :=
  if g = 0 then 2 else if g = 23 ∧ s = 0 then 3
  else if (g = 7 ∧ s = 1) ∨ (g = 9 ∧ (s = 6 ∨ s = 7)) then 1 else 0

/-- The condition sources of Table 12-1; every other source is an event source (R498). -/
def isCondition (g s : Nat) : Bool :=
  [(0, 0), (0, 1), (1, 1), (1, 2), (1, 3), (1, 4), (2, 1), (2, 2), (2, 3), (3, 1), (6, 1), (6, 2), (7, 1), (9, 3), (9, 6), (10, 1), (11, 0), (11, 1), (12, 1), (13, 1), (17, 3), (18, 1), (20, 1), (23, 0), (23, 1), (25, 0)].contains (g, s)

/-- The sources of Table 12-1 exist. -/
def sourceExists (g s : Nat) : Bool :=
  decide (s < match g with
  | 0 => 2
  | 1 => 5
  | 2 => 4
  | 3 => 2
  | 4 => 2
  | 5 => 3
  | 6 => 4
  | 7 => 5
  | 8 => 1
  | 9 => 8
  | 10 => 2
  | 11 => 5
  | 12 => 2
  | 13 => 3
  | 14 => 2
  | 15 => 4
  | 16 => 3
  | 17 => 4
  | 18 => 2
  | 19 => 1
  | 20 => 3
  | 21 => 3
  | 22 => 2
  | 23 => 2
  | 24 => 2
  | 25 => 1
  | _ => 0)


/-- The rows of the part of the window an offset lies in. -/
def rowsFor (off : Nat) : List RegRow :=
  if off < 0x2000 then regRowsHub
  else if off < 0x3000 then regRowsCtu
  else if off < 0x4000 then regRowsFwc
  else if off < 0x8000 then regRowsEa
  else if off < 0x9000 then regRowsWce
  else if off < 0xA000 then regRowsLg
  else if off < 0xC000 then regRowsSilo
  else if off < 0xF000 then regRowsTme
  else if off < 0x10000 then regRowsLfc
  else if off < 0x12000 then regRowsFc
  else if off < 0x18000 then regRowsHiu
  else if off < 0x100000 then regRowsTtu
  else if off < 0x500000 then regRowsPost
  else if off < 0x600000 then regRowsVrc
  else []

/-- What is left of an offset after the indices of a register array. -/
def dimRest : List (Nat × Nat) → Nat → Option Nat
  | [], r => some r
  | (stride, count) :: ds, r => if r / stride < count then dimRest ds (r % stride) else none

/-- A register the offset falls in: its own offset and whether the high word is named. -/
structure RegHit where
  row : RegRow
  off : Nat
  high : Bool
  deriving DecidableEq, Repr

/-- Does a word offset fall in a row. -/
def RegRow.hit (r : RegRow) (off : Nat) : Option RegHit :=
  if off < r.base then none
  else match dimRest r.dims (off - r.base) with
    | some 0 => some ⟨r, off, false⟩
    | some 4 => if r.wide then some ⟨r, off - 4, true⟩ else none
    | _ => none

/-- The register at a word offset, if the window lists one there (R25, R824). -/
def findReg (off : Nat) : Option RegHit := (rowsFor off).findSome? (RegRow.hit · off)

/-- The reset value the fields of a row give. -/
def RegRow.reset (r : RegRow) : Nat := sumN (r.fields.map fun f => f.reset * 2 ^ f.lo)

/-- Registers whose reset value depends on their index (Tables 22-9 to 22-22). The ceilings stand at their
design values (R287), fused request slots at the tops those give, and the leakage factors, profiles and supported
features at the values of log entry 3, until the fuse shadow is loaded.
Marks: DESIGN CHOICE, log entry 3. -/
def specialReset (off : Nat) : Option Nat :=
  if off = 0x4 then some 0x00484004
  else if off = 0x8 then some 0x18F0
  else if 0xE100 ≤ off ∧ off < 0xE160 ∧ off % 4 = 0 then some 0x8000FF01
  else if off = 0x1C000 then some 0xCA
  else if 0x3020 ≤ off ∧ off < 0x3034 then
    some (if off = 0x3030 then 0x00E00000 else (off - 0x3020) / 4 * 0x200000)
  else if 0x3040 ≤ off ∧ off < 0x3054 then some (if off = 0x3050 then 100 else 10)
  else if off = 0x9010 ∨ off = 0x9050 ∨ off = 0x905C then some 1300000
  else if off = 0x9014 ∨ off = 0x9060 ∨ off = 0x906C then some 1050000
  else if off = 0x9018 ∨ off = 0x9070 ∨ off = 0x907C then some 950000
  else if off = 0x9040 ∨ off = 0x904C then some 14400
  else if off = 0x9044 ∨ off = 0x9048 then some 16000
  else if off = 0x9054 ∨ off = 0x9058 ∨ off = 0x9064 ∨ off = 0x9068 then some 1600000
  else if off = 0x9074 ∨ off = 0x9078 then some 1100000
  else if off = 0x9080 ∨ off = 0x90B0 then some 0x06400620
  else if off = 0x9084 ∨ off = 0x90B4 ∨ off = 0x9094 ∨ off = 0x90A4 then some 0x05F00730
  else if off = 0x9088 ∨ off = 0x90B8 ∨ off = 0x9098 ∨ off = 0x90A8 then some 0x05F0
  else if off = 0x9090 ∨ off = 0x90A0 then some 0x06E006E0
  else if off = 0xA100 then some 0
  else if 0x5000 ≤ off ∧ off < 0x6020 ∧ off % 4 = 0 then some 16384
  else if off = 0x14020 then some 0x03000300
  else if off = 0x14024 then some 0x0300
  else if off = 0x14060 then some 0xFFF
  else if off = 0xF100 then some 1600000
  else if off = 0xF104 then some 1000
  else if off = 0xF108 then some 1840
  else if 0x10800 ≤ off ∧ off < 0x10B40 ∧ (off - 0x10800) % 0x20 = 8 then
    some (defaultSev ((off - 0x10800) / 0x20))
  else if 0x500000 ≤ off ∧ off < 0x501200 then
    let d := (off - 0x500000) / 0x40
    let core := d < 64
    match (off - 0x500000) % 0x40 with
    | 0x04 => some (if core then 0x00600000 else 0x00C00000)
    | 0x1C => some (if core then 0x044C4B00 else 0x03E84B00)
    | 0x20 => some (if core then 0x01000010 else 0x00C0000C)
    | 0x24 => some (if core then 0x0400C010 else 0x0300C010)
    | 0x2C => some (0x0606 + 16 * (d % 16) * 0x10000)
    | _ => none
  else none

/-- What a register reads after POR (R27), fused fields apart. -/
def resetWord (off : Nat) : BitVec 64 :=
  BitVec.ofNat 64 (match specialReset off with
    | some v => v
    | none => match findReg off with
      | some h => if h.off = off then h.row.reset else 0
      | none => 0)

/-! ## Field names, one per field of the register tables; an array's indices are its arguments -/
namespace F

/-! ### Hub registers -/

def HUB_ID_block_code : Fld := ⟨0x0, 16, 16⟩
def HUB_ID_revision : Fld := ⟨0x0, 8, 8⟩
def HUB_ID_stepping : Fld := ⟨0x0, 0, 8⟩
def HUB_TOPOLOGY_num_domains : Fld := ⟨0x4, 16, 7⟩
def HUB_TOPOLOGY_num_tiles : Fld := ⟨0x4, 4, 11⟩
def HUB_TOPOLOGY_num_dies : Fld := ⟨0x4, 0, 3⟩
def HUB_TOPOLOGY_B_num_stacks : Fld := ⟨0x8, 8, 5⟩
def HUB_TOPOLOGY_B_num_phases : Fld := ⟨0x8, 0, 8⟩
def HUB_SB_STATUS_late_seen (d : Nat) : Fld := ⟨0x40 + 0x4 * d, 17, 1⟩
def HUB_SB_STATUS_degraded_seen (d : Nat) : Fld := ⟨0x40 + 0x4 * d, 16, 1⟩
def HUB_SB_STATUS_replay_epoch (d : Nat) : Fld := ⟨0x40 + 0x4 * d, 8, 8⟩
def HUB_SB_STATUS_lanes_up (d : Nat) : Fld := ⟨0x40 + 0x4 * d, 1, 4⟩
def HUB_SB_STATUS_link_up (d : Nat) : Fld := ⟨0x40 + 0x4 * d, 0, 1⟩
def HUB_RESET_CTRL_warm_req : Fld := ⟨0x100, 1, 1⟩
def HUB_RESET_CTRL_qv_soft : Fld := ⟨0x100, 0, 1⟩
def HUB_RESET_STATUS_warm_count : Fld := ⟨0x104, 24, 8⟩
def HUB_RESET_STATUS_soft_count : Fld := ⟨0x104, 16, 8⟩
def HUB_RESET_STATUS_last_kind : Fld := ⟨0x104, 0, 4⟩
def HUB_RESET_FT_ft : Fld := ⟨0x108, 0, 64⟩
def HUB_PSTATE_CTRL_target : Fld := ⟨0x110, 0, 2⟩
def HUB_PSTATE_CFG_arr_ret_mv : Fld := ⟨0x114, 16, 10⟩
def HUB_PSTATE_CFG_stagger : Fld := ⟨0x114, 0, 8⟩
def HUB_PSTATE_STATUS_state : Fld := ⟨0x118, 29, 3⟩
def HUB_PSTATE_STATUS_held : Fld := ⟨0x118, 28, 1⟩
def HUB_PSTATE_STATUS_last_exit_us : Fld := ⟨0x118, 0, 16⟩
def HUB_PSTATE_FT_ft : Fld := ⟨0x120, 0, 64⟩
def HUB_BOOT_STATUS_first_sheaf : Fld := ⟨0x128, 7, 1⟩
def HUB_BOOT_STATUS_core_up : Fld := ⟨0x128, 6, 1⟩
def HUB_BOOT_STATUS_array_up : Fld := ⟨0x128, 5, 1⟩
def HUB_BOOT_STATUS_uncore_up : Fld := ⟨0x128, 4, 1⟩
def HUB_BOOT_STATUS_time_locked : Fld := ⟨0x128, 3, 1⟩
def HUB_BOOT_STATUS_image_started : Fld := ⟨0x128, 2, 1⟩
def HUB_BOOT_STATUS_root_pll : Fld := ⟨0x128, 1, 1⟩
def HUB_BOOT_STATUS_fuses_loaded : Fld := ⟨0x128, 0, 1⟩
/-! ### Ctu registers -/

def CTU_FT_ft : Fld := ⟨0x2000, 0, 64⟩
def CTU_FT_STATUS_step_count : Fld := ⟨0x2008, 16, 8⟩
def CTU_FT_STATUS_markers_missed : Fld := ⟨0x2008, 8, 8⟩
def CTU_FT_STATUS_step_seen : Fld := ⟨0x2008, 5, 1⟩
def CTU_FT_STATUS_state_changed : Fld := ⟨0x2008, 4, 1⟩
def CTU_FT_STATUS_slewing : Fld := ⟨0x2008, 3, 1⟩
def CTU_FT_STATUS_state : Fld := ⟨0x2008, 0, 3⟩
def CTU_FT_OFFSET_offset_ns : Fld := ⟨0x200C, 0, 32⟩
def CTU_CLK_CTRL_q_windows : Fld := ⟨0x2100, 8, 8⟩
def CTU_CLK_CTRL_ret_req : Fld := ⟨0x2100, 3, 1⟩
def CTU_CLK_CTRL_auto_return : Fld := ⟨0x2100, 2, 1⟩
def CTU_CLK_CTRL_src1_en : Fld := ⟨0x2100, 1, 1⟩
def CTU_CLK_CTRL_src0_en : Fld := ⟨0x2100, 0, 1⟩
def CTU_CLK_STATUS_failovers : Fld := ⟨0x2104, 24, 8⟩
def CTU_CLK_STATUS_switches : Fld := ⟨0x2104, 16, 8⟩
def CTU_CLK_STATUS_failed_seen : Fld := ⟨0x2104, 8, 3⟩
def CTU_CLK_STATUS_qualified : Fld := ⟨0x2104, 5, 3⟩
def CTU_CLK_STATUS_switching : Fld := ⟨0x2104, 4, 1⟩
def CTU_CLK_STATUS_pll_lock : Fld := ⟨0x2104, 3, 1⟩
def CTU_CLK_STATUS_root_src : Fld := ⟨0x2104, 0, 2⟩
def CTU_RING_trim : Fld := ⟨0x2108, 24, 8⟩
def CTU_RING_ring_khz : Fld := ⟨0x2108, 0, 22⟩
def CTU_MON_dev (m : Nat) : Fld := ⟨0x2110 + 0x4 * m, 16, 16⟩
def CTU_MON_good_run (m : Nat) : Fld := ⟨0x2110 + 0x4 * m, 8, 8⟩
def CTU_MON_stopped (m : Nat) : Fld := ⟨0x2110 + 0x4 * m, 2, 1⟩
def CTU_MON_alt_checker (m : Nat) : Fld := ⟨0x2110 + 0x4 * m, 1, 1⟩
def CTU_MON_fail (m : Nat) : Fld := ⟨0x2110 + 0x4 * m, 0, 1⟩
def CTU_ISL_STATUS_deep : Fld := ⟨0x2120, 16, 2⟩
def CTU_ISL_STATUS_isl0 : Fld := ⟨0x2120, 0, 2⟩
def CTU_ISL_STATUS_isl1 : Fld := ⟨0x2120, 2, 2⟩
def CTU_ISL_STATUS_isl2 : Fld := ⟨0x2120, 4, 2⟩
def CTU_ISL_STATUS_isl3 : Fld := ⟨0x2120, 6, 2⟩
def CTU_ISL_STATUS_isl4 : Fld := ⟨0x2120, 8, 2⟩
def CTU_ISL_STATUS_isl5 : Fld := ⟨0x2120, 10, 2⟩
def CTU_ISL_STATUS_isl6 : Fld := ⟨0x2120, 12, 2⟩
def CTU_ISL_STATUS_isl7 : Fld := ⟨0x2120, 14, 2⟩
def CTU_GATE_EN_isl_en : Fld := ⟨0x2140, 8, 5⟩
def CTU_GATE_EN_leaf_en : Fld := ⟨0x2140, 0, 7⟩
def CTU_GATE_STATUS_in_use : Fld := ⟨0x2144, 16, 13⟩
def CTU_GATE_STATUS_closed : Fld := ⟨0x2144, 0, 13⟩
def CTU_CDC_STATUS_last_timeout : Fld := ⟨0x2180, 20, 12⟩
def CTU_CDC_STATUS_last_ovf : Fld := ⟨0x2180, 8, 12⟩
def CTU_CDC_STATUS_ovf_seen : Fld := ⟨0x2180, 1, 1⟩
def CTU_CDC_STATUS_timeout_seen : Fld := ⟨0x2180, 0, 1⟩
def CTU_CDC_COUNT_timeouts : Fld := ⟨0x2184, 16, 16⟩
def CTU_CDC_COUNT_overflows : Fld := ⟨0x2184, 0, 16⟩
/-! ### Fwc registers -/

def FWC_STATUS_rom_wait : Fld := ⟨0x3000, 15, 1⟩
def FWC_STATUS_state0 : Fld := ⟨0x3000, 0, 3⟩
def FWC_STATUS_state1 : Fld := ⟨0x3000, 3, 3⟩
def FWC_STATUS_state2 : Fld := ⟨0x3000, 6, 3⟩
def FWC_STATUS_state3 : Fld := ⟨0x3000, 9, 3⟩
def FWC_STATUS_state4 : Fld := ⟨0x3000, 12, 3⟩
def FWC_IMAGE_version : Fld := ⟨0x3004, 0, 32⟩
def FWC_IMAGE_INFO_region : Fld := ⟨0x3008, 31, 1⟩
def FWC_IMAGE_INFO_shadow_valid : Fld := ⟨0x3008, 30, 1⟩
def FWC_IMAGE_INFO_svn : Fld := ⟨0x3008, 24, 6⟩
def FWC_IMAGE_INFO_key_index : Fld := ⟨0x3008, 22, 2⟩
def FWC_IMAGE_INFO_refl_max : Fld := ⟨0x3008, 8, 8⟩
def FWC_IMAGE_INFO_refl_min : Fld := ⟨0x3008, 0, 8⟩
def FWC_UPD_STATUS_state : Fld := ⟨0x300C, 29, 3⟩
def FWC_UPD_STATUS_result : Fld := ⟨0x300C, 26, 3⟩
def FWC_UPD_STATUS_updates : Fld := ⟨0x300C, 16, 8⟩
def FWC_UPD_STATUS_pause_us : Fld := ⟨0x300C, 0, 16⟩
def FWC_UPD_LAST_FT_ft : Fld := ⟨0x3010, 0, 64⟩
def FWC_CORE_crashes (c : Nat) : Fld := ⟨0x3020 + 0x4 * c, 24, 8⟩
def FWC_CORE_bound_to (c : Nat) : Fld := ⟨0x3020 + 0x4 * c, 21, 3⟩
def FWC_CORE_last_cause (c : Nat) : Fld := ⟨0x3020 + 0x4 * c, 18, 3⟩
def FWC_CORE_held (c : Nat) : Fld := ⟨0x3020 + 0x4 * c, 17, 1⟩
def FWC_CORE_restart_us (c : Nat) : Fld := ⟨0x3020 + 0x4 * c, 0, 16⟩
def FWC_WDT_expiries (c : Nat) : Fld := ⟨0x3040 + 0x4 * c, 24, 8⟩
def FWC_WDT_timeout_ms (c : Nat) : Fld := ⟨0x3040 + 0x4 * c, 0, 10⟩
def FWC_GRANARY_dump_ovf : Fld := ⟨0x3060, 24, 8⟩
def FWC_GRANARY_last_core : Fld := ⟨0x3060, 8, 3⟩
def FWC_GRANARY_commit_valid : Fld := ⟨0x3060, 3, 1⟩
def FWC_GRANARY_newer : Fld := ⟨0x3060, 2, 1⟩
def FWC_GRANARY_slot1_valid : Fld := ⟨0x3060, 1, 1⟩
def FWC_GRANARY_slot0_valid : Fld := ⟨0x3060, 0, 1⟩
def FWC_GRANARY_CLR_slot1_clr : Fld := ⟨0x3064, 1, 1⟩
def FWC_GRANARY_CLR_slot0_clr : Fld := ⟨0x3064, 0, 1⟩
def FWC_BOOT_ADDR_addr : Fld := ⟨0x3080, 0, 64⟩
def FWC_BOOT_LEN_len : Fld := ⟨0x3088, 0, 32⟩
def FWC_BOOT_CTRL_result : Fld := ⟨0x308C, 1, 3⟩
def FWC_BOOT_CTRL_go : Fld := ⟨0x308C, 0, 1⟩
def FWC_DBG_CTRL_drain_on_break : Fld := ⟨0x3100, 16, 1⟩
def FWC_DBG_CTRL_resume : Fld := ⟨0x3100, 8, 5⟩
def FWC_DBG_CTRL_halt : Fld := ⟨0x3100, 0, 5⟩
def FWC_DBG_STATUS_drained : Fld := ⟨0x3104, 9, 1⟩
def FWC_DBG_STATUS_drain_active : Fld := ⟨0x3104, 8, 1⟩
def FWC_DBG_STATUS_halted : Fld := ⟨0x3104, 0, 5⟩
def FWC_DBG_PAGE_page : Fld := ⟨0x3108, 0, 2⟩
def FWC_BP_addr (c k : Nat) : Fld := ⟨0x3200 + 0x20 * c + 0x4 * k, 2, 30⟩
def FWC_BP_kind (c k : Nat) : Fld := ⟨0x3200 + 0x20 * c + 0x4 * k, 0, 2⟩
def FWC_BP_CTRL_hit (c : Nat) : Fld := ⟨0x3210 + 0x20 * c, 0, 4⟩
/-! ### Ea registers -/

def EA_CTRL_tile_est_en : Fld := ⟨0x4000, 2, 1⟩
def EA_CTRL_leak_en : Fld := ⟨0x4000, 1, 1⟩
def EA_CTRL_corr_en : Fld := ⟨0x4000, 0, 1⟩
def EA_STATUS_subst_tiles : Fld := ⟨0x4004, 16, 11⟩
def EA_STATUS_ecc_seen : Fld := ⟨0x4004, 5, 1⟩
def EA_STATUS_sat_seen : Fld := ⟨0x4004, 4, 1⟩
def EA_STATUS_data_src : Fld := ⟨0x4004, 2, 2⟩
def EA_STATUS_inactive_valid : Fld := ⟨0x4004, 1, 1⟩
def EA_STATUS_bank_active : Fld := ⟨0x4004, 0, 1⟩
def EA_SUBST_CFG_age_limit : Fld := ⟨0x4008, 24, 8⟩
def EA_SUBST_CFG_default_nj : Fld := ⟨0x4008, 0, 16⟩
def EA_LAST_TICK_ft : Fld := ⟨0x4010, 0, 64⟩
def EA_SUBST_MAP_map (k : Nat) : Fld := ⟨0x4040 + 0x4 * k, 0, 32⟩
def EA_DOM_EST_est_mw (d : Nat) : Fld := ⟨0x4100 + 0x4 * d, 0, 32⟩
def EA_DOM_INFO_resid_valid (d : Nat) : Fld := ⟨0x4440 + 0x4 * d, 16, 1⟩
def EA_DOM_INFO_resid_q (d : Nat) : Fld := ⟨0x4440 + 0x4 * d, 8, 8⟩
def EA_DOM_INFO_quality (d : Nat) : Fld := ⟨0x4440 + 0x4 * d, 6, 2⟩
def EA_DOM_INFO_net_sat (d : Nat) : Fld := ⟨0x4440 + 0x4 * d, 5, 1⟩
def EA_DOM_INFO_meas_subst (d : Nat) : Fld := ⟨0x4440 + 0x4 * d, 4, 1⟩
def EA_DOM_INFO_subst (d : Nat) : Fld := ⟨0x4440 + 0x4 * d, 0, 4⟩
def EA_DOM_SCALE_scale (d : Nat) : Fld := ⟨0x4600 + 0x4 * d, 0, 16⟩
def EA_DOM_LOFF_loff (d : Nat) : Fld := ⟨0x4800 + 0x4 * d, 0, 32⟩
def EA_DOM_EACC_eacc_nj (d : Nat) : Fld := ⟨0x4A00 + 0x8 * d, 0, 64⟩
def EA_LEAK_FACTOR_factor (i : Nat) : Fld := ⟨0x5000 + 0x4 * i, 0, 16⟩
def EA_TILE_EST_est_mw (t : Nat) : Fld := ⟨0x6400 + 0x4 * t, 0, 32⟩
/-! ### Wce registers -/

def WCE_CTRL_restore_all : Fld := ⟨0x8000, 2, 1⟩
def WCE_CTRL_pub_en : Fld := ⟨0x8000, 1, 1⟩
def WCE_CTRL_fit_en : Fld := ⟨0x8000, 0, 1⟩
def WCE_CFG_conf_enter : Fld := ⟨0x8004, 24, 8⟩
def WCE_CFG_rej_limit : Fld := ⟨0x8004, 16, 8⟩
def WCE_CFG_outlier_k : Fld := ⟨0x8004, 8, 4⟩
def WCE_CFG_step_shift : Fld := ⟨0x8004, 4, 4⟩
def WCE_CFG_forget_shift : Fld := ⟨0x8004, 0, 4⟩
def WCE_PUB_CFG_swap_delay : Fld := ⟨0x8008, 0, 10⟩
def WCE_STATUS_pub_lapsed : Fld := ⟨0x800C, 24, 8⟩
def WCE_STATUS_pub_skipped : Fld := ⟨0x800C, 16, 8⟩
def WCE_STATUS_pub_seq : Fld := ⟨0x800C, 8, 8⟩
def WCE_STATUS_nonfinite_seen : Fld := ⟨0x800C, 7, 1⟩
def WCE_STATUS_restart_seen : Fld := ⟨0x800C, 6, 1⟩
def WCE_STATUS_pub_pending : Fld := ⟨0x800C, 5, 1⟩
def WCE_STATUS_factory_valid : Fld := ⟨0x800C, 4, 1⟩
def WCE_STATUS_src : Fld := ⟨0x800C, 3, 1⟩
def WCE_LAST_EPOCH_ft : Fld := ⟨0x8010, 0, 64⟩
def WCE_PUB_FT_ft : Fld := ⟨0x8018, 0, 64⟩
def WCE_DOM_CONF_above_enter (d : Nat) : Fld := ⟨0x8100 + 0x4 * d, 20, 1⟩
def WCE_DOM_CONF_outcome (d : Nat) : Fld := ⟨0x8100 + 0x4 * d, 17, 3⟩
def WCE_DOM_CONF_n_acc (d : Nat) : Fld := ⟨0x8100 + 0x4 * d, 8, 9⟩
def WCE_DOM_CONF_conf (d : Nat) : Fld := ⟨0x8100 + 0x4 * d, 0, 8⟩
def WCE_DOM_STAT_bound_hits (d : Nat) : Fld := ⟨0x8300 + 0x4 * d, 24, 8⟩
def WCE_DOM_STAT_rej_run (d : Nat) : Fld := ⟨0x8300 + 0x4 * d, 16, 8⟩
def WCE_DOM_STAT_rms_q (d : Nat) : Fld := ⟨0x8300 + 0x4 * d, 0, 16⟩
def WCE_DOM_CTRL_restore (d : Nat) : Fld := ⟨0x8500 + 0x4 * d, 1, 1⟩
def WCE_DOM_CTRL_hold (d : Nat) : Fld := ⟨0x8500 + 0x4 * d, 0, 1⟩
/-! ### Lg registers -/

def LG_CTRL_hold_ticks : Fld := ⟨0x9000, 24, 8⟩
def LG_CTRL_esc_vid : Fld := ⟨0x9000, 16, 8⟩
def LG_CTRL_esc_str4 : Fld := ⟨0x9000, 11, 5⟩
def LG_CTRL_esc_str2 : Fld := ⟨0x9000, 6, 5⟩
def LG_CTRL_hot_level : Fld := ⟨0x9000, 3, 3⟩
def LG_CTRL_vid_step : Fld := ⟨0x9000, 0, 3⟩
def LG_STATUS_rho : Fld := ⟨0x9004, 16, 16⟩
def LG_STATUS_level : Fld := ⟨0x9004, 13, 3⟩
def LG_STATUS_dom : Fld := ⟨0x9004, 10, 3⟩
def LG_STATUS_hot : Fld := ⟨0x9004, 9, 1⟩
def LG_STATUS_trip : Fld := ⟨0x9004, 8, 1⟩
def LG_STATUS_unachievable_seen : Fld := ⟨0x9004, 7, 1⟩
def LG_STATUS_stack_fallback : Fld := ⟨0x9004, 6, 1⟩
def LG_STATUS_die_hold : Fld := ⟨0x9004, 5, 1⟩
def LG_PKG_P_p_mw : Fld := ⟨0x9008, 0, 32⟩
def LG_PKG_I_i_16 : Fld := ⟨0x900C, 0, 16⟩
def LG_STACK_CFG_age_limit : Fld := ⟨0x9020, 24, 8⟩
def LG_STACK_CFG_fallback_mw : Fld := ⟨0x9020, 0, 16⟩
def LG_L5_ADJ_adj_mw : Fld := ⟨0x9028, 0, 32⟩
def LG_L5_EXPIRY_tick : Fld := ⟨0x9030, 10, 54⟩
def LG_DOM_STATE_tmax (d : Nat) : Fld := ⟨0x9100 + 0x4 * d, 16, 16⟩
def LG_DOM_STATE_level (d : Nat) : Fld := ⟨0x9100 + 0x4 * d, 13, 3⟩
def LG_DOM_STATE_therm_level (d : Nat) : Fld := ⟨0x9100 + 0x4 * d, 10, 3⟩
def LG_DOM_STATE_no_sensor (d : Nat) : Fld := ⟨0x9100 + 0x4 * d, 9, 1⟩
def LG_DOM_STATE_trip_pending (d : Nat) : Fld := ⟨0x9100 + 0x4 * d, 8, 1⟩
def LG_MARGIN_CFG_conf_exit_margin : Fld := ⟨0x9400, 24, 6⟩
def LG_MARGIN_CFG_reentry_16 : Fld := ⟨0x9400, 16, 8⟩
def LG_MARGIN_CFG_glint_max_ant : Fld := ⟨0x9400, 8, 8⟩
def LG_MARGIN_CFG_glint_max_adp : Fld := ⟨0x9400, 0, 8⟩
def LG_MARGIN_PEN_fb_slew : Fld := ⟨0x9404, 24, 5⟩
def LG_MARGIN_PEN_pen_ant : Fld := ⟨0x9404, 16, 8⟩
def LG_MARGIN_PEN_pen_adp : Fld := ⟨0x9404, 8, 8⟩
def LG_MARGIN_PEN_pen_static : Fld := ⟨0x9404, 0, 8⟩
def LG_MARGIN_LANT_str_hold : Fld := ⟨0x9408, 16, 8⟩
def LG_MARGIN_LANT_div : Fld := ⟨0x9408, 14, 1⟩
def LG_MARGIN_LANT_deep_off : Fld := ⟨0x9408, 12, 2⟩
def LG_MARGIN_LANT_thr_ant : Fld := ⟨0x9408, 8, 4⟩
def LG_MARGIN_LANT_thr_adp : Fld := ⟨0x9408, 4, 4⟩
def LG_MARGIN_LANT_thr_static : Fld := ⟨0x9408, 0, 4⟩
def LG_PB_CFG_pb_max_mv : Fld := ⟨0x940C, 16, 5⟩
def LG_PB_CFG_pb_gain : Fld := ⟨0x940C, 8, 8⟩
def LG_PB_CFG_pb_hold : Fld := ⟨0x940C, 4, 4⟩
def LG_PB_CFG_pb_lead : Fld := ⟨0x940C, 0, 4⟩
def LG_MARGIN_STATUS_n_ant : Fld := ⟨0x9410, 16, 7⟩
def LG_MARGIN_STATUS_n_adp : Fld := ⟨0x9410, 8, 7⟩
def LG_MARGIN_STATUS_vid_short_seen : Fld := ⟨0x9410, 2, 1⟩
def LG_MARGIN_STATUS_fallback_seen : Fld := ⟨0x9410, 1, 1⟩
def LG_MARGIN_STATUS_cal_fail_seen : Fld := ⟨0x9410, 0, 1⟩
def LG_MARGIN_MODE_fb_run (n : Nat) : Fld := ⟨0x9500 + 0x4 * n, 24, 3⟩
def LG_MARGIN_MODE_hold_left (n : Nat) : Fld := ⟨0x9500 + 0x4 * n, 16, 8⟩
def LG_MARGIN_MODE_last_exit (n : Nat) : Fld := ⟨0x9500 + 0x4 * n, 12, 4⟩
def LG_MARGIN_MODE_blocked (n : Nat) : Fld := ⟨0x9500 + 0x4 * n, 8, 4⟩
def LG_MARGIN_MODE_held (n : Nat) : Fld := ⟨0x9500 + 0x4 * n, 6, 1⟩
def LG_MARGIN_MODE_trans (n : Nat) : Fld := ⟨0x9500 + 0x4 * n, 4, 2⟩
def LG_MARGIN_MODE_mode (n : Nat) : Fld := ⟨0x9500 + 0x4 * n, 2, 2⟩
def LG_MARGIN_MODE_req (n : Nat) : Fld := ⟨0x9500 + 0x4 * n, 0, 2⟩
def LG_MARGIN_FREQ_vid_short (n : Nat) : Fld := ⟨0x9600 + 0x4 * n, 29, 1⟩
def LG_MARGIN_FREQ_freq_clamped (n : Nat) : Fld := ⟨0x9600 + 0x4 * n, 28, 1⟩
def LG_MARGIN_FREQ_f_now (n : Nat) : Fld := ⟨0x9600 + 0x4 * n, 16, 12⟩
def LG_MARGIN_FREQ_f_req (n : Nat) : Fld := ⟨0x9600 + 0x4 * n, 0, 12⟩
def LG_MARGIN_DOM_boost_mv (n : Nat) : Fld := ⟨0x9700 + 0x4 * n, 24, 5⟩
def LG_MARGIN_DOM_pen_mv (n : Nat) : Fld := ⟨0x9700 + 0x4 * n, 16, 7⟩
def LG_MARGIN_DOM_floor_mv (n : Nat) : Fld := ⟨0x9700 + 0x4 * n, 0, 10⟩
def LG_MARGIN_GLINT_fallbacks (n : Nat) : Fld := ⟨0x9800 + 0x4 * n, 26, 6⟩
def LG_MARGIN_GLINT_last (n : Nat) : Fld := ⟨0x9800 + 0x4 * n, 16, 10⟩
def LG_MARGIN_GLINT_cur (n : Nat) : Fld := ⟨0x9800 + 0x4 * n, 0, 10⟩
def LG_AVG_avg_mw (n : Nat) : Fld := ⟨0x9010 + 0x4 * n, 0, 32⟩
def LG_LIM1_thr (m : Nat) : Fld := ⟨0x9040 + 0x4 * m, 0, 16⟩
def LG_LIM1_EFF_thr : Fld := ⟨0x904C, 0, 16⟩
def LG_LIM_thr (n m : Nat) : Fld := ⟨0x9050 + 0x10 * n + 0x4 * m, 0, 32⟩
def LG_LIM_EFF_thr (n : Nat) : Fld := ⟨0x905C + 0x10 * n, 0, 32⟩
def LG_TTHR0_control (m : Nat) : Fld := ⟨0x9080 + 0x10 * m, 16, 16⟩
def LG_TTHR0_throttle (m : Nat) : Fld := ⟨0x9080 + 0x10 * m, 0, 16⟩
def LG_TTHR0_EFF_control : Fld := ⟨0x90B0, 16, 16⟩
def LG_TTHR0_EFF_throttle : Fld := ⟨0x90B0, 0, 16⟩
def LG_TTHR1_bmem (m : Nat) : Fld := ⟨0x9084 + 0x10 * m, 16, 16⟩
def LG_TTHR1_trip (m : Nat) : Fld := ⟨0x9084 + 0x10 * m, 0, 16⟩
def LG_TTHR1_EFF_bmem : Fld := ⟨0x90B4, 16, 16⟩
def LG_TTHR1_EFF_trip : Fld := ⟨0x90B4, 0, 16⟩
def LG_TTHR2_stack (m : Nat) : Fld := ⟨0x9088 + 0x10 * m, 0, 16⟩
def LG_TTHR2_EFF_stack : Fld := ⟨0x90B8, 0, 16⟩
/-! ### Silo registers -/

def SILO_CTRL_ration_force : Fld := ⟨0xA000, 1, 1⟩
def SILO_CTRL_grant_stop : Fld := ⟨0xA000, 0, 1⟩
def SILO_STATUS_ration_epochs : Fld := ⟨0xA004, 24, 8⟩
def SILO_STATUS_overstep_seen : Fld := ⟨0xA004, 7, 1⟩
def SILO_STATUS_pool_late_seen : Fld := ⟨0xA004, 6, 1⟩
def SILO_STATUS_inactive_valid : Fld := ⟨0xA004, 5, 1⟩
def SILO_STATUS_table_bank : Fld := ⟨0xA004, 4, 1⟩
def SILO_STATUS_table_loaded : Fld := ⟨0xA004, 3, 1⟩
def SILO_STATUS_mode : Fld := ⟨0xA004, 0, 2⟩
def SILO_TABLE_ID_table_id : Fld := ⟨0xA008, 0, 32⟩
def SILO_DEFAULT_CLASS_energy_nj : Fld := ⟨0xA00C, 12, 20⟩
def SILO_DEFAULT_CLASS_step_16 : Fld := ⟨0xA00C, 0, 8⟩
def SILO_RESERVE_reserve_mw : Fld := ⟨0xA010, 0, 17⟩
def SILO_POOL_pool_mw : Fld := ⟨0xA014, 0, 32⟩
def SILO_POOL_EPOCH_epoch : Fld := ⟨0xA018, 0, 32⟩
def SILO_LAST_EPOCH_ft : Fld := ⟨0xA020, 0, 64⟩
def SILO_CTX_CFG_state (c : Nat) : Fld := ⟨0xA100 + 0x4 * c, 16, 2⟩
def SILO_CTX_CFG_needs_host (c : Nat) : Fld := ⟨0xA100 + 0x4 * c, 12, 1⟩
def SILO_CTX_CFG_state_securing (c : Nat) : Fld := ⟨0xA100 + 0x4 * c, 11, 1⟩
def SILO_CTX_CFG_priority (c : Nat) : Fld := ⟨0xA100 + 0x4 * c, 8, 3⟩
def SILO_CTX_CFG_weight (c : Nat) : Fld := ⟨0xA100 + 0x4 * c, 0, 8⟩
def SILO_CTX_MIN_min_mw (c : Nat) : Fld := ⟨0xA200 + 0x4 * c, 0, 32⟩
def SILO_CTX_MAX_max_mw (c : Nat) : Fld := ⟨0xA300 + 0x4 * c, 0, 32⟩
def SILO_CTX_SHARE_share_mw (c : Nat) : Fld := ⟨0xA400 + 0x4 * c, 0, 32⟩
def SILO_CTX_STAT_busy_tiles (c : Nat) : Fld := ⟨0xA500 + 0x4 * c, 21, 11⟩
def SILO_CTX_STAT_drained (c : Nat) : Fld := ⟨0xA500 + 0x4 * c, 20, 1⟩
def SILO_CTX_STAT_waits (c : Nat) : Fld := ⟨0xA500 + 0x4 * c, 0, 16⟩
def SILO_CTX_EACC_eacc_nj (c : Nat) : Fld := ⟨0xA600 + 0x8 * c, 0, 64⟩
def SILO_TILE_CTX_ctx0 (k : Nat) : Fld := ⟨0xA800 + 0x4 * k, 0, 6⟩
def SILO_TILE_CTX_ctx1 (k : Nat) : Fld := ⟨0xA800 + 0x4 * k, 8, 6⟩
def SILO_TILE_CTX_ctx2 (k : Nat) : Fld := ⟨0xA800 + 0x4 * k, 16, 6⟩
def SILO_TILE_CTX_ctx3 (k : Nat) : Fld := ⟨0xA800 + 0x4 * k, 24, 6⟩
def SILO_SLICE_STATUS_grants (d : Nat) : Fld := ⟨0xAC00 + 0x4 * d, 16, 16⟩
def SILO_SLICE_STATUS_refusals (d : Nat) : Fld := ⟨0xAC00 + 0x4 * d, 8, 8⟩
def SILO_SLICE_STATUS_ration (d : Nat) : Fld := ⟨0xAC00 + 0x4 * d, 4, 1⟩
def SILO_SLICE_STATUS_table_bank (d : Nat) : Fld := ⟨0xAC00 + 0x4 * d, 3, 1⟩
def SILO_DOM_LIM_preboost_en (n : Nat) : Fld := ⟨0xAC40 + 0x4 * n, 16, 1⟩
def SILO_DOM_LIM_level (n : Nat) : Fld := ⟨0xAC40 + 0x4 * n, 8, 3⟩
def SILO_DOM_LIM_step_max (n : Nat) : Fld := ⟨0xAC40 + 0x4 * n, 0, 8⟩
def SILO_DOM_STAT_grants (n : Nat) : Fld := ⟨0xAD40 + 0x4 * n, 16, 16⟩
def SILO_DOM_STAT_limit_waits (n : Nat) : Fld := ⟨0xAD40 + 0x4 * n, 8, 8⟩
def SILO_DOM_STAT_max_slip (n : Nat) : Fld := ⟨0xAD40 + 0x4 * n, 0, 8⟩
def SILO_CREDIT_credit_nj (d c : Nat) : Fld := ⟨0xB000 + 0x100 * d + 0x4 * c, 0, 32⟩
/-! ### Tme registers -/

def TME_CTRL_derate_en : Fld := ⟨0xC000, 2, 1⟩
def TME_CTRL_suspect_clr : Fld := ⟨0xC000, 1, 1⟩
def TME_CTRL_obs_en : Fld := ⟨0xC000, 0, 1⟩
def TME_STATUS_fc_missed : Fld := ⟨0xC004, 27, 5⟩
def TME_STATUS_n_suspect : Fld := ⟨0xC004, 16, 11⟩
def TME_STATUS_resid_max : Fld := ⟨0xC004, 8, 8⟩
def TME_STATUS_ecc_seen : Fld := ⟨0xC004, 7, 1⟩
def TME_STATUS_fc_stale : Fld := ⟨0xC004, 6, 1⟩
def TME_STATUS_warm : Fld := ⟨0xC004, 5, 1⟩
def TME_STATUS_inactive_valid : Fld := ⟨0xC004, 4, 1⟩
def TME_STATUS_bank_active : Fld := ⟨0xC004, 3, 1⟩
def TME_STATUS_data_src : Fld := ⟨0xC004, 2, 1⟩
def TME_CFG_sens_dev : Fld := ⟨0xC008, 26, 6⟩
def TME_CFG_cool_horizon : Fld := ⟨0xC008, 24, 2⟩
def TME_CFG_fc_margin : Fld := ⟨0xC008, 16, 8⟩
def TME_CFG_cool_span : Fld := ⟨0xC008, 8, 8⟩
def TME_CFG_cool_margin : Fld := ⟨0xC008, 0, 8⟩
def TME_AMB_t_amb : Fld := ⟨0xC00C, 16, 16⟩
def TME_AMB_amb_age : Fld := ⟨0xC00C, 8, 8⟩
def TME_AMB_amb_default : Fld := ⟨0xC00C, 0, 1⟩
def TME_LAST_STEP_ft : Fld := ⟨0xC010, 0, 64⟩
def TME_COOL_cool_req : Fld := ⟨0xC018, 31, 1⟩
def TME_COOL_below : Fld := ⟨0xC018, 30, 1⟩
def TME_COOL_source : Fld := ⟨0xC018, 28, 2⟩
def TME_COOL_override : Fld := ⟨0xC018, 24, 2⟩
def TME_COOL_demand_pct : Fld := ⟨0xC018, 0, 8⟩
def TME_DERATE_allow_mw : Fld := ⟨0xC01C, 0, 32⟩
def TME_FC_TILE_temp (h : Nat) : Fld := ⟨0xC020 + 0x4 * h, 16, 16⟩
def TME_FC_TILE_tile (h : Nat) : Fld := ⟨0xC020 + 0x4 * h, 0, 10⟩
def TME_FC_MARGIN_m (h : Nat) : Fld := ⟨0xC030 + 0x4 * h, 16, 16⟩
def TME_FC_MARGIN_cls (h : Nat) : Fld := ⟨0xC030 + 0x4 * h, 0, 2⟩
def TME_FC_COMMIT_fc_commit : Fld := ⟨0xC040, 0, 1⟩
def TME_MODEL_ID_model_id : Fld := ⟨0xC044, 0, 32⟩
def TME_SUSPECT_map (k : Nat) : Fld := ⟨0xC080 + 0x4 * k, 0, 32⟩
def TME_NODE_T_temp (i : Nat) : Fld := ⟨0xC800 + 0x4 * i, 0, 16⟩
def SSU_CFG_refresh_hi : Fld := ⟨0xE000, 24, 8⟩
def SSU_CFG_pwr_instr : Fld := ⟨0xE000, 16, 8⟩
def SSU_CFG_tck_mhz : Fld := ⟨0xE000, 8, 8⟩
def SSU_STATUS_stk_ok : Fld := ⟨0xE004, 0, 24⟩
def SSU_STK_temp (s : Nat) : Fld := ⟨0xE100 + 0x4 * s, 16, 16⟩
def SSU_STK_age (s : Nat) : Fld := ⟨0xE100 + 0x4 * s, 8, 8⟩
def SSU_STK_refhi (s : Nat) : Fld := ⟨0xE100 + 0x4 * s, 2, 1⟩
def SSU_STK_throt (s : Nat) : Fld := ⟨0xE100 + 0x4 * s, 1, 1⟩
def SSU_STK_present (s : Nat) : Fld := ⟨0xE100 + 0x4 * s, 0, 1⟩
def SSU_STK_P_p_age (s : Nat) : Fld := ⟨0xE200 + 0x4 * s, 16, 8⟩
def SSU_STK_P_p_mw (s : Nat) : Fld := ⟨0xE200 + 0x4 * s, 0, 16⟩
/-! ### Lfc registers -/

def LFC_LC_last_result : Fld := ⟨0xF000, 17, 3⟩
def LFC_LC_busy : Fld := ⟨0xF000, 16, 1⟩
def LFC_LC_transitions : Fld := ⟨0xF000, 8, 4⟩
def LFC_LC_parity_bad : Fld := ⟨0xF000, 3, 1⟩
def LFC_LC_state : Fld := ⟨0xF000, 0, 3⟩
def LFC_KEYS_bnd_revoked : Fld := ⟨0xF004, 12, 4⟩
def LFC_KEYS_bnd_prog : Fld := ⟨0xF004, 8, 4⟩
def LFC_KEYS_img_revoked : Fld := ⟨0xF004, 4, 4⟩
def LFC_KEYS_img_prog : Fld := ⟨0xF004, 0, 4⟩
def LFC_SVN_raises : Fld := ⟨0xF008, 8, 4⟩
def LFC_SVN_min_svn : Fld := ⟨0xF008, 0, 6⟩
def LFC_ACCESS_access : Fld := ⟨0xF00C, 0, 8⟩
def LFC_SERIAL_serial : Fld := ⟨0xF010, 0, 64⟩
def LFC_AUTH_NONCE_nonce (k : Nat) : Fld := ⟨0xF020 + 0x4 * k, 0, 32⟩
def LFC_CEIL_value (c : Nat) : Fld := ⟨0xF100 + 0x4 * c, 0, 32⟩
def LFC_CEIL_STATUS_fail_seen : Fld := ⟨0xF110, 17, 1⟩
def LFC_CEIL_STATUS_busy : Fld := ⟨0xF110, 16, 1⟩
def LFC_CEIL_STATUS_used_t : Fld := ⟨0xF110, 8, 3⟩
def LFC_CEIL_STATUS_used_v : Fld := ⟨0xF110, 4, 3⟩
def LFC_CEIL_STATUS_used_p : Fld := ⟨0xF110, 0, 3⟩
def LFC_KEY_HASH_hash (j w : Nat) : Fld := ⟨0xF800 + 0x30 * j + 0x4 * w, 0, 32⟩
def LFC_CEIL_LOG_VALUE_value (c s : Nat) : Fld := ⟨0xF200 + 0x40 * c + 0x10 * s, 0, 32⟩
def LFC_CEIL_LOG_REQ_requester (c s : Nat) : Fld := ⟨0xF204 + 0x40 * c + 0x10 * s, 0, 16⟩
def LFC_CEIL_LOG_FT_ft (c s : Nat) : Fld := ⟨0xF208 + 0x40 * c + 0x10 * s, 0, 64⟩
def LFC_EVT_LOG_INFO_kind (k : Nat) : Fld := ⟨0xF400 + 0x10 * k, 28, 4⟩
def LFC_EVT_LOG_INFO_value (k : Nat) : Fld := ⟨0xF400 + 0x10 * k, 20, 8⟩
def LFC_EVT_LOG_REQ_requester (k : Nat) : Fld := ⟨0xF404 + 0x10 * k, 0, 16⟩
def LFC_EVT_LOG_FT_ft (k : Nat) : Fld := ⟨0xF408 + 0x10 * k, 0, 64⟩
/-! ### Fc registers -/

def FC_STATUS_grp : Fld := ⟨0x10000, 0, 26⟩
def FC_CTRL_fault_n_min : Fld := ⟨0x10008, 16, 3⟩
def FC_CTRL_alert_min : Fld := ⟨0x10008, 12, 3⟩
def FC_CTRL_first_min : Fld := ⟨0x10008, 8, 3⟩
def FC_CTRL_log_to_ring : Fld := ⟨0x10008, 1, 1⟩
def FC_CTRL_force_dry : Fld := ⟨0x10008, 0, 1⟩
def FC_SUMMARY_max_cost : Fld := ⟨0x1000C, 24, 2⟩
def FC_SUMMARY_n_groups : Fld := ⟨0x1000C, 16, 8⟩
def FC_SUMMARY_fatal_stop : Fld := ⟨0x1000C, 3, 1⟩
def FC_SUMMARY_alert_pend : Fld := ⟨0x1000C, 2, 1⟩
def FC_SUMMARY_fault_n : Fld := ⟨0x1000C, 1, 1⟩
def FC_FIRST_valid : Fld := ⟨0x10010, 31, 1⟩
def FC_FIRST_severity : Fld := ⟨0x10010, 28, 3⟩
def FC_FIRST_cost : Fld := ⟨0x10010, 26, 2⟩
def FC_FIRST_injected : Fld := ⟨0x10010, 25, 1⟩
def FC_FIRST_forced : Fld := ⟨0x10010, 24, 1⟩
def FC_FIRST_group : Fld := ⟨0x10010, 18, 6⟩
def FC_FIRST_source : Fld := ⟨0x10010, 15, 3⟩
def FC_FIRST_instance : Fld := ⟨0x10010, 0, 12⟩
def FC_FIRST_OVF_first_clr : Fld := ⟨0x10014, 31, 1⟩
def FC_FIRST_OVF_ovf : Fld := ⟨0x10014, 16, 1⟩
def FC_FIRST_OVF_ovf_count : Fld := ⟨0x10014, 0, 16⟩
def FC_FIRST_FT_ft : Fld := ⟨0x10018, 0, 64⟩
def FC_FORCE_INST_instance : Fld := ⟨0x10020, 0, 12⟩
def FC_INJ_CTRL_det : Fld := ⟨0x10024, 28, 4⟩
def FC_INJ_CTRL_mode : Fld := ⟨0x10024, 26, 2⟩
def FC_INJ_CTRL_instance : Fld := ⟨0x10024, 12, 12⟩
def FC_INJ_CTRL_param : Fld := ⟨0x10024, 4, 8⟩
def FC_INJ_CTRL_go : Fld := ⟨0x10024, 0, 1⟩
def FC_INJ_STATUS_det : Fld := ⟨0x10028, 28, 4⟩
def FC_INJ_STATUS_result : Fld := ⟨0x10028, 2, 2⟩
def FC_ISO_REQ_op : Fld := ⟨0x10030, 30, 2⟩
def FC_ISO_REQ_target : Fld := ⟨0x10030, 0, 12⟩
def FC_ISO_STATUS_busy : Fld := ⟨0x10034, 31, 1⟩
def FC_ISO_STATUS_op : Fld := ⟨0x10034, 29, 2⟩
def FC_ISO_STATUS_result : Fld := ⟨0x10034, 27, 2⟩
def FC_ISO_STATUS_step : Fld := ⟨0x10034, 23, 4⟩
def FC_ISO_STATUS_target : Fld := ⟨0x10034, 0, 12⟩
def FC_RISK_interval : Fld := ⟨0x10040, 16, 16⟩
def FC_RISK_score : Fld := ⟨0x10040, 0, 16⟩
def FC_RISK_CFG_risk_thr : Fld := ⟨0x10044, 16, 16⟩
def FC_RISK_CFG_base : Fld := ⟨0x10044, 0, 16⟩
def FC_ISO_TILE_map (k : Nat) : Fld := ⟨0x10100 + 0x4 * k, 0, 32⟩
def FC_ISO_DOM_map (j : Nat) : Fld := ⟨0x10180 + 0x4 * j, 0, 32⟩
def FC_GRP_STICKY_forced (g : Nat) : Fld := ⟨0x10800 + 0x20 * g, 8, 8⟩
def FC_GRP_STICKY_sticky (g : Nat) : Fld := ⟨0x10800 + 0x20 * g, 0, 8⟩
def FC_GRP_CLR_clr (g : Nat) : Fld := ⟨0x10804 + 0x20 * g, 0, 8⟩
def FC_GRP_SEV_sev0 (g : Nat) : Fld := ⟨0x10808 + 0x20 * g, 0, 3⟩
def FC_GRP_SEV_sev1 (g : Nat) : Fld := ⟨0x10808 + 0x20 * g, 4, 3⟩
def FC_GRP_SEV_sev2 (g : Nat) : Fld := ⟨0x10808 + 0x20 * g, 8, 3⟩
def FC_GRP_SEV_sev3 (g : Nat) : Fld := ⟨0x10808 + 0x20 * g, 12, 3⟩
def FC_GRP_SEV_sev4 (g : Nat) : Fld := ⟨0x10808 + 0x20 * g, 16, 3⟩
def FC_GRP_SEV_sev5 (g : Nat) : Fld := ⟨0x10808 + 0x20 * g, 20, 3⟩
def FC_GRP_SEV_sev6 (g : Nat) : Fld := ⟨0x10808 + 0x20 * g, 24, 3⟩
def FC_GRP_SEV_sev7 (g : Nat) : Fld := ⟨0x10808 + 0x20 * g, 28, 3⟩
def FC_GRP_FORCE_force (g : Nat) : Fld := ⟨0x1080C + 0x20 * g, 0, 8⟩
def FC_GRP_LAST_source (g : Nat) : Fld := ⟨0x10810 + 0x20 * g, 29, 3⟩
def FC_GRP_LAST_instance (g : Nat) : Fld := ⟨0x10810 + 0x20 * g, 17, 12⟩
def FC_GRP_LAST_injected (g : Nat) : Fld := ⟨0x10810 + 0x20 * g, 16, 1⟩
def FC_GRP_LAST_count (g : Nat) : Fld := ⟨0x10810 + 0x20 * g, 0, 16⟩
def FC_GRP_LAST_FT_ft (g : Nat) : Fld := ⟨0x10818 + 0x20 * g, 0, 64⟩
def FC_RISK_W0_wc : Fld := ⟨0x10048, 16, 16⟩
def FC_RISK_W0_wg : Fld := ⟨0x10048, 0, 16⟩
def FC_RISK_W1_wf : Fld := ⟨0x1004C, 16, 16⟩
def FC_RISK_W1_wt : Fld := ⟨0x1004C, 0, 16⟩
def FC_RISK_W2_wr : Fld := ⟨0x10050, 16, 16⟩
def FC_RISK_W2_wm : Fld := ⟨0x10050, 0, 16⟩
/-! ### Hiu registers -/

def HIU_LEND_GROUP_group_id : Fld := ⟨0x12000, 16, 16⟩
def HIU_LEND_GROUP_self : Fld := ⟨0x12000, 8, 4⟩
def HIU_LEND_GROUP_n : Fld := ⟨0x12000, 0, 5⟩
def HIU_LEND_CAP_cap_mw : Fld := ⟨0x12004, 0, 32⟩
def HIU_LEND_CFG_lend_en : Fld := ⟨0x12008, 31, 1⟩
def HIU_LEND_CFG_borrow_en : Fld := ⟨0x12008, 30, 1⟩
def HIU_LEND_CFG_lend_margin : Fld := ⟨0x12008, 16, 8⟩
def HIU_LEND_CFG_want_margin : Fld := ⟨0x12008, 8, 8⟩
def HIU_LEND_CFG_want_step : Fld := ⟨0x12008, 0, 8⟩
def HIU_LEND_STATUS_leases : Fld := ⟨0x1200C, 24, 8⟩
def HIU_LEND_STATUS_cleared_seen : Fld := ⟨0x1200C, 3, 1⟩
def HIU_LEND_STATUS_pending : Fld := ⟨0x1200C, 2, 1⟩
def HIU_LEND_STATUS_role : Fld := ⟨0x1200C, 0, 2⟩
def HIU_LEND_LENT_lent_mw : Fld := ⟨0x12010, 0, 32⟩
def HIU_LEND_BORROWED_borrowed_mw : Fld := ⟨0x12014, 0, 32⟩
def HIU_LEND_RX_rx_discards : Fld := ⟨0x12018, 16, 16⟩
def HIU_LEND_RX_late_acks : Fld := ⟨0x12018, 0, 16⟩
def HIU_LEND_X_ft : Fld := ⟨0x12020, 0, 64⟩
def HIU_LEND_SHARE_share_mw (m : Nat) : Fld := ⟨0x12040 + 0x4 * m, 0, 32⟩
def HIU_LEND_NODE_node (m : Nat) : Fld := ⟨0x12080 + 0x4 * m, 0, 16⟩
def HIU_CTRL_region_lock : Fld := ⟨0x14000, 0, 1⟩
def HIU_SESSION_state : Fld := ⟨0x14004, 30, 2⟩
def HIU_SESSION_session : Fld := ⟨0x14004, 16, 12⟩
def HIU_SESSION_major : Fld := ⟨0x14004, 8, 8⟩
def HIU_SESSION_minor : Fld := ⟨0x14004, 0, 8⟩
def HIU_REGION_base : Fld := ⟨0x14008, 26, 38⟩
def HIU_HB_value : Fld := ⟨0x14010, 0, 32⟩
def HIU_HB_CFG_timeout_ms : Fld := ⟨0x14014, 0, 14⟩
def HIU_HB_LAST_ft : Fld := ⟨0x14018, 0, 64⟩
def HIU_PROFILE_selected : Fld := ⟨0x14020, 16, 16⟩
def HIU_PROFILE_native : Fld := ⟨0x14020, 0, 16⟩
def HIU_PROFILES_prof_hi (k : Nat) : Fld := ⟨0x14024 + 0x4 * k, 16, 16⟩
def HIU_PROFILES_prof_lo (k : Nat) : Fld := ⟨0x14024 + 0x4 * k, 0, 16⟩
def HIU_FEAT_committed (k : Nat) : Fld := ⟨0x14040 + 0x4 * k, 0, 32⟩
def HIU_FEAT_SUP_supported (k : Nat) : Fld := ⟨0x14060 + 0x4 * k, 0, 32⟩
def HIU_RING_BASE_off (r : Nat) : Fld := ⟨0x14400 + 0x20 * r, 12, 14⟩
def HIU_RING_CFG_irq_vec (r : Nat) : Fld := ⟨0x14408 + 0x20 * r, 16, 5⟩
def HIU_RING_CFG_irq_en (r : Nat) : Fld := ⟨0x14408 + 0x20 * r, 15, 1⟩
def HIU_RING_CFG_log2_size (r : Nat) : Fld := ⟨0x14408 + 0x20 * r, 4, 5⟩
def HIU_RING_CFG_en (r : Nat) : Fld := ⟨0x14408 + 0x20 * r, 0, 1⟩
def HIU_RING_STATUS_dropped (r : Nat) : Fld := ⟨0x1440C + 0x20 * r, 16, 16⟩
def HIU_RING_STATUS_dma_err_seen (r : Nat) : Fld := ⟨0x1440C + 0x20 * r, 2, 1⟩
def HIU_RING_STATUS_proto_err_seen (r : Nat) : Fld := ⟨0x1440C + 0x20 * r, 1, 1⟩
def HIU_RING_STATUS_stopped (r : Nat) : Fld := ⟨0x1440C + 0x20 * r, 0, 1⟩
def HIU_RING_PROD_pos (r : Nat) : Fld := ⟨0x14410 + 0x20 * r, 0, 32⟩
def HIU_RING_CONS_pos (r : Nat) : Fld := ⟨0x14414 + 0x20 * r, 0, 32⟩
def HIU_DB_pos (r : Nat) : Fld := ⟨0x16000 + 0x4 * r, 0, 32⟩
def HIU_ACC_ERR_port : Fld := ⟨0x17000, 30, 2⟩
def HIU_ACC_ERR_kind : Fld := ⟨0x17000, 28, 2⟩
def HIU_ACC_ERR_write : Fld := ⟨0x17000, 27, 1⟩
def HIU_ACC_ERR_offset : Fld := ⟨0x17000, 0, 24⟩
def HIU_ACC_COUNT_count : Fld := ⟨0x17004, 0, 32⟩
def HIU_ACC_FT_ft : Fld := ⟨0x17008, 0, 64⟩
/-! ### Ttu registers -/

def TTU_CTRL_dur_mult : Fld := ⟨0x18000, 8, 4⟩
def TTU_CTRL_dig_fwd : Fld := ⟨0x18000, 1, 1⟩
def TTU_CTRL_trace_fwd : Fld := ⟨0x18000, 0, 1⟩
def TTU_STATUS_trace_fill : Fld := ⟨0x18004, 16, 16⟩
def TTU_STATUS_telem_on : Fld := ⟨0x18004, 0, 4⟩
def TTU_STAGE_LOST_lost : Fld := ⟨0x18008, 0, 32⟩
def TTU_TELEM_MASK_mask (r : Nat) : Fld := ⟨0x18010 + 0x8 * r, 0, 9⟩
def TTU_TELEM_INT_interval (r : Nat) : Fld := ⟨0x18030 + 0x4 * r, 0, 21⟩
def TTU_STOP_FT_stop_ft : Fld := ⟨0x18040, 0, 64⟩
def TTU_STOP_CTRL_arm : Fld := ⟨0x18048, 0, 1⟩
def TTU_STOP_STATUS_state : Fld := ⟨0x1804C, 30, 2⟩
def TTU_STOP_STATUS_overflow : Fld := ⟨0x1804C, 29, 1⟩
def TTU_STOP_STATUS_records : Fld := ⟨0x1804C, 14, 15⟩
def TTU_LGLOG_POS_pos : Fld := ⟨0x18050, 0, 32⟩
def TTU_DIG_MASK_map (k : Nat) : Fld := ⟨0x18080 + 0x4 * k, 0, 32⟩
def BTC_STATUS_scan_en : Fld := ⟨0x1A000, 2, 1⟩
def BTC_STATUS_zeroised : Fld := ⟨0x1A000, 1, 1⟩
def BTC_STATUS_bist_done : Fld := ⟨0x1A000, 0, 1⟩
def BTC_LBIST_STATUS_lbist_fail : Fld := ⟨0x1A004, 0, 5⟩
def BTC_MBIST_STATUS_mbist_unrep : Fld := ⟨0x1A008, 0, 32⟩
def BTC_REPAIR_soft_rows : Fld := ⟨0x1A00C, 16, 16⟩
def BTC_REPAIR_soft_cols : Fld := ⟨0x1A00C, 8, 8⟩
def BTC_REPAIR_fuse_used : Fld := ⟨0x1A00C, 0, 8⟩
def BTC_POST_MISR_misr : Fld := ⟨0x1A010, 0, 64⟩
def BTC_LBIST_MISR_misr (k : Nat) : Fld := ⟨0x1A040 + 0x8 * k, 0, 64⟩
def BTC_ECC_CFG_scrub_en : Fld := ⟨0x1A080, 0, 1⟩
def BTC_ECC_STATUS_log_ovf : Fld := ⟨0x1A084, 16, 16⟩
def BTC_ECC_STATUS_log_pos : Fld := ⟨0x1A084, 8, 8⟩
def BTC_ECC_STATUS_ue_seen : Fld := ⟨0x1A084, 1, 1⟩
def BTC_ECC_STATUS_ce_seen : Fld := ⟨0x1A084, 0, 1⟩
def BTC_RETIRE_REQ_sram : Fld := ⟨0x1A500, 20, 12⟩
def BTC_RETIRE_REQ_page : Fld := ⟨0x1A500, 0, 9⟩
def BTC_RETIRE_STATUS_busy : Fld := ⟨0x1A504, 31, 1⟩
def BTC_RETIRE_STATUS_result : Fld := ⟨0x1A504, 29, 2⟩
def BTC_RETIRE_valid (k : Nat) : Fld := ⟨0x1A540 + 0x4 * k, 31, 1⟩
def BTC_RETIRE_page (k : Nat) : Fld := ⟨0x1A540 + 0x4 * k, 0, 9⟩
def MPU_SMB_CFG_ara_en : Fld := ⟨0x1C000, 7, 1⟩
def MPU_SMB_CFG_addr : Fld := ⟨0x1C000, 0, 7⟩
def MPU_STATUS_sessions : Fld := ⟨0x1C004, 29, 3⟩
def MPU_STATUS_pec_errors : Fld := ⟨0x1C004, 16, 8⟩
def MPU_STATUS_timeouts : Fld := ⟨0x1C004, 8, 8⟩
def MPU_STATUS_boot_busy : Fld := ⟨0x1C004, 2, 1⟩
def MPU_STATUS_eid_set : Fld := ⟨0x1C004, 1, 1⟩
def MPU_STATUS_arb_lost_seen : Fld := ⟨0x1C004, 0, 1⟩
def MPU_MCTP_EID_eid : Fld := ⟨0x1C008, 0, 8⟩
def MPU_MCTP_VENDOR_enterprise : Fld := ⟨0x1C00C, 0, 32⟩
def MPU_PMB_CFG_speed : Fld := ⟨0x1C010, 8, 1⟩
def MPU_PMB_CFG_conv_en : Fld := ⟨0x1C010, 0, 8⟩
def MPU_CONV_CFG_unsupported (k : Nat) : Fld := ⟨0x1C020 + 0x4 * k, 9, 1⟩
def MPU_CONV_CFG_no_reply (k : Nat) : Fld := ⟨0x1C020 + 0x4 * k, 8, 1⟩
def MPU_CONV_CFG_clr (k : Nat) : Fld := ⟨0x1C020 + 0x4 * k, 7, 1⟩
def MPU_CONV_CFG_addr (k : Nat) : Fld := ⟨0x1C020 + 0x4 * k, 0, 7⟩
def MPU_CONV_status_word (k : Nat) : Fld := ⟨0x1C040 + 0x8 * k, 48, 16⟩
def MPU_CONV_iout (k : Nat) : Fld := ⟨0x1C040 + 0x8 * k, 32, 16⟩
def MPU_CONV_vout (k : Nat) : Fld := ⟨0x1C040 + 0x8 * k, 16, 16⟩
def MPU_CONV_vin (k : Nat) : Fld := ⟨0x1C040 + 0x8 * k, 0, 16⟩
def BTC_ECC_LOG_INFO_sram (k : Nat) : Fld := ⟨0x1A100 + 0x10 * k, 20, 12⟩
def BTC_ECC_LOG_INFO_kind (k : Nat) : Fld := ⟨0x1A100 + 0x10 * k, 18, 2⟩
def BTC_ECC_LOG_INFO_by (k : Nat) : Fld := ⟨0x1A100 + 0x10 * k, 16, 2⟩
def BTC_ECC_LOG_INFO_syndrome (k : Nat) : Fld := ⟨0x1A100 + 0x10 * k, 0, 8⟩
def BTC_ECC_LOG_ADDR_addr (k : Nat) : Fld := ⟨0x1A104 + 0x10 * k, 0, 32⟩
def BTC_ECC_LOG_FT_ft (k : Nat) : Fld := ⟨0x1A108 + 0x10 * k, 0, 64⟩
/-! ### Post registers -/

def POST_ID_die (t : Nat) : Fld := ⟨0x100000 + 0x1000 * t, 18, 2⟩
def POST_ID_domain (t : Nat) : Fld := ⟨0x100000 + 0x1000 * t, 12, 6⟩
def POST_ID_tile (t : Nat) : Fld := ⟨0x100000 + 0x1000 * t, 0, 10⟩
def POST_CTRL_snap_hold (t : Nat) : Fld := ⟨0x100004 + 0x1000 * t, 1, 1⟩
def POST_CTRL_trace_en (t : Nat) : Fld := ⟨0x100004 + 0x1000 * t, 0, 1⟩
def POST_STATUS_sheaf_discards (t : Nat) : Fld := ⟨0x100008 + 0x1000 * t, 24, 8⟩
def POST_STATUS_snap_missed (t : Nat) : Fld := ⟨0x100008 + 0x1000 * t, 16, 8⟩
def POST_STATUS_merge_seen (t : Nat) : Fld := ⟨0x100008 + 0x1000 * t, 10, 1⟩
def POST_STATUS_crc_err_seen (t : Nat) : Fld := ⟨0x100008 + 0x1000 * t, 9, 1⟩
def POST_STATUS_valid_sheafs (t : Nat) : Fld := ⟨0x100008 + 0x1000 * t, 4, 5⟩
def POST_STATUS_bank_stale (t : Nat) : Fld := ⟨0x100008 + 0x1000 * t, 3, 1⟩
def POST_STATUS_b_valid (t : Nat) : Fld := ⟨0x100008 + 0x1000 * t, 2, 1⟩
def POST_STATUS_a_valid (t : Nat) : Fld := ⟨0x100008 + 0x1000 * t, 1, 1⟩
def POST_STATUS_bank_active (t : Nat) : Fld := ⟨0x100008 + 0x1000 * t, 0, 1⟩
def POST_EACC_eacc_nj (t : Nat) : Fld := ⟨0x100010 + 0x1000 * t, 0, 64⟩
def POST_SHEAF_LAST_sheaf (t : Nat) : Fld := ⟨0x100018 + 0x1000 * t, 0, 64⟩
def POST_KV_kv (t : Nat) : Fld := ⟨0x100020 + 0x1000 * t, 0, 16⟩
def POST_SNAP_SEQ_seq (t : Nat) : Fld := ⟨0x100040 + 0x1000 * t, 0, 32⟩
def POST_SNAP_CMD_ctx (t : Nat) : Fld := ⟨0x100044 + 0x1000 * t, 16, 6⟩
def POST_SNAP_CMD_tag (t : Nat) : Fld := ⟨0x100044 + 0x1000 * t, 0, 16⟩
def POST_SNAP_FT_ft (t : Nat) : Fld := ⟨0x100048 + 0x1000 * t, 0, 64⟩
def POST_SNAP_EACC_eacc_nj (t : Nat) : Fld := ⟨0x100050 + 0x1000 * t, 0, 64⟩
def POST_CNT_count (t i : Nat) : Fld := ⟨0x100100 + 0x1000 * t + 0x8 * i, 0, 48⟩
def POST_SNAP_CNT_count (t i : Nat) : Fld := ⟨0x100200 + 0x1000 * t + 0x8 * i, 0, 48⟩
def POST_WBANK_A_w0 (t k : Nat) : Fld := ⟨0x100300 + 0x1000 * t + 0x4 * k, 0, 16⟩
def POST_WBANK_A_w1 (t k : Nat) : Fld := ⟨0x100300 + 0x1000 * t + 0x4 * k, 16, 16⟩
def POST_WBANK_A_CRC_crc (t : Nat) : Fld := ⟨0x100340 + 0x1000 * t, 0, 16⟩
def POST_WBANK_B_w0 (t k : Nat) : Fld := ⟨0x100380 + 0x1000 * t + 0x4 * k, 0, 16⟩
def POST_WBANK_B_w1 (t k : Nat) : Fld := ⟨0x100380 + 0x1000 * t + 0x4 * k, 16, 16⟩
def POST_WBANK_B_CRC_crc (t : Nat) : Fld := ⟨0x1003C0 + 0x1000 * t, 0, 16⟩
def POST_DIG_CFG_dig0_lock (t : Nat) : Fld := ⟨0x100400 + 0x1000 * t, 31, 1⟩
def POST_DIG_CFG_window (t : Nat) : Fld := ⟨0x100400 + 0x1000 * t, 16, 8⟩
def POST_DIG_CFG_ch1_en (t : Nat) : Fld := ⟨0x100400 + 0x1000 * t, 15, 1⟩
def POST_DIG_CFG_ch1_stream (t : Nat) : Fld := ⟨0x100400 + 0x1000 * t, 12, 3⟩
def POST_DIG_CFG_ch1_elem_width (t : Nat) : Fld := ⟨0x100400 + 0x1000 * t, 10, 2⟩
def POST_DIG_CFG_ch1_float_zero (t : Nat) : Fld := ⟨0x100400 + 0x1000 * t, 9, 1⟩
def POST_DIG_CFG_ch1_sample_shift (t : Nat) : Fld := ⟨0x100400 + 0x1000 * t, 6, 3⟩
def POST_DIG_CFG_ch0_float_zero (t : Nat) : Fld := ⟨0x100400 + 0x1000 * t, 5, 1⟩
def POST_DIG_CFG_ch0_elem_width (t : Nat) : Fld := ⟨0x100400 + 0x1000 * t, 3, 2⟩
def POST_DIG_CFG_ch0_stream (t : Nat) : Fld := ⟨0x100400 + 0x1000 * t, 0, 3⟩
def POST_DIG_SEQ_seq (t : Nat) : Fld := ⟨0x100404 + 0x1000 * t, 0, 32⟩
def POST_DIG_HIST_b0 (t k : Nat) : Fld := ⟨0x100440 + 0x1000 * t + 0x4 * k, 0, 16⟩
def POST_DIG_HIST_b1 (t k : Nat) : Fld := ⟨0x100440 + 0x1000 * t + 0x4 * k, 16, 16⟩
def POST_LANTERN_stretch (t : Nat) : Fld := ⟨0x100500 + 0x1000 * t, 16, 2⟩
def POST_LANTERN_thr (t : Nat) : Fld := ⟨0x100500 + 0x1000 * t, 8, 4⟩
def POST_LANTERN_deep (t : Nat) : Fld := ⟨0x100500 + 0x1000 * t, 6, 2⟩
def POST_LANTERN_div (t : Nat) : Fld := ⟨0x100500 + 0x1000 * t, 5, 1⟩
def POST_LANTERN_armed (t : Nat) : Fld := ⟨0x100500 + 0x1000 * t, 4, 1⟩
def POST_LANTERN_CAL_cal_temp (t : Nat) : Fld := ⟨0x100504 + 0x1000 * t, 16, 16⟩
def POST_LANTERN_CAL_trim (t : Nat) : Fld := ⟨0x100504 + 0x1000 * t, 4, 6⟩
def POST_LANTERN_CAL_cal_fail (t : Nat) : Fld := ⟨0x100504 + 0x1000 * t, 3, 1⟩
def POST_LANTERN_CAL_cal_valid (t : Nat) : Fld := ⟨0x100504 + 0x1000 * t, 2, 1⟩
def POST_LANTERN_CAL_cal_busy (t : Nat) : Fld := ⟨0x100504 + 0x1000 * t, 1, 1⟩
def POST_LANTERN_CAL_cal_req (t : Nat) : Fld := ⟨0x100504 + 0x1000 * t, 0, 1⟩
def POST_GLINT_TOTAL_count (t : Nat) : Fld := ⟨0x100508 + 0x1000 * t, 0, 32⟩
def POST_VF_FLOOR_v_odd (t k : Nat) : Fld := ⟨0x100510 + 0x1000 * t + 0x4 * k, 16, 16⟩
def POST_VF_FLOOR_v_even (t k : Nat) : Fld := ⟨0x100510 + 0x1000 * t + 0x4 * k, 0, 16⟩
def POST_TSENS_temp (t : Nat) : Fld := ⟨0x100520 + 0x1000 * t, 16, 16⟩
def POST_TSENS_trim (t : Nat) : Fld := ⟨0x100520 + 0x1000 * t, 8, 8⟩
def POST_TSENS_suspect (t : Nat) : Fld := ⟨0x100520 + 0x1000 * t, 3, 1⟩
def POST_TSENS_conv_err_seen (t : Nat) : Fld := ⟨0x100520 + 0x1000 * t, 2, 1⟩
def POST_TSENS_valid (t : Nat) : Fld := ⟨0x100520 + 0x1000 * t, 1, 1⟩
/-! ### Vrc registers -/

def VRC_DOM_CTRL_fail_clr (d : Nat) : Fld := ⟨0x500000 + 0x40 * d, 7, 1⟩
def VRC_DOM_CTRL_coef_commit (d : Nat) : Fld := ⟨0x500000 + 0x40 * d, 6, 1⟩
def VRC_DOM_CTRL_uvp_en (d : Nat) : Fld := ⟨0x500000 + 0x40 * d, 5, 1⟩
def VRC_DOM_CTRL_de_en (d : Nat) : Fld := ⟨0x500000 + 0x40 * d, 4, 1⟩
def VRC_DOM_CTRL_shed_en (d : Nat) : Fld := ⟨0x500000 + 0x40 * d, 3, 1⟩
def VRC_DOM_CTRL_en (d : Nat) : Fld := ⟨0x500000 + 0x40 * d, 0, 1⟩
def VRC_DOM_STATUS_state (d : Nat) : Fld := ⟨0x500004 + 0x40 * d, 29, 3⟩
def VRC_DOM_STATUS_retries (d : Nat) : Fld := ⟨0x500004 + 0x40 * d, 27, 2⟩
def VRC_DOM_STATUS_phases_on (d : Nat) : Fld := ⟨0x500004 + 0x40 * d, 24, 3⟩
def VRC_DOM_STATUS_phases_avail (d : Nat) : Fld := ⟨0x500004 + 0x40 * d, 21, 3⟩
def VRC_DOM_STATUS_slewing (d : Nat) : Fld := ⟨0x500004 + 0x40 * d, 20, 1⟩
def VRC_DOM_STATUS_de_active (d : Nat) : Fld := ⟨0x500004 + 0x40 * d, 19, 1⟩
def VRC_DOM_STATUS_boost_active (d : Nat) : Fld := ⟨0x500004 + 0x40 * d, 18, 1⟩
def VRC_DOM_STATUS_ilim_active (d : Nat) : Fld := ⟨0x500004 + 0x40 * d, 17, 1⟩
def VRC_DOM_STATUS_short_seen (d : Nat) : Fld := ⟨0x500004 + 0x40 * d, 5, 1⟩
def VRC_DOM_STATUS_ovp_seen (d : Nat) : Fld := ⟨0x500004 + 0x40 * d, 4, 1⟩
def VRC_DOM_STATUS_uvp_seen (d : Nat) : Fld := ⟨0x500004 + 0x40 * d, 3, 1⟩
def VRC_DOM_STATUS_sense_seen (d : Nat) : Fld := ⟨0x500004 + 0x40 * d, 2, 1⟩
def VRC_DOM_STATUS_cont_over_seen (d : Nat) : Fld := ⟨0x500004 + 0x40 * d, 1, 1⟩
def VRC_DOM_VID_vid_in_force (d : Nat) : Fld := ⟨0x500008 + 0x40 * d, 16, 10⟩
def VRC_DOM_VID_vid_req (d : Nat) : Fld := ⟨0x500008 + 0x40 * d, 0, 10⟩
def VRC_DOM_SLEW_ss_rate (d : Nat) : Fld := ⟨0x50000C + 0x40 * d, 16, 5⟩
def VRC_DOM_SLEW_rate (d : Nat) : Fld := ⟨0x50000C + 0x40 * d, 0, 5⟩
def VRC_DOM_CMD_seq (d : Nat) : Fld := ⟨0x500010 + 0x40 * d, 16, 16⟩
def VRC_DOM_CMD_cur (d : Nat) : Fld := ⟨0x500010 + 0x40 * d, 14, 2⟩
def VRC_DOM_CMD_prev (d : Nat) : Fld := ⟨0x500010 + 0x40 * d, 12, 2⟩
def VRC_DOM_CMD_cause (d : Nat) : Fld := ⟨0x500010 + 0x40 * d, 8, 4⟩
def VRC_DOM_CMD_superseded (d : Nat) : Fld := ⟨0x500010 + 0x40 * d, 0, 8⟩
def VRC_DOM_PHASE_add_a (d : Nat) : Fld := ⟨0x500014 + 0x40 * d, 24, 8⟩
def VRC_DOM_PHASE_shed_a (d : Nat) : Fld := ⟨0x500014 + 0x40 * d, 16, 8⟩
def VRC_DOM_PHASE_min_ph (d : Nat) : Fld := ⟨0x500014 + 0x40 * d, 0, 3⟩
def VRC_DOM_DE_de_hyst (d : Nat) : Fld := ⟨0x500018 + 0x40 * d, 8, 8⟩
def VRC_DOM_DE_de_thr (d : Nat) : Fld := ⟨0x500018 + 0x40 * d, 0, 8⟩
def VRC_DOM_PROT_ovp_mv (d : Nat) : Fld := ⟨0x50001C + 0x40 * d, 16, 11⟩
def VRC_DOM_PROT_uvp_off (d : Nat) : Fld := ⟨0x50001C + 0x40 * d, 8, 8⟩
def VRC_DOM_COEF0_kp (d : Nat) : Fld := ⟨0x500020 + 0x40 * d, 16, 16⟩
def VRC_DOM_COEF0_ki (d : Nat) : Fld := ⟨0x500020 + 0x40 * d, 0, 16⟩
def VRC_DOM_COEF1_kd (d : Nat) : Fld := ⟨0x500024 + 0x40 * d, 16, 16⟩
def VRC_DOM_COEF1_df (d : Nat) : Fld := ⟨0x500024 + 0x40 * d, 8, 8⟩
def VRC_DOM_COEF1_kb (d : Nat) : Fld := ⟨0x500024 + 0x40 * d, 0, 8⟩
def VRC_DOM_COEF2_dmax (d : Nat) : Fld := ⟨0x500028 + 0x40 * d, 24, 8⟩
def VRC_DOM_COEF2_min_on (d : Nat) : Fld := ⟨0x500028 + 0x40 * d, 16, 8⟩
def VRC_DOM_COEF2_int_lim (d : Nat) : Fld := ⟨0x500028 + 0x40 * d, 0, 16⟩
def VRC_DOM_COEF3_dom_off (d : Nat) : Fld := ⟨0x50002C + 0x40 * d, 16, 8⟩
def VRC_DOM_COEF3_dt_lh (d : Nat) : Fld := ⟨0x50002C + 0x40 * d, 8, 5⟩
def VRC_DOM_COEF3_dt_hl (d : Nat) : Fld := ⟨0x50002C + 0x40 * d, 0, 5⟩
def VRC_DOM_MEAS_i_out (d : Nat) : Fld := ⟨0x500030 + 0x40 * d, 16, 16⟩
def VRC_DOM_MEAS_v_out (d : Nat) : Fld := ⟨0x500030 + 0x40 * d, 0, 16⟩
def VRC_DOM_REF_ref_mv (d : Nat) : Fld := ⟨0x500034 + 0x40 * d, 16, 16⟩
def VRC_DOM_REF_vmean_mv (d : Nat) : Fld := ⟨0x500034 + 0x40 * d, 0, 16⟩
def VRC_PH_CTRL_restore (p : Nat) : Fld := ⟨0x520000 + 0x10 * p, 1, 1⟩
def VRC_PH_CTRL_disable (p : Nat) : Fld := ⟨0x520000 + 0x10 * p, 0, 1⟩
def VRC_PH_STATUS_state (p : Nat) : Fld := ⟨0x520004 + 0x10 * p, 29, 3⟩
def VRC_PH_STATUS_trips (p : Nat) : Fld := ⟨0x520004 + 0x10 * p, 24, 5⟩
def VRC_PH_STATUS_ilim (p : Nat) : Fld := ⟨0x520004 + 0x10 * p, 16, 1⟩
def VRC_PH_STATUS_iavg (p : Nat) : Fld := ⟨0x520004 + 0x10 * p, 0, 16⟩
def VRC_PH_COUNT_trip_total (p : Nat) : Fld := ⟨0x520008 + 0x10 * p, 16, 16⟩
def VRC_PH_COUNT_ilim_tick (p : Nat) : Fld := ⟨0x520008 + 0x10 * p, 0, 16⟩
def VRC_SLICE_SYNC_sync_state (s : Nat) : Fld := ⟨0x5F0000 + 0x40 * s, 30, 2⟩
def VRC_SLICE_SYNC_track_en (s : Nat) : Fld := ⟨0x5F0000 + 0x40 * s, 16, 1⟩
def VRC_SLICE_SYNC_dco_ppm (s : Nat) : Fld := ⟨0x5F0000 + 0x40 * s, 0, 16⟩
def VRC_SLICE_SS_ss_khz (s : Nat) : Fld := ⟨0x5F0004 + 0x40 * s, 8, 8⟩
def VRC_SLICE_SS_ss_depth (s : Nat) : Fld := ⟨0x5F0004 + 0x40 * s, 0, 5⟩
def VRC_SLICE_STATUS_sync_changes (s : Nat) : Fld := ⟨0x5F0008 + 0x40 * s, 24, 8⟩
def VRC_SLICE_STATUS_phases_failed (s : Nat) : Fld := ⟨0x5F0008 + 0x40 * s, 8, 6⟩
def VRC_SLICE_STATUS_domains_failed (s : Nat) : Fld := ⟨0x5F0008 + 0x40 * s, 0, 5⟩

end F

end Sys2Proof.Machine
end

