-- ==== Sys2Proof/Machine/Types.lean ====
section
/-! DEFINITION. The block's state outside the register window, unit by unit, as plain data. -/
namespace Sys2Proof.Machine

/-! ## Fabric time (02_fabric_time_and_ticks.md) -/

/-- A correction of FT in progress (Table 02-2). -/
inductive Corr
  | none
  /-- FT holds one count per tick. -/
  | hold
  /-- FT advances two counts in one cycle per tick. -/
  | advance
  /-- FT is loaded at the next tick boundary, with the measured offset (R89). -/
  | step (offset : Int)
  /-- The step of this correction has taken place; none starts again until a marker within 4 ns (R88). -/
  | stepped
  deriving DecidableEq, Repr

/-- An action scheduled for a named tick (R99). -/
inductive Sched
  /-- The package-wide weight bank swap and image replacement (R126, R240). -/
  | weights
  /-- A bank swap of the EA or of the class table (R194, R318). -/
  | ea
  | classes
  /-- A limit request written for a packet (R269): level, slot, value. -/
  | limit (n slot : Nat) (value : Nat)
  /-- A thermal request written for a packet: threshold code, slot, value. -/
  | thermal (code slot : Nat) (value : Nat)
  /-- Trace and digest settings of tiles (R646): bits [23:6] of POST_DIG_CFG. -/
  | trace (tiles : List Nat) (on : Bool)
  | digest (tiles : List Nat) (cfg : Nat)
  deriving DecidableEq, Repr

/-- The CTU's time state beside CTU_FT_STATUS. -/
structure TimeS where
  /-- The CTU's count; what the block reads while it is not in ACQUIRING (R79, R84). -/
  count : Ft
  /-- A marker has loaded the count in ACQUIRING (R85). -/
  loaded : Bool
  /-- Tick boundaries are generated. -/
  ticking : Bool
  /-- Consecutive valid markers with offsets within 4 ns (R84). -/
  goodRun : Nat
  /-- The last offsets of consecutive valid markers, newest first, at most three (R87). -/
  offsets : List Int
  /-- A strobe has been registered (R807). -/
  strobed : Bool
  /-- The marker timer: ns, at the rate of R82, since the last strobe or the last missing marker (R828). -/
  timer : Nat
  /-- Counts since the tick strobe of the last presented boundary (R92). -/
  since : Nat
  corr : Corr
  /-- Ticks a step has skipped and the next boundary carries (R89). -/
  skipped : Nat
  /-- The last epoch and thermal step begun (R98), the tick whose boundary was presented last, and whether it began an
  epoch (R90). -/
  epoch : Nat
  step : Nat
  last : Nat
  epochEnd : Bool
  /-- Actions scheduled for named ticks. -/
  sched : List (Nat × Sched)
  deriving DecidableEq, Repr

/-! ## Sideband links (01_architecture.md) -/

/-- The training state of a link (R73, R74). -/
inductive LinkState
  | down | training | up
  deriving DecidableEq, Repr

/-- Flow control of one direction of a link or of one hop, by channel: the credits its sender holds, and the entries its
receiver has freed whose credits are still to be returned (R67, R146). -/
structure Cred where
  credits : List Nat
  owed : List Nat
  deriving DecidableEq, Repr

/-- A flit of a sideband link: header and body (R64, R65). -/
structure SbFlit where
  hdr : Word
  body : DWord
  deriving DecidableEq, Repr

/-- One direction of a sideband link. -/
structure SbDir where
  flow : Cred
  /-- Flits of the CRC group being sent, and the last whole group with its CRC-32, as the replay buffer holds it (R64,
  R68). -/
  group : List SbFlit
  last : Option (List SbFlit × Word)
  /-- Flits sent in this tick on VC0-VC3 (R69). -/
  sent : List Nat
  deriving DecidableEq, Repr

/-- A flit of the Post network: header, body and CRC-8 (R143, R144). -/
structure ChFlit where
  hdr : BitVec 24
  body : DWord
  crc : Byte
  deriving DecidableEq, Repr

/-- A flit that its sender at a hop keeps: direction, hop, channel, body, and whether it failed its CRC there (R146). -/
structure Kept where
  down : Bool
  hop : Nat
  pn : Nat
  body : DWord
  bad : Bool
  deriving DecidableEq, Repr

/-- A chain as its links carry it. -/
structure ChWire where
  /-- Flow control of hops 0-15 upward, then of hops 0-15 downward; hop 0 joins the Relay (R146). -/
  hops : List Cred
  /-- Flits of this tick upward and downward (R143). -/
  up : Nat
  down : Nat
  /-- The last flit at the Relay's end in each direction. -/
  lastUp : Option ChFlit
  lastDown : Option ChFlit
  /-- Flits kept by their senders until their credits return, oldest first (R146). -/
  kept : List Kept
  /-- Flits sent again after a nak and received at that hop, not yet at their end. -/
  resent : List Kept
  deriving DecidableEq, Repr

/-- One Relay's link beside HUB_SB_STATUS. -/
structure LinkS where
  /-- Training state of the link (R73, R74). -/
  state : LinkState
  /-- Ticks spent training, or down (R73, R74). -/
  ticks : Nat
  /-- Group replays of the current epoch (R68). -/
  replays : Nat
  /-- The two directions (R64-R69). -/
  up : SbDir
  down : SbDir
  /-- Input current and power of the last 8 ticks, newest first, `none` without a valid record: (i in 1/16 A, p in
  mW) (R74, R259). -/
  inputs : List (Option (Nat × Nat))
  /-- Fault records sent in this tick (R69). -/
  faultsSent : Nat
  /-- Glint records sent in this tick (R69). -/
  glintsSent : Nat
  /-- An input-sense record has been sent in this tick (R69). -/
  inputSent : Bool
  /-- The training in progress is one on 4 lanes, after a lane loss or a failed training on 8 (R73). -/
  lost : Bool
  /-- VC0 flits on the wire upward, oldest first; with a trip, whether the bonded memory tripped. -/
  flight : List (SbFlit × Bool)
  /-- VC0 flits on the wire downward, oldest first. -/
  flightDown : List SbFlit
  deriving DecidableEq, Repr

/-! ## Tile Posts (03_activity_sensing.md) -/

/-- One weight bank: 32 weights of Q12.4 pJ and the CRC it carries (R124). -/
structure Bank where
  /-- The 32 weights, Q12.4 pJ. -/
  weights : List Int
  /-- The CRC the bank carries. -/
  crc : Nat
  deriving DecidableEq, Repr

/-- What a boundary captured, for the snapshot registers and the trace record (R134, R136). -/
structure Snap where
  counts : List Nat
  ft : Ft
  endTag : Nat
  endCtx : Nat
  tag : Nat
  ctx : Nat
  cls : Nat
  dflt : Bool
  merged : Bool
  deriving DecidableEq, Repr

/-- What a tick latch captured, for the Sheaf (R137). -/
structure Latch where
  tick : Nat
  run : Nat
  str : Nat
  cycles : Nat
  glints : Nat
  tempQ : Nat
  tBad : Bool
  bank : Bool
  valid : Bool
  deriving DecidableEq, Repr

/-- An item waiting for the segment computation: the weighted sum of a closed segment with its voltage factor,
and the captures formed once it is added (R130, R132). -/
structure SegItem where
  sum : Int
  kv : Nat
  snaps : List Snap
  latch : Option Latch
  deriving DecidableEq, Repr

/-- A Sheaf waiting in a Post, with the counter differences that its ratios are formed from (R141). -/
structure WSheaf where
  tick : Nat
  energy : Nat
  run : Nat
  str : Nat
  cycles : Nat
  tempQ : Nat
  glints : Nat
  bank : Bool
  eSat : Bool
  tBad : Bool
  merged : Bool
  probation : Bool
  deriving DecidableEq, Repr

/-- A boundary trace record (Table 16-9). -/
structure TraceRec where
  tile : Nat
  ft : Ft
  endCtx : Nat
  endTag : Nat
  ctx : Nat
  tag : Nat
  cls : Nat
  dflt : Bool
  eMerged : Bool
  postLost : Nat
  seq : Nat
  eacc : Nat
  deriving DecidableEq, Repr

/-- A digest record (Table 16-11). -/
structure DigestRec where
  tile : Nat
  ft : Ft
  ctx : Nat
  tag : Nat
  seq : Nat
  cfg : Nat
  hist : List Nat
  deriving DecidableEq, Repr

/-- A fault record (Table 12-2), its stamp in full. -/
structure FaultRec where
  group : Nat
  source : Nat
  inst : Nat
  ft : Ft
  coalesced : Nat
  ended : Bool
  injected : Bool
  deriving DecidableEq, Repr

/-- One digest channel: previous sample, whether the configuration is fresh, beats since the last sample. -/
structure DigCh where
  /-- The previous sample, the fresh-configuration flag and the beats since the last sample (R118). -/
  prev : DWord
  fresh : Bool
  beats : Nat
  deriving DecidableEq, Repr

/-- A launch request of a Post (07_launch_admission.md R305, R312, R328). -/
structure Req where
  tag : Nat
  ctx : Nat
  cls : Nat
  lead : Nat
  /-- Windows since the request was last sent (R312). -/
  age : Nat
  resends : Nat
  /-- Windows left before a retry, while a wait holds (R328). -/
  retry : Option Nat
  deriving DecidableEq, Repr

/-- A grant registered at a Post: expanded window, and whether the gate has been released (R308). -/
structure PGrant where
  tag : Nat
  ctx : Nat
  cls : Nat
  win : Nat
  dflt : Bool
  released : Bool
  /-- Its request was withdrawn: it only lapses (R310). -/
  void : Bool
  deriving DecidableEq, Repr

/-- A PN0 flit upward: 1 request, 2 cancel, 3 idle notice (R306, R310, R311). -/
structure UpFlit where
  kind : Nat
  tile : Nat
  ctx : Nat
  tag : Nat
  cls : Nat
  lead : Nat
  deriving DecidableEq, Repr

/-- A reply of a slice (Table 07-2). -/
inductive Reply
  | grant (tile tag ctx win src debit : Nat) (dflt : Bool)
  | wait (tile tag ctx reason retry : Nat)
  | revoke (tile tag ctx win : Nat)
  | refuse (tile tag ctx reason : Nat)
  deriving DecidableEq, Repr

/-- A weight publication on its way to a Post: the bank it names, or both banks for a restore of a Post whose active
bank is invalid (R125, R242). -/
structure Pub where
  bank : Option Bool
  weights : List Int
  crc : Nat
  /-- Its flits have crossed the link. -/
  linked : Bool
  /-- Its flits have crossed the chain too, as a broadcast does once for the chain. -/
  sent : Bool
  deriving DecidableEq, Repr

/-- A Lantern's calibration (R361). -/
inductive CalState
  | idle | pending | running
  deriving DecidableEq, Repr

/-- One Tile Post beside its registers. -/
structure PostS where
  /-- The Post is powered (R37), in reset, in logic BIST (R748). -/
  powered : Bool
  inReset : Bool
  lbist : Bool
  /-- Segments of the tile power switch that are closed (TSW_EN). -/
  segs : Fin 16
  /-- The switch reads open (TSW_OPEN). -/
  open_ : Bool
  /-- Commands running; tag, context, class and default-class flag of the current command (R133, R136). -/
  running : Nat
  tag : Nat
  ctx : Nat
  cls : Nat
  dflt : Bool
  /-- The 32 counters (R114). -/
  counts : List Nat
  /-- Launches whose edge is the last one counted up to, and that edge (R113, R116). -/
  launch : Nat × Nat
  /-- Counter values at the last closed segment and at the last tick latch. -/
  segCounts : List Nat
  latchCounts : List Nat
  /-- Counter values at the last snapshot (R134). -/
  snapCounts : List Nat
  /-- The two weight banks (R124). -/
  bankA : Bank
  bankB : Bank
  /-- The hidden remainder of the energy accumulator (R132). -/
  rem : Nat
  /-- POST_EACC at the last Sheaf formed. -/
  eaccSheaf : Nat
  /-- Segments waiting for the computation, oldest first (R130). -/
  items : List SegItem
  /-- Counter 27's remainder of toggles (R120). -/
  togRem : Nat
  /-- The two digest channels. -/
  ch0 : DigCh
  ch1 : DigCh
  /-- Live digest histograms of the window, those of the last window, and epochs left in the window (R121, R122). -/
  hist : List (List Nat)
  histDone : List Nat
  epochsLeft : Nat
  /-- Sheafs waiting to be sent (R141). -/
  sheafs : List WSheaf
  /-- Sheafs formed since power-up, for probation (R137). -/
  formed : Nat
  /-- Boundary trace records waiting, and records lost (R136). -/
  trace : List TraceRec
  traceLost : Nat
  /-- Fault records waiting, pending bits, and records sent in this tick (R69, R503). -/
  faults : List FaultRec
  faultPend : List (Nat × Nat)
  faultsSent : Nat
  /-- Regressor accumulators, their capture at the epoch boundary, and the probation and powered-up flags of the
  epoch (R216, R218). -/
  kacc : List Nat
  kcap : List Nat
  probFlag : Bool
  upFlag : Bool
  /-- Ticks for which snap_hold has stood (R152). -/
  holdTicks : Nat
  /-- Glints of the tick, offset of the first one, and whether one was deep (R369). -/
  glints : Nat
  firstOff : Nat
  deep : Bool
  /-- Stretch requests of the Lantern: 1/2 and 1/4 (R364). -/
  primary : Bool
  deepReq : Bool
  /-- The 1/4 request is judged against the deep level, and the 1/2 request is what is left of a 1/4 one (R366). -/
  byDeep : Bool
  after4 : Bool
  /-- The hold of R366 that the last margin order brought, Post cycles. -/
  strHold : Nat
  /-- The stretch the LG orders (R279). -/
  lgStretch : Nat
  /-- Consecutive latches with a request active (R500). -/
  stuck : Nat
  /-- Calibration of the Lantern (R361). -/
  cal : CalState
  /-- Outstanding requests, at most 2, and requests held on P1 (R305). -/
  reqs : List Req
  pres : List Req
  /-- Grants registered and not yet used or lapsed (R308). -/
  grants : List PGrant
  /-- PN0 flits sent in this tick, and those that wait for the next (R305). -/
  pn0 : Nat
  upWait : List UpFlit
  /-- Reports to the command processor, oldest first: code, tag (Table 22-1). -/
  resp : List (Nat × Nat)
  /-- The gate of the compute clock is open (TP_GATE). -/
  gate : Bool
  /-- A close of the power switch waits for the VID (R354). -/
  closePend : Bool
  /-- The switch is ordered to open, and the FT at which its first of 4 segments opens (R421, Table 12-7). -/
  opening : Bool
  openAt : Nat
  /-- Voltage factor in force, and the one the tick that closes next began with (R129, R131). -/
  kv : Nat
  segKv : Nat
  /-- Bank of the tick that closes next (R126, R132). -/
  tickBank : Bool
  /-- Boundaries since power-up, hold or not (R134, R152). -/
  seq : Nat
  /-- The Glint summary waiting to be sent: tick, count, first offset, deep (R369). -/
  summary : Option (Nat × Nat × Nat × Bool)
  /-- The regressor record captured and not yet sent: epoch, probation, powered up (R218, R220). -/
  reg : Option (Nat × Bool × Bool)
  /-- Kept bank and factor apply until the next latch (R132). -/
  closing : Bool
  /-- The latest valid reading of the tile sensor. -/
  tempRead : Option Int
  /-- Publications sent to the Post and not yet arrived, oldest first. -/
  pubs : List Pub
  /-- Residency states since the last capture, in order, the present one last: 0 running, 1 gated, 2 and 3 under 1/2
  and 1/4 stretch (R111, R367). -/
  resid : List Nat
  /-- Digest records waiting to be sent, oldest first (R675). -/
  digs : List DigestRec
  deriving DecidableEq, Repr

/-! ## Relays and chains (01_architecture.md R37, R38; 03_activity_sensing.md) -/

/-- A Sheaf in a Relay's FIFO, with the weight of the ticks it covers (R148). -/
structure FifoE where
  tile : Nat
  word : DWord
  tick : Nat
  weight : Nat
  act : Nat
  str : Nat
  deriving DecidableEq, Repr

/-- What a Relay holds of one tile (R37). -/
structure RelTile where
  /-- The isolation mark (R525). -/
  isolated : Bool
  /-- The copy of the last Sheaf, and its tick (R37). -/
  lastSheaf : Option DWord
  lastTick : Option Nat
  /-- Consecutive ticks without a good Sheaf (R500). -/
  silent : Nat
  /-- A good Sheaf arrived in this tick. -/
  seen : Bool
  /-- Consecutive readings at or above trip (R275). -/
  tripRun : Nat
  /-- The latest reading, 1/16 degree, `none` when invalid (R272). -/
  reading : Option Int
  /-- The TME's suspect mark as the Relay received it (R443). -/
  suspect : Bool
  deriving DecidableEq, Repr

/-- A message a Relay holds for VC3. -/
inductive Vc3
  | boundary (r : TraceRec)
  | digest (r : DigestRec)
  /-- Records the Relay lost (R670). -/
  | loss (n : Nat)
  deriving DecidableEq, Repr

/-- A thermal state record (R277): the 16 levels, the bonded-memory level, and a trip: whether the bonded memory
tripped, and the tile. -/
structure ThermRec where
  levels : List Nat
  bmem : Nat
  trip : Option (Bool × Nat)
  deriving DecidableEq, Repr

/-- An LG action flit (R283): package level, HOT_N level, and whether level 5 is being left (R281). -/
structure LgAct where
  level : Nat
  hot : Nat
  restoring : Bool
  deriving DecidableEq, Repr

/-- One Relay beside its slice units. -/
structure RelayS where
  /-- The Relay's FT copy as the last tick strobe set it, and the FT of the next epoch boundary as the Beacon delivered it
  (R92). -/
  strobe : Ft
  epochFt : Ft
  /-- The Sheaf FIFO (R141). -/
  fifo : List FifoE
  /-- The FIFO holds at most one entry a tile, since the link went down (R148). -/
  merging : Bool
  /-- The weight bank the Posts are told (R37, R126). -/
  bankSel : Bool
  /-- The fault queue, its pending bits, the record of source 11.4, and one more than the last tick it counts
  (R503). -/
  faults : List FaultRec
  faultPend : List (Nat × Nat)
  overflow : Option FaultRec
  overTick : Nat
  /-- Messages for VC3, bytes they fill, and records lost (R670). -/
  vc3 : List Vc3
  vc3Fill : Nat
  vc3Lost : Nat
  /-- The channel 0 digest configuration and lock last broadcast (R530). -/
  digCfg : Option Nat
  /-- Bonded-memory sensors of the die, 1/16 degree (R272, R442). -/
  bmem : List (Option Int)
  bmemTrip : Nat
  /-- The thermal state record that waits to be sent (R277). -/
  thermalDue : Option ThermRec
  /-- LG actions on their way, oldest first, and the one in force. -/
  lgActs : List LgAct
  act : LgAct
  /-- Input-sense records held while the link trains, oldest first (R73). -/
  inHeld : List DWord
  /-- Sheafs in the PN2 buffers of the chains' hops while the FIFO is full, oldest first, by tile (R148). -/
  parked : List (Nat × DWord)
  /-- The core voltage ceiling it works with while the link is down (R74). -/
  ceilHeld : Option Nat
  deriving DecidableEq, Repr

/-- A chain's record of the epoch as the Hub received it (Table 05-5). -/
structure DomRec where
  epoch : Nat
  sums : List Nat
  mask : Nat
  incomplete : Bool
  probation : Bool
  poweredUp : Bool
  deriving DecidableEq, Repr

/-- One chain of 16 Posts, by its core domain. -/
structure ChainS where
  /-- Hops, by direction and number, whose receiver's next flit carries nak (R146). -/
  nak : List (Bool × Nat)
  /-- Ticks with neither a flit nor a credit (R500). -/
  quiet : Nat
  /-- A flit or credit was received in this tick. -/
  live : Bool
  /-- PN0 flits at the chain port, oldest first, each with the FT it was sent (R306, R310, R311, R320). -/
  up : List (UpFlit × Nat)
  /-- Regressor sums of the epoch, and the flags of Table 05-5. -/
  sums : List Nat
  mask : Nat
  probation : Bool
  poweredUp : Bool
  /-- The epoch the sums belong to, the Posts powered at its end while its record is still to be sent, and a record
  that outlasts the next boundary (R221). -/
  regEpoch : Nat
  due : Option Nat
  ready : Option DomRec
  /-- Glints of the tick by position, and the tick (R370). -/
  glints : List Nat
  glintTick : Nat
  /-- Glint records of earlier ticks that wait to be sent, oldest first (R73). -/
  glintDue : List DWord
  /-- The primary and the deep detect level on the chain's reference bus, mV (R357). -/
  levels : Nat × Nat
  deriving DecidableEq, Repr

/-! ## Winnow (05_live_calibration.md) -/

/-- The state of one instance, binary32 (R222, R228). -/
structure WInst where
  theta : List Word
  /-- Upper triangle of the covariance, row by row (R222). -/
  p : List Word
  /-- The residual variance, the mean, the accepted count and the run of rejections (R222-R231). -/
  sig2 : Word
  ybar : Word
  nAcc : Nat
  rejRun : Nat
  /-- Accepted updates since the last restart, `none` before any (R231). -/
  sinceRestart : Option Nat
  /-- Boundary of the last factory restore: no epoch that ended by then updates the instance (R233). -/
  since : Nat
  deriving DecidableEq, Repr

/-- One record of a factory set (Table 05-10). -/
structure WFactory where
  theta0 : List Word
  p0 : List Word
  lo : List Word
  hi : List Word
  deriving DecidableEq, Repr

/-- A domain's image (R238). -/
structure WImage where
  scaleQ : Nat
  weights : List Int
  loffQ : Int
  crc : Nat
  deriving DecidableEq, Repr

/-- The sums the EA keeps of an epoch for one domain (Table 05-2, Table 05-6). -/
structure WSums where
  /-- The epoch; measured, leakage, corrected and estimated sums in 1/16 nJ, and ticks summed. -/
  epoch : Nat
  m16 : Nat
  l16 : Nat
  c16 : Int
  e16 : Int
  ticks : Nat
  /-- Some tick had no valid measurement, or a quality of 2 or 3 (Table 05-6). -/
  subst : Bool
  bad : Bool
  deriving DecidableEq, Repr

/-- An image formed from a snapshot and not yet released: its publication tick, its swap tick, and whether the committed
factory set had replaced the one before (R237-R241, R249). -/
structure Formed where
  image : List WImage
  at_ : Nat
  swap : Nat
  factory : Bool
  deriving DecidableEq, Repr

/-- The WCE beside its registers. -/
structure WceS where
  /-- The instances by domain; one not listed holds zeros. -/
  insts : Tab WInst
  /-- The factory set in force, its flag bit 0, and its dig0_cfg (R249). -/
  factory : Option (List WFactory)
  factoryFlag : Bool
  digCfg : Nat
  /-- An accepted set waiting for the next epoch boundary: records, flags bit 0, dig0_cfg, and the epoch of its
  acceptance (R249). -/
  pendingSet : Option (List WFactory × Bool × Nat × Nat)
  /-- The last publication boundary handled, by number (R237), and the swap delay in force since then (R250). -/
  pubSeen : Nat
  delay : Nat
  /-- conf_enter in force since the last WCE cycle 0 (R250). -/
  enter : Nat
  /-- Instances to restore at the next epoch boundary (R233). -/
  pendingRestore : List Nat
  /-- Outcomes and results computed and not yet visible (R235). -/
  results : List (Nat × WInst × Nat)
  /-- Boundary E of the results that wait, and of the last epoch updated. -/
  resultEpoch : Nat
  updated : Nat
  /-- The image in force (R238). -/
  inForce : Option (List WImage)
  /-- Images formed and not yet released, oldest first (R237-R241). -/
  formed : List Formed
  /-- A set has been committed whose first publication is not yet released (R249). -/
  setDue : Bool
  /-- A released image and its swap tick (R239). -/
  released : Option (List WImage × Nat)
  /-- Domain records received, at 64 × (epoch mod 4) + domain (R221). -/
  recs : Tab (Option DomRec)
  /-- Sums of the epochs still needed, at 72 × (epoch mod 4) + domain (Table 05-2, R202). -/
  sums : Tab WSums
  /-- Core domains with a switch change, by epoch (Table 05-6). -/
  switched : List (Nat × Nat)
  deriving DecidableEq, Repr

/-! ## Fault Collector (12_faults_and_isolation.md) -/

/-- A re-admission in progress (Table 12-8). -/
structure Readmit where
  tile : Nat
  /-- The domain re-admission this one belongs to (R533). -/
  ofDom : Option Nat
  step : Nat
  /-- Consecutive good Sheafs, ticks since step 6, bank CRC failures (R530, R531). -/
  good : Nat
  ticks : Nat
  crcFails : Nat
  /-- Runs LBIST only, for POST_LBIST (R654). -/
  lbistOnly : Bool
  deriving DecidableEq, Repr

/-- A fault that the FC registered in the present cycle: its key, whether it was forced, and whether the source's forced
bit stood before it (R521). -/
structure Recent where
  at_ : Nat
  group : Nat
  source : Nat
  inst : Nat
  forced : Bool
  was : Bool
  deriving DecidableEq, Repr

/-- The FC beside its registers. -/
structure FcS where
  /-- Conditions now active: group, source, instance (R498). -/
  active : List (Nat × Nat × Nat)
  /-- The armed injection: det, mode, instance, param (R522). -/
  armed : Option (Nat × Nat × Nat × Nat)
  /-- Stimuli in force at their detectors: det, mode, instance, param (Table 12-6). -/
  stims : List (Nat × Nat × Nat × Nat)
  /-- Forced conditions that no clear has ended yet: group, source, instance (R519). -/
  forcedNow : List (Nat × Nat × Nat)
  /-- Isolation orders queued on VC0 downward: domain?, index, and the stamp of the detection or request (R525). -/
  orders : List (Bool × Nat × Ft)
  /-- Isolations in progress: domain?, index, and the stamp their order carried (R526). -/
  isolating : List (Bool × Nat × Ft)
  /-- Re-admissions in progress (Table 12-8). -/
  readmits : List Readmit
  /-- A domain whose re-admission waits for RUN (R533). -/
  readmitDom : Option Nat
  /-- Counts G, C, T and N of the risk interval in progress (R534). -/
  riskG : Nat
  riskC : Nat
  riskT : Nat
  riskN : Nat
  /-- The lowest margin of the interval, 1/16 degree (R534). -/
  riskM : Option Int
  /-- G, C, T, F, M and N of the last interval that ended; the number of the interval last scored, and its inputs
  (R534, R536). -/
  riskLast : List Nat
  riskSeen : Nat
  riskIn : List Nat
  /-- Faults raised per source, at index 8 g + s (Table 16-3, set 3). -/
  counts : Tab Nat
  /-- Highest cost class recorded per sticky source, same index (R518). -/
  costs : Tab Nat
  /-- Cores with an interrupt of the FC pending (Table 12-4). -/
  irq : List Nat
  /-- The fault now registered comes from an injection point (R522). -/
  inj : Bool
  /-- Faults registered in the present cycle (R521). -/
  recent : List Recent
  /-- Severities that a write of the present cycle replaced: edge, group, source, code (R510). -/
  sevWas : List (Nat × Nat × Nat × Nat)
  /-- Isolations registered in the present cycle: edge and unit (R529). -/
  isoNow : List (Nat × Bool × Nat)
  deriving DecidableEq, Repr

/-! ## TTU (16_telemetry_trace_debug.md) -/

/-- One TTU entry (Table 16-1) on its way to a ring. -/
structure Entry where
  ring : Nat
  kind : Nat
  part : Nat
  aux : Nat
  count : Nat
  ft : Ft
  body : List Byte
  deriving DecidableEq, Repr

/-- A boundary as the TTU received it: the record, whether the command it ends lost its begin, the losses of its
Relay, and the dur of the class that begins (R671, R674). -/
structure TraceB where
  r : TraceRec
  beginLost : Bool
  clsDur : Nat
  deriving DecidableEq, Repr

/-- What the TTU keeps of a tracing tile (R671). -/
structure TraceT where
  /-- The last boundary received, for its sequence. -/
  last : Option TraceRec
  /-- The begin of the open command, and its attribution in 1/16 nJ. -/
  cur : Option TraceB
  acc : Int
  /-- Boundaries received and not yet written, oldest first. -/
  waiting : List TraceB
  deriving DecidableEq, Repr

/-- One telemetry ring: the setting in force and the sums of the interval (R663, R664). -/
structure TelS where
  /-- The setting in force: fields and interval. -/
  mask : Nat
  int : Nat
  /-- The last interval written, by its ending tick number. -/
  done : Nat
  n : Nat
  sums : Tab Nat
  maxs : Tab (Option Int)
  /-- Counters at the begin of the interval, and the figures taken at its end, by its ending tick. -/
  base : Tab Nat
  atEnd : Option (Nat × Tab Nat)
  /-- A setting that took effect at an epoch boundary: mask, interval, the boundary's tick and the counters there; the
  interval that ends at it is still to be written (R663). -/
  next : Option (Nat × Nat × Nat × Tab Nat)
  deriving DecidableEq, Repr

/-- The LG's figures of a tick (R451, R664): tick, p_k, i_k, level, stack power, power of each die, averages,
thresholds. -/
structure LgFig where
  tick : Nat
  p : Nat
  i : Nat
  level : Nat
  stack : Nat
  dies : List Nat
  avgs : List Nat
  thrs : List Nat
  deriving DecidableEq, Repr

/-- The counters at the edge of the last EA publication (R662): the boundary of its tick, the sets, and EA_DOM_EACC. -/
structure CntS where
  /-- The boundary of the tick published, and the counter sets there. -/
  b : Nat
  pkg : Tab Nat
  tiles : Tab Nat
  doms : Tab Nat
  transport : Tab Nat
  faults : Tab Nat
  eacc : List Nat
  deriving DecidableEq, Repr

/-- Counts of Table 16-4 and the sets of Table 16-3 that no register holds, by index. -/
structure TtuS where
  /-- Entries waiting for their rings, oldest first (R659). -/
  queue : List Entry
  /-- Package counters, set 0 (Table 16-4). -/
  pkg : Tab Nat
  /-- Tile counters: four a tile (set 1). -/
  tiles : Tab Nat
  /-- Domain counters: four a domain (set 2). -/
  doms : Tab Nat
  /-- Transport counters: eight a die, then one a ring (set 4). -/
  transport : Tab Nat
  /-- Hidden remainders of the energy counters, by set and index. -/
  rem : Tab Nat
  /-- Entries of each ring lost since its last written one (R658). -/
  lost : Tab Nat
  /-- The LG log's entries, by sequence number modulo 1,024 (R668). -/
  log : Tab (List Byte)
  /-- Tracing tiles. -/
  trace : Tab TraceT
  /-- Losses of each Relay that the next entry of its die reports (R670). -/
  relayLost : List Nat
  /-- Telemetry rings by number. -/
  tel : Tab TelS
  /-- The LG's figures of the last ticks, newest first. -/
  figs : List LgFig
  /-- Levels of the core domains and busy tiles of the contexts in the last ticks, newest first (R664). -/
  ends : List (Nat × List Nat × List Nat)
  /-- Scales of the domains since a tick, newest first (R673). -/
  scales : List (Nat × List Nat)
  /-- Records of the stop capture area, oldest first (R682). -/
  capture : List (List Byte)
  /-- The wait-for graph core 3 built last (R677). -/
  wfg : List Byte
  /-- The counters as the last EA publication left them (R662). -/
  sample : CntS
  deriving DecidableEq, Repr

/-- The fuse shadow: what the fused fields of the window read. -/
structure Shadow where
  /-- Floor points v_0-v_7 of each tile, mV (R350). -/
  vf : Tab (List Nat)
  /-- Tile sensors whose fused trim failed its parity check (R441). -/
  trimBad : List Nat
  /-- Fused leakage factors, UQ2.14 (R170). -/
  leak : Tab Nat
  /-- The expected signature of Post logic BIST (R748). -/
  misr : Nat
  /-- The manufacturer identity of IDCODE (R821). -/
  maker : BitVec 11
  deriving DecidableEq, Repr

/-! ## Limit Guard (06_limits_and_budgets.md) -/

/-- An input-sense record as the LG holds it (Table 06-1). -/
structure InRec where
  tick : Nat
  iIn : Nat
  vIn : Nat
  p : Nat
  valid : Bool
  deriving DecidableEq, Repr

/-- A thermal row: its level and the consecutive ticks it could fall (R273, R274). -/
structure Row where
  /-- The level of the row. -/
  level : Nat
  /-- Consecutive ticks it could fall (R274). -/
  cool : Nat
  deriving DecidableEq, Repr

/-- Thermal rows of one die and its 16 domains, as its Relay holds them. -/
structure ThermS where
  /-- Rows of the 16 domains, of the bonded memory and of the stacks. -/
  tile : List Row
  bmem : Row
  stack : Row
  /-- Hottest valid reading of the tick per domain, 1/16 degree. -/
  tmax : List (Option Int)
  /-- Domains with a closed switch and no valid reading, and a bonded memory die without one (R276). -/
  noSens : List Bool
  bmemNone : Bool
  /-- A fall from thermal level 5 waits for the VID (R281). -/
  restoring : List Bool
  deriving DecidableEq, Repr

structure LgS where
  /-- Averages acc[2..4] (R263). -/
  acc : List Nat
  /-- Consecutive ticks above 1.0 and under 0.90 (R280). -/
  excess : Nat
  under : Nat
  /-- A step down from level 5 waits for the VIDs (R281). -/
  restoring : Bool
  /-- Consecutive ticks at level 5 with every VID lowest and rho above 1.0; 65 once reported (R285). -/
  lowRun : Nat
  /-- L5 adjustment in force (R265, R269), and the tick in which its register was last written (R483). -/
  adj : Int
  adjWrite : Option Nat
  /-- Effective L1-L4 of the last ticks, newest first; L4 includes L5 (R263). -/
  thrs : List (Nat × List Nat)
  /-- The tick last evaluated. -/
  evalTick : Option Nat
  /-- Latest record of each die. -/
  recs : List (Option InRec)
  /-- HOT_N is asserted (R282). -/
  hot : Bool
  /-- THERMTRIP_N is asserted (R275). -/
  tripped : Bool
  /-- The action last sent (R283). -/
  sent : LgAct
  /-- p_k of the last evaluation, mW. -/
  lastP : Nat
  /-- Stacks whose power has been read since POR (R260), and ticks each has read cool enough to end its throttle
  request (R448). -/
  stackRead : List Nat
  /-- Stacks whose serial port has been polled since POR (R820). -/
  polled : List Nat
  stackCool : List Nat
  /-- Stack power the last evaluation used, mW. -/
  stackNow : Nat
  deriving DecidableEq, Repr

/-! ## Launch admission (07_launch_admission.md) -/

/-- One class entry (Table 07-3). -/
structure ClassE where
  /-- Energy, duration, kind, whether the class is defined, and the ramp (Table 07-3). -/
  energy : Nat
  dur : Nat
  kind : Nat
  defined : Bool
  ramp : List Nat
  deriving DecidableEq, Repr

/-- One class-table bank. -/
structure ClassBank where
  /-- A table is loaded; its id, its reference voltage and frequency, and its entries (Table 07-3). -/
  loaded : Bool
  id : Nat
  refMv : Nat
  refMhz : Nat
  entries : Tab ClassE
  deriving DecidableEq, Repr

/-- A grant a slice keeps: outstanding to the end of its third window, and busy from its window to an idle
notice (R311, R312). -/
structure Grant where
  tile : Nat
  ctx : Nat
  tag : Nat
  win : Nat
  src : Nat
  dflt : Bool
  debit : Nat
  st : List Nat
  /-- An idle notice has ended its busy count (R311). -/
  done : Bool
  deriving DecidableEq, Repr

/-- A parameter of the limiter loop: the value registered last, when it was, and the value before it (R48). -/
structure Staged where
  value : Nat
  at_ : Nat
  prev : Nat
  deriving DecidableEq, Repr

/-- The calendar and factors of one core domain in its slice. -/
structure SiloDom where
  /-- Booked power of the 128 windows of the calendar, by window modulo 128 (R323). -/
  book : Tab Nat
  /-- The level as it is registered (R325). -/
  nextLevel : Staged
  /-- The cap as it is registered, and the cap in force (R48). -/
  nextStep : Staged
  step : Nat
  /-- Energy and power factors in force. -/
  kvt : Nat
  kf : Nat
  /-- Grants, LIMIT waits and largest slip of the epoch (SILO_DOM_STAT). -/
  grants : Nat
  limitWaits : Nat
  maxSlip : Nat
  deriving DecidableEq, Repr

/-- One slice. -/
structure SliceS where
  /-- Grants outstanding or busy (R311, R312). -/
  grants : List Grant
  /-- Delegation in force, per context; entry 0 is the reserve's (R331). -/
  deleg : List Nat
  next : Option (List Nat)
  /-- Debited and waited energy of the epoch, per context (R332). -/
  debited : List Nat
  waited : List Nat
  /-- Requests whose CREDIT wait is counted in this epoch (R332). -/
  counted : List (Nat × Nat)
  /-- Grants and refusals of the epoch. -/
  granted : Nat
  refused : Nat
  /-- The captured report: debited and waited fields and busy tiles, and the flits of it that have been sent (R332). -/
  report : Option (List Nat × List Nat × List Nat)
  sent : Nat
  /-- The first half of a set of delegations (R337). -/
  half : Option (List Nat)
  /-- Grants are stopped (R327). -/
  stopped : Bool
  /-- A grant stop is in force since the last window boundary (R327). -/
  gs : Bool
  /-- Classes whose entry in the active bank has met an uncorrectable error (R751). -/
  badCls : List Nat
  /-- Replies on their way down, oldest first (R307). -/
  replies : List Reply
  /-- Requests that wait: tile, tag, context, reason of the last wait, and FT of the first (R677). -/
  waiting : List (Nat × Nat × Nat × Nat × Nat)
  /-- Context configuration words and tile map in force in the slice (R340, R343). -/
  cfg : Tab Nat
  tiles : Tab Nat
  deriving DecidableEq, Repr

/-- The hub Silo. -/
structure SiloHub where
  /-- The two banks of the class table (R318). -/
  bankA : ClassBank
  bankB : ClassBank
  /-- A verified load waits in the inactive bank, and a load or swap is in progress (R318). -/
  loading : Bool
  swapAt : Option Nat
  /-- FT of the last swap (R674). -/
  swapped : Nat
  /-- Last complete report of each die, and the entries of one that is coming in (R335). -/
  reports : List (Option (List Nat × List Nat))
  coming : List (List (Nat × Nat))
  /-- Attributed energy of the epoch and its remainder per context (R339), nJ and 1/16 nJ. -/
  charged : List Int
  chargedLast : List Int
  rem : List Nat
  /-- Delegations computed for each die, waiting to be sent (R337). -/
  out : List (Option (List Nat))
  /-- Shares that take effect at the next epoch boundary. -/
  shares : Option (List Nat)
  /-- a[c] and reserve of the last normal division (R342). -/
  lastA : List Nat
  lastR : List Nat
  normal : Bool
  /-- Pool figures registered in time, with the epochs they name (R333), and the pool of the current epoch (R297). -/
  posted : List (Nat × Nat)
  pool : Option Nat
  /-- The grant stop as it is registered (R48, R327). -/
  stopNext : Staged
  /-- The mode of the epoch that was divided (R342, R344). -/
  nextMode : Nat
  /-- Tile map in force in the hub; configuration words and tile map captured by the last division (R340). -/
  tileCtx : Tab Nat
  cfgNext : Option (Tab Nat × Tab Nat)
  /-- Waits of the current epoch per context. -/
  waits : List Nat
  /-- Firmware holds the grants stopped for a breakpoint drain (R578). -/
  drainStop : Bool
  /-- The last limiter window that was begun, and the epoch last divided. -/
  lastWin : Nat
  divided : Option Nat
  deriving DecidableEq, Repr

/-! ## Margin logic (08_droop_and_margin.md) -/

/-- The voltage command of a frequency raise (R398, R399): none, registered and not yet open, open, or ended before it
reached its target. -/
inductive RaiseCmd
  | none
  | waiting
  | open_
  | superseded
  | aborted
  deriving DecidableEq, Repr

/-- A PLL change of a domain (R354). -/
inductive PllS
  | idle
  /-- The VID rises first; then the PLLs go to `f`. Meanwhile they may still have to lock at a frequency commanded
  before. -/
  | raising (f : Nat) (lock : Option Nat)
  /-- The PLLs have been commanded to `f` and have not reported lock. -/
  | locking (f : Nat)
  deriving DecidableEq, Repr

structure MarginS where
  /-- Penumbra in force or the target of the transition (R352). -/
  pen : Nat
  /-- Mode a transition goes to. -/
  toMode : Nat
  /-- The margin order is out and the 256 ns have not passed (R374). -/
  waitSlew : Bool
  /-- When it went out. -/
  orderAt : Ft
  /-- Rate of the exit in progress, mV/us. -/
  rate : Nat
  /-- Frequency the VID is formed for (R354). -/
  fVid : Nat
  /-- The domain's PLL change (R354). -/
  pll : PllS
  /-- PLL_FREQ, in MHz, and PLL_REQ, which toggles at each command (R354, Table 22-1). -/
  pllFreq : Nat
  pllReq : Bool
  raise : RaiseCmd
  /-- Consecutive epochs of low confidence in mode 2 (R373). -/
  confLow : Nat
  /-- Epochs of hold left, and a hold that starts after the relaxing (R375). -/
  hold : Nat
  holdNext : Nat
  /-- Epochs in the mode, up to 1,024 (R372). -/
  stay : Nat
  /-- Threshold and pre-boost setting in force: the mode they belong to (R374). -/
  setting : Nat
  /-- The frequency and the mode request that the Hub last forwarded to the Relay (R353, R380). -/
  fReq : Nat
  modeReq : Nat
  /-- The last margin order of the Relay (Table 08-7), and whether it has crossed the chain. -/
  order : DWord
  ordSent : Bool
  deriving DecidableEq, Repr

/-! ## Regulator (09_regulator_control.md) -/

/-- A domain measurement record (Table 09-1). -/
structure Meas where
  tick : Nat
  v16 : Nat
  i16 : Nat
  phasesOn : Nat
  state : Nat
  valid : Bool
  ilim : Bool
  de : Bool
  slewing : Bool
  deriving DecidableEq, Repr

structure VrcDom where
  /-- Reference, 1/4096 mV (R397). -/
  refQ : Nat
  /-- Rate of the command in force, mV/us. -/
  rate : Nat
  /-- The target in force of R395 as it is registered (R48). -/
  tgt : Staged
  /-- Causes and rate registered since the last period, and those of the latest edge (R48, R396). -/
  causes : Nat
  causeRate : Nat
  late : Nat × Nat
  /-- The cap of the LG on the VID (R279). -/
  lgCap : Option Nat
  /-- Integrator, filtered derivative and last error of the loop (R400). -/
  integ : Int
  dfl : Int
  ePrev : Int
  /-- Output samples of the last period (R400). -/
  adcA : Nat
  adcB : Nat
  /-- Coefficient words in force; the registers are their shadows (R401). -/
  coef : List Nat
  /-- When a commit that still waits for its period boundary was registered (R401). -/
  commitAt : Option Nat
  /-- Boost targets of the last windows, newest first, and the boost in force (R378). -/
  boostTgts : List Nat
  boost : Nat
  /-- Summed-current averages scaled by 16 and 1,024 (R411). -/
  fastAcc : Int
  slowAcc : Int
  /-- Samples, newest first, at most 1,024 (VRC_DOM_REF). -/
  samples : List Nat
  /-- Periods since SOFTSTART was entered, in RUN, left in HICCUP, since the last shed. -/
  ssRun : Nat
  runRun : Nat
  hiccup : Nat
  shedWait : Nat
  /-- Consecutive periods: all phases truncated, reference still, under the UVP level; samples over OVP and stuck. -/
  limRun : Nat
  stillRun : Nat
  uvpRun : Nat
  ovpRun : Nat
  stuckRun : Nat
  overRun : Nat
  /-- Ages of the overvoltages of the last 125,000 periods (R423). -/
  ovpAges : List Nat
  /-- Overvoltage action in force. -/
  crowbar : Bool
  /-- Some phase was truncated in the last period (R411). -/
  ilimLast : Bool
  /-- The reference moved in the last period. -/
  moving : Int
  /-- Sums of the tick: periods, samples, currents, and the flags of Table 09-1. -/
  nPer : Nat
  vSum : Nat
  iSum : Int
  tIlim : Bool
  tDe : Bool
  tSlew : Bool
  tRun : Bool
  bad : Bool
  /-- Records formed and not yet at the Hub, oldest first (R73). -/
  out : List Meas
  /-- Tile switches still to open before STOPPING (R421). -/
  opening : Bool
  /-- The state left for STOPPING in this period, and whether a short has acted in it (R421, R424). -/
  stopFrom : Option Nat
  shortNow : Bool
  /-- A restore was wanted in the last period (R411). -/
  wantAdd : Bool
  /-- The phase reported over rating (R409). -/
  overPh : Option Nat
  /-- The edge at which the last period began (R388). -/
  perAt : Nat
  deriving DecidableEq, Repr

/-- A high-side pulse, in fine steps from the start of the last period: its rise and its width, and how long before the
rise and after the fall the low side is held low (R388). -/
structure Pulse where
  rise : Int
  width : Nat
  before : Nat
  after : Nat
  deriving DecidableEq, Repr

structure VrcPh where
  /-- The balancing accumulator (R403). -/
  acc : Nat
  /-- iavg scaled by 2^17 (R408). -/
  iAcc : Int
  /-- The last current sample and the run of equal ones. -/
  adc : Nat
  stuckRun : Nat
  /-- Ages of trips of the last 2^17 periods (R407). -/
  trips : List Nat
  /-- Periods before a re-start of a tripped phase (R407). -/
  wait : Nat
  /-- Truncated in this period, and truncated periods of the tick in progress (R406, Table 09-14). -/
  lim : Bool
  ilimRun : Nat
  /-- The pulse of the last period, and the one of the period before it, which may run past that period's end (R388). -/
  pulse : Option Pulse
  tail : Option Pulse
  /-- Fine steps in which the zero comparator keeps the low side low, the last one without an end yet (R413). -/
  zero : List (Int × Option Int)
  /-- The low side is driven. -/
  ls : Bool
  deriving DecidableEq, Repr

structure VrcSlice where
  /-- Periods in TRACK since the last trim (R429). -/
  track : Nat
  /-- The forwarded root is present. -/
  root : Bool
  /-- The tick of the last input-sense record the Relay registered (R402). -/
  inTick : Option Nat
  /-- The input voltage the feed-forward uses, 1/16 mV (R402). -/
  vin16 : Staged
  /-- The DCO's frequency before spread and its own trimmed frequency, ppm from 4 GHz (R428, R429). -/
  ppm : Int
  own : Int
  /-- Where the move in progress started, and its PWM periods (R428). -/
  moveFrom : Int
  moved : Nat
  /-- Periods since the minimum of the spread triangle, and the depth and rate it follows (R430). -/
  ssPos : Nat
  ssDepth : Nat
  ssKhz : Nat
  /-- How far the DCO's phase stands from the root's once RELOCK has reached its frequency, fine steps (R428). -/
  phase : Nat
  /-- The slice's array domain runs at arr_ret_mv: the last setpoint of R735 that reached it. -/
  ret : Bool
  deriving DecidableEq, Repr

/-! ## Estimator Array (04_power_estimation.md) -/

/-- One network record (Table 04-6). -/
structure Net where
  w1 : List Int
  b1 : List Int
  w2 : List Int
  b2 : Int
  gain : Nat
  psh1 : Nat
  psh2 : Nat
  ash : Nat
  inShift : Nat
  k : List Int
  y0 : Int
  m : List Int
  deriving DecidableEq, Repr

/-- One EA bank: leakage entries in order kind, row, column (`none`: the tables of the boot ROM), the factors a bundle
carried, the networks of an accepted bundle (`none` for an absent domain), and its source (R201). -/
structure EaBank where
  leak : Option (List Nat)
  factors : Option (List Nat)
  nets : Option (List (Option Net))
  src : Nat
  deriving DecidableEq, Repr

/-- What the EA keeps of a tile: the last valid term in nJ and its tick, the last valid active_64 and its tick, the
Sheaf of the tick now gathered, and the latest reading (R166-R173). -/
structure EaTile where
  lin : Option (Nat × Nat)
  act : Option (Nat × Nat)
  rx : Option (Nat × DWord)
  temp : Option Int
  /-- The latest valid reading, and the thermal step in which it was registered (R453). -/
  valid : Option (Nat × Int)
  deriving DecidableEq, Repr

/-- The data in force at a boundary, for the tick that begins there (R160): voltages, closed tiles, scales, offsets,
bank and EA_CTRL. -/
structure EaCap where
  tick : Nat
  mv : List Nat
  /-- Bit t: the switch of tile t is closed and the tile is not isolated. -/
  closed : Nat
  scale : List Nat
  loff : List Int
  bankB : Bool
  ctrl : Nat
  /-- EA_SUBST_CFG, and whether the EA runs on ROM data (R166, R201). -/
  subst : Nat
  rom : Bool
  /-- The tile map of the tick (R339). -/
  ctx : Tab Nat
  deriving DecidableEq, Repr

/-- Figures of one domain in a tick. -/
structure EaDom where
  e16 : Nat
  corr : Int
  leak : Nat
  share : List Int
  leaks : List Nat
  a16 : List Int
  subst : List Nat
  quality : Nat
  sat : Bool
  /-- M16 of the tick, `none` when the record is missing or invalid (R187, R202). -/
  meas : Option Nat
  deriving DecidableEq, Repr

/-- The figures of one tick. -/
structure EaRes where
  tick : Nat
  doms : List EaDom
  deriving DecidableEq, Repr

structure EaS where
  /-- The two banks (R194). -/
  bankA : EaBank
  bankB : EaBank
  /-- A swap is scheduled, or the previous bank is still in use (R194). -/
  swapAt : Option Nat
  busyTill : Nat
  /-- What is kept of each tile. -/
  tiles : Tab EaTile
  /-- Captures of the last boundaries, newest first. -/
  caps : List EaCap
  /-- The last tick evaluated, and the figures that wait for publication (R192). -/
  evalTick : Option Nat
  staged : Option EaRes
  /-- The last published figures. -/
  last : Option EaRes
  /-- Domain measurement records registered for the tick now gathered (R187). -/
  meas : Tab (Option Meas)
  /-- Domains whose record, and leakage entries that met an uncorrectable error in the evaluation (R200). -/
  bad : List Nat
  badLeak : List Nat
  /-- Latest reading of each bonded-memory sensor at the Hub, by 64 × die + sensor (R442). -/
  bmem : Tab (Option Int)
  /-- Sums of A16 (tiles) and E16 (array and uncore domains, from index 1,024) of the thermal step now published and
  of the last complete one (R186). -/
  stepSum : Tab Int
  lastStep : Tab Int
  /-- The number of the step whose sums are open. -/
  stepAt : Nat
  /-- Hidden remainders of EA_DOM_EACC (R163). -/
  rem : Tab Nat
  deriving DecidableEq, Repr

/-! ## Thermal model (10_thermal_management.md) -/

/-- One node of the network (Table 10-5). -/
structure TmeNode where
  cInv : Word
  gAmb : Word
  nb : List (Nat × Word)
  deriving DecidableEq, Repr

/-- One bank of thermal parameters (Table 10-4). -/
structure TmeBank where
  nSub : Nat
  tAmb : Word
  sens : Word
  kObs : Word
  modelId : Nat
  nodes : List TmeNode
  deriving DecidableEq, Repr

/-- What a step has computed and not yet shown (Table 10-3): its number, temperatures, largest residual, the tiles
newly suspect, whether suspect_clr applied, and whether the bank met an uncorrectable error (R460). -/
structure TmeOut where
  step : Nat
  t : List Word
  resid : Nat
  sus : List Nat
  clr : Bool
  ecc : Bool
  deriving DecidableEq, Repr

structure TmeS where
  /-- The two banks of parameters (R459); `none`: the boot ROM's. -/
  bankA : Option TmeBank
  bankB : Option TmeBank
  /-- The named tick of a scheduled swap (R459). -/
  swapAt : Option Nat
  /-- Node temperatures, binary32; empty before the first step (R456). -/
  t : List Word
  /-- Tick of the first step, and the number of the last step computed. -/
  first : Nat
  seen : Nat
  /-- Readings at the boundary of the step: tiles, then stacks (R453). -/
  meas : List (Option Int)
  /-- The bank of the step that ended; `none`: the boot ROM's (R459). -/
  par : Option TmeBank
  /-- Power of each stack, mW, summed over the ticks of the present step, and their number; those of the step that ended
  (R451). -/
  stkSum : List Nat × Nat
  stkLast : List Nat × Nat
  /-- What a forecast takes: its period, the node temperatures visible at F + 65,536 ns and the zone powers of the 64 steps
  that end at F (R461). -/
  fcIn : Option (Nat × List Int × List (Int × Int))
  /-- Bonded-memory readings received, by 64 × die + sensor, with the number of their step (R442). -/
  bmem : Tab (Nat × Option Int)
  /-- What a step has computed and not yet shown (Table 10-3). -/
  next : Option TmeOut
  /-- The active bank met an uncorrectable error (R460). -/
  ecc : Bool
  /-- Consecutive steps of deviation, and of one identical reading under changing power, by tile; the last reading and
  the last attributed energy of a step (R443). -/
  dev : Tab Nat
  same : Tab Nat
  lastR : Tab (Option Int)
  lastA : Tab Int
  /-- suspect_clr waits for the next step. -/
  clr : Bool
  /-- FT of the last report of t_amb (R454). -/
  ambAt : Ft
  /-- Zone power sums of the last 64 steps, newest first (R461). -/
  zone : List (Int × Int)
  /-- The forecast period last formed, whether one was committed in the present period, and the last period begun. -/
  formed : Option Nat
  committed : Bool
  /-- Cooling request, demand and count of R466. -/
  fcReq : Bool
  fcDem : Nat
  below : Nat
  /-- A derate in force: allowance, and the policy values of the firmware slots of L2 and L3 (R468). -/
  derate : Option (Nat × Nat × Nat)
  deriving DecidableEq, Repr

/-! ## Lending (11_budget_lending.md) -/

/-- A lending configuration (R474). -/
structure LendCfg where
  /-- Group number, own index, member count, cap in mW, shares in mW and the members' nodes (R474). -/
  group : Nat
  self : Nat
  n : Nat
  cap : Nat
  shares : List Nat
  nodes : List Nat
  deriving DecidableEq, Repr

/-- A lease: lent or borrowed, the other member, mW, and the ticks it starts and ends at (R479). -/
structure Lease where
  lent : Bool
  member : Nat
  amount : Nat
  start : Nat
  stop : Nat
  deriving DecidableEq, Repr

structure LendS where
  /-- The configuration in force (R474). -/
  cfg : LendCfg
  /-- Leases held, lent and borrowed (R479). -/
  leases : List Lease
  /-- The interval whose inputs are frozen, by number; its spare and want in mW (R487). -/
  interval : Nat
  spare : Nat
  want : Nat
  /-- Silo CREDIT waits counted up to the beginning of the present interval, and those of the last interval (R487). -/
  waits : Nat
  waitsLast : Nat
  /-- The offer has gone out, the claims and the grants are decided (Table 11-1). -/
  offered : Bool
  claimed : Bool
  decided : Bool
  /-- Offers received in time: member, spare, want. -/
  offers : List (Nat × Nat × Nat)
  /-- Claims sent to lenders and not yet answered; claims received; grants whose ACK waits. -/
  claims : List (Nat × Nat)
  rx : List (Nat × Nat)
  acks : List (Nat × Nat)
  /-- Messages sent in the interval: node and bytes (R491). -/
  tx : List (Nat × List Byte)
  /-- After a reset, firmware serves the group only from an interval after LG_L5_ADJ has read 0 (R725). -/
  adopt : Bool
  /-- Received messages that wait in the HIU for core 1, oldest first, at most 32 (R808). -/
  buf : List (List Byte)
  deriving DecidableEq, Repr

/-! ## Firmware complex (13_firmware_complex.md) -/

/-- An entry of the event log (Table 13-6): its FT, its core, and its number, which stands for what the image writes. -/
structure LogEv where
  ft : Ft
  core : Nat
  n : Nat
  deriving DecidableEq, Repr

/-- A core's freeze at its detection: cause, FT, and the event log, newest first (R559). -/
structure Frozen where
  core : Nat
  cause : Nat
  ft : Ft
  log : List LogEv
  deriving DecidableEq, Repr

/-- A crash dump (Table 13-7): what the block gives it, and the index from which its other bytes are free values. -/
structure Dump where
  core : Nat
  cause : Nat
  ft : Ft
  version : Nat
  seq : Nat
  free : Nat
  log : List LogEv
  deriving DecidableEq, Repr

/-- The boot record (R563): active region (true: B) and its hash, the pending ones, and the commit word. -/
structure BootRec where
  active : Bool
  hash : List Byte
  pending : Option (Bool × List Byte)
  /-- The commit word. -/
  commit : Nat
  deriving DecidableEq, Repr

structure FwcS where
  /-- FT of the last service of each watchdog, and the timeout in force, ms (R549). -/
  wdAt : List Nat
  wdTo : List Nat
  /-- FT of each core's last change of state (R677). -/
  since : List Nat
  /-- FTs of the crashes of the last 10 s of each control core, newest first (R556), and of each core's last
  detection. -/
  crashes : List (List Nat)
  detect : List Nat
  /-- Dumps being written, oldest first (R559); the two slots; dumps since POR. -/
  dumping : List Frozen
  dumps : List (Option Dump)
  seq : Nat
  /-- Crashed cores the supervisor still has to rebind (R553, R554). -/
  due : List Nat
  /-- Restarted cores whose tasks return, with the epoch in which each was ready (R555). -/
  returning : List (Nat × Nat)
  /-- The image regions (Table 13-2). -/
  imgA : List Byte
  imgB : List Byte
  /-- Bytes of the shared SRAM that a write through the view left where no image or log entry lies (Table 13-2, R584),
  by their offset. -/
  sram : Tab (Option Byte)
  /-- The boot record (R563). -/
  boot : BootRec
  /-- A boot image fetch runs (R564); bytes a management controller has delivered (R815). -/
  bootPend : Bool
  bootMgmt : List Byte
  /-- The last chunk of the Shadow image has been loaded. -/
  lastChunk : Bool
  /-- FT of entry to QUIESCING, and a supervisor failure since then (R572). -/
  updAt : Nat
  supFail : Bool
  /-- Status of the last authentication and of the last activation, for their packets. -/
  authDone : Option Nat
  actDone : Option Nat
  /-- The event log, newest first, at most 4,096 entries; entries written since its initialisation and in all (R558). -/
  elog : List LogEv
  elogAt : Nat
  elogSeq : Nat
  /-- The Reflection record that lies in the Granary, and records written (R569). -/
  refl : List Byte
  reflSeq : Nat
  deriving DecidableEq, Repr

/-! ## Power states (18_reset_states_bringup.md) -/

/-- The step of a power-state transition (R733-R737). -/
inductive PsPhase
  | rest
  /-- Grants stop and running commands drain. -/
  | drain
  /-- The domains go to 800 MHz. -/
  | lower
  /-- The domains stop on the way to Deep. -/
  | deep
  /-- The frequencies are restored on the way to Active. -/
  | raise
  /-- The domains start again on the way out of Deep. -/
  | wake
  deriving DecidableEq, Repr

structure PowerS where
  /-- The step of the transition in progress. -/
  phase : PsPhase
  /-- The grant stop of R733 holds. -/
  stop : Bool
  /-- FT at which the target of the exit in progress was registered: X of R737. -/
  x : Ft
  /-- Core domains the exit has still to start, and those it has started that are not yet in RUN. -/
  toStart : List Nat
  waking : List Nat
  /-- The array domains run at arr_ret_mv (R735), and the epoch cycle and Winnow are suspended (Table 18-4, R737). -/
  ret : Bool
  hold : Bool
  /-- FT at which the last of the uncore domains reached RUN (R741). -/
  uncoreAt : Option Nat
  deriving DecidableEq, Repr

/-! ## Self-test and memory protection (19_test_and_memory_protection.md) -/

structure BtcS where
  /-- Words known to be uncorrectable, and whether a retirement copied them as poisoned (R750, R754): SRAM, byte
  offset. -/
  bad : List (Nat × Nat × Bool)
  /-- Words in which an injection has flipped one bit that nobody has read yet: SRAM, byte offset (Table 12-6). -/
  weak : List (Nat × Nat)
  /-- The retirement that runs: SRAM, page, entry of BTC_RETIRE (R754). -/
  copy : Option (Nat × Nat × Nat)
  /-- Retired pages as the Granary lists them: entry, page (R756). -/
  retired : List (Nat × Nat)
  /-- Memory BIST has been run on request: it ends only at POR (R749). -/
  mbist : Bool
  /-- Fused signatures of the five partitions of Hub logic BIST (R746). -/
  lbist : List Nat
  deriving DecidableEq, Repr

/-! ## Resets (18_reset_states_bringup.md R720-R728) -/

structure RstS where
  /-- A package warm reset runs: its rail sequence since cycle 0, and its groups since step 4 (R722). -/
  warm : Bool
  groups : Bool
  deriving DecidableEq, Repr

/-! ## Clocks (17_clocks_and_crossings.md) -/

structure ClkS where
  /-- The PLL's reference (R694). -/
  ref : Option Nat
  /-- The root last commanded (Table 17-3), and whether with the Deep divisions. -/
  root : Nat
  deep : Bool
  /-- Islands stopped under R701: 0-5 of the Hub, 6 + 2 d and 7 + 2 d the engines and network islands of Relay d. -/
  stopped : List Nat
  /-- The root and divisions commanded while a switch runs (R696). -/
  next : Option (Nat × Bool)
  /-- A non-maskable interrupt waits for the firmware island, and has been delivered to the supervisor (R694). -/
  nmiWait : Bool
  nmi : Bool
  /-- Dies whose network island is gated (R705). -/
  netClosed : List Nat
  deriving DecidableEq, Repr

/-! ## Host interface unit (14_rings_and_negotiation.md, 15_control_packets.md) -/

/-- A control packet as firmware copied it: its source (ring 0-63, or 64 + endpoint ID on P4), the entry, the low bits
of the ring's consumer position after it was freed, and the payload buffer as fetched or carried (`none` after an
error status). -/
structure Pkt where
  src : Nat
  entry : List Byte
  subCons : Nat
  payload : Option (List Byte)
  /-- FT of the fetch, and the seq of the message that carried it on P4. -/
  at_ : Nat
  seq : Nat
  deriving DecidableEq, Repr

/-- What a completion of class B or H waits for (R634). -/
inductive Wait
  /-- A tick boundary, or an epoch boundary, by number. -/
  | tick (k : Nat)
  | epoch (k : Nat)
  /-- A thermal-step boundary. -/
  | step (k : Nat)
  /-- A bank swap of the EA, the class table or the TME that has taken place (R644). -/
  | swap (unit : Nat)
  /-- PLL lock of core domains at the frequencies that hold from epoch `k` on (R641). -/
  | pll (k : Nat) (doms : List Nat)
  /-- The end of a calibration (R642). -/
  | cal (tile : Nat)
  /-- A context drained, or freed (R638). -/
  | drained (c : Nat)
  | freed (c : Nat)
  /-- The request of FC_ISO_REQ has ended (R648). -/
  | iso
  /-- The end of an LBIST run for POST_LBIST, and whether it has begun (R654). -/
  | lbist (tile : Nat)
  /-- A control core ready or held (R654). -/
  | core (c : Nat)
  /-- Authentication of a Shadow image; commit or abandonment of an update (R650). -/
  | auth
  | act
  /-- A ceiling, or another fuse operation (R290, R776). -/
  | ceiling (c : Nat)
  | fuse
  /-- A bundle load by payload type (R644). -/
  | bundle (type : Nat)
  /-- A lending configuration at its X (R651). -/
  | group (x : Nat)
  /-- The end of a global stop (R683). -/
  | stop
  /-- Nothing: the packet has its outcome (class I). -/
  | none
  deriving DecidableEq, Repr

/-- How a packet ended: status, FT of its effect (0 for none), result and result-buffer bytes. -/
structure Outc where
  status : Nat
  applied : Nat
  result : List Byte
  buf : List Byte
  deriving DecidableEq, Repr

/-- A packet carried out and not yet completed: status and notes so far, whether its result ends in the tail of R632,
a number its result needs, and the outcome once it has one. -/
structure Job where
  pkt : Pkt
  wait : Wait
  status : Nat
  notes : Nat
  tail : Bool
  arg : Nat
  /-- FT at which firmware carried the packet out. -/
  at_ : Nat
  out : Option Outc
  deriving DecidableEq, Repr

/-- The answer to a HELLO (R603). -/
structure Neg where
  minor : Nat
  feats : Nat
  hb : Nat
  deriving DecidableEq, Repr

/-- A management session, by MCTP endpoint: the answer that waits for a COMMIT, and the committed minor, features,
profile and number (R602). -/
structure Mgmt where
  eid : Nat
  neg : Option Neg
  attached : Bool
  minor : Nat
  feats : Nat
  profile : Nat
  num : Nat
  deriving DecidableEq, Repr

/-- A request for a single-valued setting: code of Table 16-8 (others from 0x100), instance, rank of its master, the
boundary at which it takes effect, the value before that boundary and the one asked for (R293, R294, R633). -/
structure Claim where
  code : Nat
  inst : Nat
  rank : Nat
  at_ : Nat
  old : Nat
  new : Nat
  deriving DecidableEq, Repr

/-- A verified bundle on its way into an inactive bank (R644). -/
inductive Load
  | ea (b : EaBank)
  | tme (b : TmeBank)
  deriving DecidableEq, Repr

structure HiuS where
  /-- Packets fetched, checked and not yet started; packets whose checks of steps 2-5 wait for an earlier packet. -/
  fetched : List Pkt
  accepted : List Pkt
  /-- Packets carried out and not yet completed. -/
  jobs : List Job
  /-- The answer to the host's HELLO that waits for a COMMIT (R603). -/
  neg : Option Neg
  /-- Management sessions (R602). -/
  mgmt : List Mgmt
  /-- FT of the last COMMIT (R611). -/
  commitAt : Ft
  /-- Labels of contexts (R638). -/
  labels : Tab Nat
  /-- Interrupt vectors requested, oldest first (R598, R805). -/
  irqs : List Nat
  /-- Requests for single-valued settings (R293). -/
  claims : List Claim
  /-- A verified bundle on its way into a bank (R644). -/
  loading : Option Load
  /-- FT of the last write of DRAINING to each context, and of each ring's last stop (R677). -/
  drainAt : Tab Nat
  stopAt : Tab Nat
  /-- By requester (0 host, 1 management port, 2 TAP, 3 firmware): the latched high word and the held low word, each with
  its register (R23, R24), and the value its last read returned. -/
  latch : Tab (Option (Nat × Nat))
  held : Tab (Option (Nat × Nat))
  rdata : Tab Nat
  deriving DecidableEq, Repr

/-! ## Management port (22_port_signals_and_register_map.md) -/

/-- What the MPU sends: an MCTP message body to an endpoint, an answer to the Alert Response Address, CLEAR_FAULTS to a
converter. -/
inductive Tx
  | msg (eid : Nat) (bytes : List Byte)
  | ara (addr : Nat)
  | clearFaults (k : Nat)
  deriving DecidableEq, Repr

/-- A board converter: its VOUT_MODE and consecutive failed reads (R817, R818). -/
structure ConvS where
  mode : Option Nat
  fails : Nat
  deriving DecidableEq, Repr

structure MpuS where
  /-- What it has sent, oldest first. -/
  tx : List Tx
  /-- Arbitrations lost in the message it sends (R809). -/
  arbLost : Nat
  /-- Converters by address (R817). -/
  conv : Tab ConvS
  /-- The TAP is out of Test-Logic-Reset, its instruction (Table 22-7), what its data register captures next, and the
  update stage of the boundary register. -/
  tapOut : Bool
  tapIr : Nat
  tapDr : Nat
  bsr : BitVec 14
  deriving DecidableEq, Repr

/-! ## Lifecycle and fuses (20_lifecycle_and_security.md) -/

/-- What a fuse operation programs (R779): a ceiling slot, a transition record, a key slot's hash, a revocation of key
slot 0-7, the minimum security version, or an entry of the repair map. -/
inductive FuseKind
  | ceiling (c value : Nat)
  | transition (target : Nat)
  | key (slot : Nat) (hash : List Byte)
  | revoke (slot : Nat)
  | raise (svn : Nat)
  | repair (entry : Nat)
  deriving DecidableEq, Repr

/-- A fuse operation: what it programs, the requester's identity (R289), and the FT of its acceptance. -/
structure FuseOp where
  kind : FuseKind
  requester : Nat
  ft : Ft
  deriving DecidableEq, Repr

/-- A fused field as the shadow shows it after a failed parity check: register, lowest bit, width, fused value, value
shown (R777). -/
structure Masked where
  off : Nat
  lo : Nat
  width : Nat
  fused : Nat
  shown : Nat
  deriving DecidableEq, Repr

/-- The secrets of R758: the shadow of the device-unique secret, the LFC's key registers, and the working registers of the
hash and signature engine. -/
structure Secrets where
  unique : BitVec 384
  keys : BitVec 384
  engine : BitVec 384
  deriving DecidableEq, Repr

/-- The LFC beside its registers. -/
structure LfcS where
  /-- The operation in progress; one that has ended and takes effect at the next tick boundary (R290, R767), whether
  its verification held, and the tick of its end. -/
  op : Option FuseOp
  due : Option (FuseOp × Bool × Nat)
  /-- Status of the operation that ended last, for the packet that waits for it. -/
  done : Option Nat
  /-- The request counter of the nonce (R774). -/
  reqs : Nat
  /-- Key and revocation records used, of 8 each (R769, R770). -/
  keyRecs : Nat
  revRecs : Nat
  /-- A transition record failed its parity check at load (R777). -/
  lcBad : Bool
  /-- Entries of the fused repair map that are programmed (R747). -/
  repairs : List Nat
  /-- Fuse words that BIST masks (R777). -/
  masked : List Masked
  secrets : Secrets
  deriving DecidableEq, Repr

end Sys2Proof.Machine
end

