-- ==== Sys2Proof/Machine/State.lean ====
section
/-! DEFINITION. The state of the block: the register window, every unit's state outside it, the memories and the
queue of commands; and the state after reset. -/
namespace Sys2Proof.Machine

/-- How a command could stop the machine. No command does: every fault of the block is state (12_faults_and_isolation.md).
Marks: DESIGN CHOICE, log entry 112. -/
inductive Fault
  /-- Raised by nobody: the block's faults are recorded by its Fault Collector. Safe. -/
  | none
  deriving DecidableEq, Repr

/-- Why a command is turned away.
Marks: DESIGN CHOICE, log entry 112. -/
inductive Refusal
  /-- Raised by the dispatcher for a row without a meaning. Safe. -/
  | notModelled (mnemonic : String)
  deriving DecidableEq, Repr

/-- The block: its registers and every unit's state. -/
structure Block where
  /-- Registers that differ from their reset value, by window offset (R825). -/
  win : Tab DWord
  time : TimeS
  links : Tab LinkS
  posts : Tab PostS
  tiles : Tab RelTile
  relays : Tab RelayS
  chains : Tab ChainS
  /-- Hops of the chains, by core domain (R142-R146). -/
  wires : Tab ChWire
  wce : WceS
  fc : FcS
  /-- The fuse shadow (20_lifecycle_and_security.md). -/
  shadow : Shadow
  ttu : TtuS
  lg : LgS
  therm : Tab ThermS
  silo : SiloHub
  slices : Tab SliceS
  sdoms : Tab SiloDom
  margins : Tab MarginS
  vdoms : Tab VrcDom
  vphs : Tab VrcPh
  vslices : Tab VrcSlice
  ea : EaS
  power : PowerS
  clk : ClkS
  rst : RstS
  btc : BtcS
  tme : TmeS
  lend : LendS
  fwc : FwcS
  hiu : HiuS
  mpu : MpuS
  lfc : LfcS
  /-- The words of LG_MARGIN_CFG, LG_MARGIN_PEN, LG_MARGIN_LANT and LG_PB_CFG in force in each Relay (R380). -/
  marginCfg : List (List Nat)
  /-- Index of the next free value (the model's own, log entry 1). -/
  freeCounter : Nat
  deriving DecidableEq, Repr

/-- The machine: the block, the ring region of the host's memory, and the queue of commands that wait. -/
structure State where
  block : Block
  /-- The ring region as the block's DMA writes left it, by byte offset; bytes it has not written are not listed. -/
  mem : Tab Byte
  /-- Commands waiting, first in, first out (the model's own). -/
  pending : List Instr
  deriving DecidableEq, Repr

/-! ## What an unlisted instance reads as -/

def TimeS.reset : TimeS := ⟨0, false, false, 0, [], false, 0, 0, .none, 0, 0, 0, 0, false, []⟩

/-- No credit before training (R67). -/
def SbDir.reset : SbDir := ⟨⟨[0, 0, 0, 0], [0, 0, 0, 0]⟩, [], none, [0, 0, 0, 0]⟩

def LinkS.reset : LinkS := ⟨.down, 0, 0, SbDir.reset, SbDir.reset, [], 0, 0, false, false, [], []⟩

/-- At reset each hop holds credits equal to its neighbour's buffer (Table 03-5, R146). -/
def ChWire.reset : ChWire := ⟨List.replicate 32 ⟨[4, 4, 16, 4, 8], [0, 0, 0, 0, 0]⟩, 0, 0, none, none, [], []⟩

def Bank.reset : Bank := ⟨List.replicate 32 0, 0⟩

/-- Marks: DESIGN CHOICE, log entry 116. -/
def DigCh.reset : DigCh := ⟨0, true, 0⟩

/-- A Post that is unpowered, or that a Post reset leaves (R726).
Marks: DESIGN CHOICE, log entry 111. -/
def PostS.reset : PostS where
  powered := false
  inReset := false
  lbist := false
  segs := 0
  open_ := true
  running := 0
  tag := 0
  ctx := 0
  cls := 0
  dflt := false
  counts := List.replicate 32 0
  launch := (0, 0)
  segCounts := List.replicate 32 0
  latchCounts := List.replicate 32 0
  snapCounts := List.replicate 32 0
  bankA := Bank.reset
  bankB := Bank.reset
  rem := 0
  eaccSheaf := 0
  items := []
  togRem := 0
  ch0 := DigCh.reset
  ch1 := DigCh.reset
  hist := List.replicate 4 (List.replicate 8 0)
  histDone := List.replicate 32 0
  epochsLeft := 1
  sheafs := []
  formed := 0
  trace := []
  traceLost := 0
  faults := []
  faultPend := []
  faultsSent := 0
  kacc := List.replicate 32 0
  kcap := List.replicate 32 0
  probFlag := false
  upFlag := false
  holdTicks := 0
  glints := 0
  firstOff := 0
  deep := false
  primary := false
  deepReq := false
  byDeep := false
  after4 := false
  strHold := 0
  lgStretch := 0
  stuck := 0
  cal := .idle
  reqs := []
  pres := []
  grants := []
  pn0 := 0
  upWait := []
  resp := []
  gate := false
  closePend := false
  opening := false
  openAt := 0
  kv := 16384
  segKv := 16384
  tickBank := false
  seq := 0
  summary := none
  reg := none
  closing := false
  tempRead := none
  pubs := []
  resid := [1]
  digs := []

def RelTile.reset : RelTile := ⟨false, none, none, 0, false, 0, none, false⟩

/-- Marks: DESIGN CHOICE, log entry 111. -/
def RelayS.reset : RelayS where
  strobe := 0
  epochFt := 0
  fifo := []
  merging := true
  bankSel := false
  faults := []
  faultPend := []
  overflow := none
  overTick := 0
  vc3 := []
  vc3Fill := 0
  vc3Lost := 0
  digCfg := none
  bmem := List.replicate 64 none
  bmemTrip := 0
  thermalDue := none
  lgActs := []
  act := ⟨0, 0, false⟩
  inHeld := []
  parked := []
  ceilHeld := none

def ChainS.reset : ChainS :=
  ⟨[], 0, false, [], List.replicate 32 0, 0, false, false, 0, none, none, List.replicate 16 0, 0, [], (0, 0)⟩

/-- Marks: DESIGN CHOICE, log entry 111. -/
def FcS.reset : FcS := ⟨[], none, [], [], [], [], [], none, 0, 0, 0, 0, none, [0, 0, 0, 0, 16, 0], 0, [0, 0, 0, 0, 16, 0], [], [], [], false, [], [], []⟩

/-- The contents of a part whose fuses hold the values of log entry 3.
Marks: DESIGN CHOICE, log entry 3. -/
def Shadow.reset : Shadow := ⟨[], [], [], 0, 0⟩

def TraceT.reset : TraceT := ⟨none, none, 0, []⟩

def TelS.reset : TelS := ⟨0, 0, 0, 0, [], [], [], none, none⟩

def CntS.reset : CntS := ⟨0, [], [], [], [], [], List.replicate 72 0⟩

def TtuS.reset : TtuS := ⟨[], [], [], [], [], [], [], [], [], [0, 0, 0, 0], [], [], [], [], [], [], CntS.reset⟩

/-- acc[n] holds thr_default[n] << sh[n] at POR (R264). -/
def LgS.reset : LgS where
  acc := [1300000 <<< 13, 1050000 <<< 20, 950000 <<< 23]
  excess := 0
  under := 0
  restoring := false
  lowRun := 0
  adj := 0
  adjWrite := none
  thrs := []
  evalTick := none
  recs := List.replicate 4 none
  hot := false
  tripped := false
  sent := ⟨0, 0, false⟩
  lastP := 0
  stackRead := []
  polled := []
  stackCool := List.replicate 24 0
  stackNow := 0

def Row.reset : Row := ⟨0, 0⟩

def ThermS.reset : ThermS :=
  ⟨List.replicate 16 Row.reset, Row.reset, Row.reset, List.replicate 16 none, List.replicate 16 false, false,
    List.replicate 16 false⟩

def ClassE.reset : ClassE := ⟨0, 0, 0, false, List.replicate 8 0⟩

def ClassBank.reset : ClassBank := ⟨false, 0, 750, 2000, []⟩

def SiloDom.reset : SiloDom := ⟨[], ⟨0, 0, 0⟩, ⟨16, 0, 16⟩, 16, 16384, 16384, 0, 0, 0⟩

def SliceS.reset : SliceS where
  grants := []
  deleg := List.replicate 64 0
  next := none
  debited := List.replicate 64 0
  waited := List.replicate 64 0
  counted := []
  granted := 0
  refused := 0
  report := none
  sent := 0
  half := none
  stopped := false
  gs := false
  badCls := []
  replies := []
  waiting := []
  cfg := []
  tiles := []

def SiloHub.reset : SiloHub where
  swapped := 0
  bankA := ClassBank.reset
  bankB := ClassBank.reset
  loading := false
  swapAt := none
  reports := List.replicate 4 none
  coming := List.replicate 4 []
  charged := List.replicate 64 0
  chargedLast := List.replicate 64 0
  rem := List.replicate 64 0
  out := List.replicate 4 none
  shares := none
  lastA := List.replicate 64 0
  lastR := List.replicate 4 0
  normal := false
  posted := []
  pool := none
  stopNext := ⟨0, 0, 0⟩
  nextMode := 2
  tileCtx := []
  cfgNext := none
  waits := List.replicate 64 0
  drainStop := false
  lastWin := 0
  divided := none

/-- Marks: DEDUCED, log entry 121. -/
def MarginS.reset : MarginS where
  pen := 60
  toMode := 0
  waitSlew := false
  orderAt := 0
  rate := 5
  fVid := 1000
  pll := .idle
  pllFreq := 1000
  pllReq := false
  raise := .none
  confLow := 0
  hold := 0
  holdNext := 0
  stay := 0
  setting := 0
  fReq := 1000
  modeReq := 0
  order := 0x6420000000000000
  ordSent := true

/-- The coefficients of Table 09-4 are in force after POR (R435). -/
def VrcDom.reset (d : Nat) : VrcDom where
  refQ := 0
  rate := 5
  tgt := ⟨750, 0, 750⟩
  causes := 0
  causeRate := 0
  late := (0, 0)
  lgCap := none
  integ := 0
  dfl := 0
  ePrev := 0
  adcA := 0
  adcB := 0
  coef := if d < 64 then [0x01000010, 0x0400C010, 0xC0081000, 0x0606 + 16 * (d % 16) * 0x10000]
    else [0x00C0000C, 0x0300C010, 0xC0081000, 0x0606 + 16 * (d % 16) * 0x10000]
  commitAt := none
  boostTgts := []
  boost := 0
  fastAcc := 0
  slowAcc := 0
  samples := []
  ssRun := 0
  runRun := 0
  hiccup := 0
  shedWait := 0
  limRun := 0
  stillRun := 0
  uvpRun := 0
  ovpRun := 0
  stuckRun := 0
  overRun := 0
  ovpAges := []
  crowbar := false
  ilimLast := false
  moving := 0
  nPer := 0
  vSum := 0
  iSum := 0
  tIlim := false
  tDe := false
  tSlew := false
  tRun := true
  bad := false
  out := []
  opening := false
  stopFrom := none
  shortNow := false
  wantAdd := false
  overPh := none
  perAt := 0

def VrcPh.reset : VrcPh := ⟨0, 0, 256, 0, [], 0, false, 0, none, none, [], false⟩

def VrcSlice.reset : VrcSlice := ⟨0, false, none, ⟨28800, 0, 28800⟩, 0, 0, 0, 0, 0, 0, 60, 0, false⟩

def WSums.zero : WSums := ⟨0, 0, 0, 0, 0, 0, false, false⟩

def WInst.reset : WInst := ⟨List.replicate 34 0, List.replicate 595 0, 0, 0, 0, 0, none, 0⟩

def WceS.reset : WceS where
  insts := []
  factory := none
  factoryFlag := false
  digCfg := 0
  pendingSet := none
  pubSeen := 0
  delay := 64
  enter := 192
  pendingRestore := []
  results := []
  resultEpoch := 0
  updated := 0
  inForce := none
  formed := []
  setDue := false
  released := none
  recs := []
  sums := []
  switched := []

def EaBank.reset : EaBank := ⟨none, none, none, 0⟩

def EaTile.reset : EaTile := ⟨none, none, none, none, none⟩

def EaS.reset : EaS where
  bankA := EaBank.reset
  bankB := EaBank.reset
  swapAt := none
  busyTill := 0
  tiles := []
  caps := []
  evalTick := none
  staged := none
  last := none
  meas := []
  bad := []
  badLeak := []
  bmem := []
  stepSum := []
  lastStep := []
  stepAt := 0
  rem := []

def TmeS.reset : TmeS where
  bankA := none
  bankB := none
  swapAt := none
  t := []
  first := 0
  seen := 0
  meas := []
  par := none
  stkSum := ([], 0)
  stkLast := ([], 0)
  fcIn := none
  bmem := []
  next := none
  ecc := false
  dev := []
  same := []
  lastR := []
  lastA := []
  clr := false
  ambAt := 0
  zone := []
  formed := none
  committed := false
  fcReq := true
  fcDem := 100
  below := 0
  derate := none

def LendCfg.none : LendCfg := ⟨0, 0, 0, 0, [], []⟩

def LendS.reset : LendS := ⟨LendCfg.none, [], 0, 0, 0, 0, 0, false, false, false, [], [], [], [], [], false, []⟩

def BootRec.reset : BootRec := ⟨false, [], none, 0⟩

def FwcS.reset : FwcS where
  wdAt := [0, 0, 0, 0, 0]
  wdTo := [10, 10, 10, 10, 100]
  since := [0, 0, 0, 0, 0]
  crashes := [[], [], [], []]
  detect := [0, 0, 0, 0, 0]
  dumping := []
  dumps := [none, none]
  seq := 0
  due := []
  returning := []
  imgA := []
  imgB := []
  sram := []
  boot := BootRec.reset
  bootPend := false
  bootMgmt := []
  lastChunk := false
  updAt := 0
  supFail := false
  authDone := none
  actDone := none
  elog := []
  elogAt := 0
  elogSeq := 0
  refl := []
  reflSeq := 0

def PowerS.reset : PowerS := ⟨.rest, false, 0, [], [], false, false, none⟩

def BtcS.reset : BtcS := ⟨[], [], none, [], false, [0, 0, 0, 0, 0]⟩

/-- From POR the root is the ring oscillator (R693). -/
def ClkS.reset : ClkS := ⟨none, 2, false, [], none, false, false, []⟩

def RstS.reset : RstS := ⟨false, false⟩

def HiuS.reset : HiuS := ⟨[], [], [], none, [], 0, [], [], [], none, [], [], [], [], []⟩

def MpuS.reset : MpuS := ⟨[], 0, [], false, 1, 0, 0⟩

/-- Every secret register at zero: before the fuse shadow is loaded, and zeroised (R759, R766). -/
def Secrets.zero : Secrets := ⟨0, 0, 0⟩

def LfcS.reset : LfcS := ⟨none, none, none, 0, 0, 0, false, [], [], Secrets.zero⟩

/-- The block right after POR, with the fuses of an unprogrammed part (log entry 3).
Marks: DESIGN CHOICE, log entries 3 and 111. -/
def Block.reset : Block where
  win := []
  time := TimeS.reset
  links := []
  posts := []
  tiles := []
  relays := []
  chains := []
  wires := []
  wce := WceS.reset
  fc := FcS.reset
  shadow := Shadow.reset
  ttu := TtuS.reset
  lg := LgS.reset
  therm := []
  silo := SiloHub.reset
  slices := []
  sdoms := []
  margins := []
  vdoms := []
  vphs := []
  vslices := []
  ea := EaS.reset
  power := PowerS.reset
  clk := ClkS.reset
  rst := RstS.reset
  btc := BtcS.reset
  tme := TmeS.reset
  lend := LendS.reset
  fwc := FwcS.reset
  hiu := HiuS.reset
  mpu := MpuS.reset
  lfc := LfcS.reset
  marginCfg := List.replicate 4 ([0x9400, 0x9404, 0x9408, 0x940C].map fun o => (resetWord o).toNat)
  freeCounter := 0

/-- The machine right after reset: POR, and no command waits.
Marks: DESIGN CHOICE, log entry 111. -/
def State.reset : State := ⟨Block.reset, [], []⟩

end Sys2Proof.Machine
end

