-- ==== Sys2Proof/Machine/Ops.lean ====
section
/-! DEFINITION. Named operations on the state: registers and fields, per-instance state, time, free values. -/
namespace Sys2Proof.Machine
open Sys2Proof

/-! ## Registers -/

/-- A register of the window (R21). -/
def Block.reg (s : Block) (off : Nat) : DWord := Tab.get resetWord s.win off

/-- Store a register of the window. -/
def Block.setReg (s : Block) (off : Nat) (v : DWord) : Block := { s with win := Tab.set resetWord s.win off v }

/-- A register field. -/
def Block.fld (s : Block) (f : Fld) : Nat := getBits (s.reg f.off).toNat f.lo f.width

/-- A register field as a signed number. -/
def Block.fldI (s : Block) (f : Fld) : Int := toSigned f.width (s.fld f)

/-- A one-bit field as a Boolean. -/
def Block.flag (s : Block) (f : Fld) : Bool := s.fld f != 0

/-- Write a register field. -/
def Block.setFld (s : Block) (f : Fld) (v : Nat) : Block :=
  s.setReg f.off (BitVec.ofNat 64 (putBits (s.reg f.off).toNat f.lo f.width v))

/-- Write a signed register field, saturating. -/
def Block.setFldS (s : Block) (f : Fld) (v : Int) : Block := s.setFld f (ofSigned f.width (satS f.width v))

/-- Write a field, saturating at its top (R13). -/
def Block.setSat (s : Block) (f : Fld) (v : Nat) : Block := s.setFld f (satU f.width v)

/-- Add to a saturating counter field (R13). -/
def Block.incSat (s : Block) (f : Fld) (n : Nat := 1) : Block := s.setSat f (s.fld f + n)

/-- Add to a wrapping counter field (R13). -/
def Block.incWrap (s : Block) (f : Fld) (n : Nat := 1) : Block := s.setFld f (s.fld f + n)

/-- Set bit `k` of a map register field. -/
def Block.setMapBit (s : Block) (f : Fld) (k : Nat) (b : Bool) : Block := s.setFld f (setBit (s.fld f) k b)

/-- A margin setting in force in the Relay of die `d`: a change of its register takes effect at the next epoch boundary
(R380). -/
def Block.mfld (s : Block) (d : Nat) (f : Fld) : Nat :=
  getBits ((s.marginCfg.getD d []).getD ((f.off - 0x9400) / 4) 0) f.lo f.width

/-! ## Instances -/

def Block.link (s : Block) (d : Nat) : LinkS := Tab.get (fun _ => LinkS.reset) s.links d
def Block.setLink (s : Block) (d : Nat) (l : LinkS) : Block :=
  { s with links := Tab.set (fun _ => LinkS.reset) s.links d l }
def Block.post (s : Block) (t : Nat) : PostS := Tab.get (fun _ => PostS.reset) s.posts t
def Block.setPost (s : Block) (t : Nat) (p : PostS) : Block :=
  { s with posts := Tab.set (fun _ => PostS.reset) s.posts t p }
def Block.tile (s : Block) (t : Nat) : RelTile := Tab.get (fun _ => RelTile.reset) s.tiles t
def Block.setTile (s : Block) (t : Nat) (r : RelTile) : Block :=
  { s with tiles := Tab.set (fun _ => RelTile.reset) s.tiles t r }
def Block.relay (s : Block) (d : Nat) : RelayS := Tab.get (fun _ => RelayS.reset) s.relays d
def Block.setRelay (s : Block) (d : Nat) (r : RelayS) : Block :=
  { s with relays := Tab.set (fun _ => RelayS.reset) s.relays d r }
def Block.chain (s : Block) (n : Nat) : ChainS := Tab.get (fun _ => ChainS.reset) s.chains n
def Block.setChain (s : Block) (n : Nat) (c : ChainS) : Block :=
  { s with chains := Tab.set (fun _ => ChainS.reset) s.chains n c }

def Block.thermS (s : Block) (d : Nat) : ThermS := Tab.get (fun _ => ThermS.reset) s.therm d
def Block.setTherm (s : Block) (d : Nat) (t : ThermS) : Block :=
  { s with therm := Tab.set (fun _ => ThermS.reset) s.therm d t }
def Block.slice (s : Block) (d : Nat) : SliceS := Tab.get (fun _ => SliceS.reset) s.slices d
def Block.setSlice (s : Block) (d : Nat) (x : SliceS) : Block :=
  { s with slices := Tab.set (fun _ => SliceS.reset) s.slices d x }
def Block.sdom (s : Block) (n : Nat) : SiloDom := Tab.get (fun _ => SiloDom.reset) s.sdoms n
def Block.setSdom (s : Block) (n : Nat) (x : SiloDom) : Block :=
  { s with sdoms := Tab.set (fun _ => SiloDom.reset) s.sdoms n x }
def Block.margin (s : Block) (n : Nat) : MarginS := Tab.get (fun _ => MarginS.reset) s.margins n
def Block.setMargin (s : Block) (n : Nat) (x : MarginS) : Block :=
  { s with margins := Tab.set (fun _ => MarginS.reset) s.margins n x }
def Block.vdom (s : Block) (d : Nat) : VrcDom := Tab.get VrcDom.reset s.vdoms d
def Block.setVdom (s : Block) (d : Nat) (x : VrcDom) : Block := { s with vdoms := Tab.set VrcDom.reset s.vdoms d x }
def Block.vph (s : Block) (p : Nat) : VrcPh := Tab.get (fun _ => VrcPh.reset) s.vphs p
def Block.setVph (s : Block) (p : Nat) (x : VrcPh) : Block :=
  { s with vphs := Tab.set (fun _ => VrcPh.reset) s.vphs p x }
def Block.vslice (s : Block) (d : Nat) : VrcSlice := Tab.get (fun _ => VrcSlice.reset) s.vslices d
def Block.setVslice (s : Block) (d : Nat) (x : VrcSlice) : Block :=
  { s with vslices := Tab.set (fun _ => VrcSlice.reset) s.vslices d x }

def Block.eaTile (s : Block) (t : Nat) : EaTile := Tab.get (fun _ => EaTile.reset) s.ea.tiles t
def Block.setEaTile (s : Block) (t : Nat) (x : EaTile) : Block :=
  { s with ea := { s.ea with tiles := Tab.set (fun _ => EaTile.reset) s.ea.tiles t x } }

/-- Fold an operation over a list of instances. -/
def Block.forAll {α : Type} (s : Block) (l : List α) (f : Block → α → Block) : Block := l.foldl f s

/-! ## Time (02_fabric_time_and_ticks.md) -/

/-- The CTU's time state: 0 ACQUIRING, 1 LOCKED, 2 HOLDOVER, 3 FREE (R84). -/
def Block.timeState (s : Block) : Nat := s.fld F.CTU_FT_STATUS_state

/-- The edge now, by the count that also runs in ACQUIRING. -/
def Block.edge (s : Block) : Nat := s.time.count.toNat

/-- A value is registered at the edge `t` (R48). -/
def Staged.put (x : Staged) (v t : Nat) : Staged := if x.at_ = t then { x with value := v } else ⟨v, t, x.value⟩

/-- The value a boundary at the edge `b` puts in force: one registered at that very edge waits for the next (R48). -/
def Staged.due (x : Staged) (b : Nat) : Nat := if x.at_ < b then x.value else x.prev

/-- FT as the block reads it: 0 in ACQUIRING (R84, R104). -/
def Block.ft (s : Block) : Ft := if s.timeState = 0 then 0 else s.time.count

/-- FT as a number. -/
def Block.now (s : Block) : Nat := s.ft.toNat

/-- The tick number of the present FT (R96). -/
def Block.tick (s : Block) : Nat := s.now / 1024

/-- An access of Table 20-3 is open. -/
def Block.access (s : Block) (b : Nat) : Bool := bit (s.fld F.LFC_ACCESS_access) b

/-- The chip rests in Deep (Table 18-4). -/
def Block.inDeep (s : Block) : Bool := s.fld F.HUB_PSTATE_STATUS_state == 5

/-- The count moves on to `c`, and with it what counts at its rate (R82, R92, R828). -/
def Block.countTo (s : Block) (c : Nat) : Block :=
  let d := c - s.time.count.toNat
  { s with time := { s.time with
    count := BitVec.ofNat 64 c, timer := s.time.timer + d, since := s.time.since + d } }

/-- A stamped event registers at FT `at`: the count moves there, never backwards and never across the next tick
boundary, which TICK_BOUNDARY alone presents (R83, R96). In Deep it moves in steps of 8 (R82). Before a marker has loaded
it, it counts the ns of ACQUIRING (R84).
Marks: DESIGN CHOICE, log entry 5. -/
def Block.advance (s : Block) (at_ : Ft) : Block :=
  let to_ := if s.inDeep then at_.toNat / 8 * 8 else at_.toNat
  if to_ ≤ s.time.count.toNat then s
  else
    let next := (s.time.count.toNat / 1024 + 1) * 1024
    s.countTo (if s.time.ticking then max s.time.count.toNat (min to_ (next - if s.inDeep then 8 else 1)) else to_)

/-- FT as the copy of die `d`'s Relay has it (R92, R101); 0 in ACQUIRING (R85).
Marks: DEDUCED, log entry 124. -/
def Block.relayFt (s : Block) (d : Nat) : Ft :=
  if s.timeState = 0 then 0 else BitVec.ofNat 64 ((s.relay d).strobe.toNat + s.time.since)

/-- A stamp of a Post of die `d`: 4 ns resolution (R93). -/
def Block.postStamp (s : Block) (d : Nat) : Ft := BitVec.ofNat 64 ((s.relayFt d).toNat / 4 * 4)

/-- The Beacon's tick strobe: every Relay's copy takes the count (R92, R94).
Marks: DEDUCED, log entry 124. -/
def Block.strobe (s : Block) : Block :=
  let s := { s with time := { s.time with since := 0 } }
  s.forAll (List.range 4) fun s d => s.setRelay d { s.relay d with strobe := s.time.count }

/-- The Beacon delivers the FT of the next epoch boundary (R92).
Marks: DEDUCED, log entry 124. -/
def Block.epochFt (s : Block) : Block :=
  s.forAll (List.range 4) fun s d =>
    s.setRelay d { s.relay d with epochFt := BitVec.ofNat 64 ((s.time.epoch + 1) * 16384) }

/-- Expand a short stamp of `w` bits to the largest value not later than `own` (R102). -/
def expandStamp (w own short : Nat) : Nat :=
  let cand := own / 2 ^ w * 2 ^ w + short % 2 ^ w
  if cand ≤ own then cand else cand - 2 ^ w

/-! ## Free values (log entry 1) -/

/-- The next free value and the state that has used it.
Marks: DESIGN CHOICE, log entry 1. -/
def Block.free (s : Block) : DWord × Block :=
  (Config.freeValue s.freeCounter, { s with freeCounter := s.freeCounter + 1 })

/-! ## Injections in force (R522) -/

/-- The stimulus at a detector: mode and param. -/
def Block.stim (s : Block) (det inst : Nat) : Option (Nat × Nat) :=
  match s.fc.stims.find? fun (x : Nat × Nat × Nat × Nat) => x.1 == det && x.2.2.1 == inst with
  | some (_, m, _, p) => some (m, p)
  | none => none

/-- Data bytes of an SRAM, 0 for an instance that does not exist. -/
def sramSize (n : Nat) : Nat :=
  if n = 0 ∨ n = 5 then 2097152
  else if n = 1 then 262144
  else if n = 2 then 196608
  else if n = 3 ∨ (0x10 ≤ n ∧ n < 0x14) then 131072
  else if n = 4 then 163840
  else if n = 6 then 65536
  else if 0x14 ≤ n ∧ n < 0x18 then 32768
  else 0

/-- Replace or remove the stimulus at a detector. -/
def Block.setStim (s : Block) (det inst : Nat) (v : Option (Nat × Nat)) : Block :=
  let l := s.fc.stims.filter fun (x : Nat × Nat × Nat × Nat) => !(x.1 == det && x.2.2.1 == inst)
  { s with fc := { s.fc with stims := match v with | some (m, p) => l ++ [(det, m, inst, p)] | none => l } }

/-- What a detector does under an injection: its records carry injected = 1. -/
def Block.injecting (s : Block) (on : Bool) (f : Block → Block) : Block :=
  if on then
    let s' := f { s with fc := { s.fc with inj := true } }
    { s' with fc := { s'.fc with inj := false } }
  else f s

end Sys2Proof.Machine
end

