-- ==== Sys2Proof/Machine/Emit.lean ====
section
/-! DEFINITION. The TTU's counters and the entries it forms (16_telemetry_trace_debug.md). -/
namespace Sys2Proof.Machine
open Sys2Proof

/-- The default of a counter table. -/
def zeroN (_ : Nat) : Nat := 0

/-- The default of a table of signed sums. -/
def zeroI (_ : Nat) : Int := 0

/-- Add to a table of counters. -/
def bump (t : Tab Nat) (i n : Nat) : Tab Nat := Tab.set zeroN t i (Tab.get zeroN t i + n)

/-- Add to a 64-bit free-running counter (R661). -/
def bump64 (t : Tab Nat) (i n : Nat) : Tab Nat := Tab.set zeroN t i ((Tab.get zeroN t i + n) % 2 ^ 64)

/-- Package counter `i` of Table 16-4. -/
def Block.cntPkg (s : Block) (i : Nat) (n : Nat := 1) : Block :=
  { s with ttu := { s.ttu with pkg := bump64 s.ttu.pkg i n } }

/-- Tile counter `k` (energy_nj, attr_nj, active, glints) of set 1. -/
def Block.cntTile (s : Block) (t k n : Nat) : Block :=
  { s with ttu := { s.ttu with tiles := bump64 s.ttu.tiles (4 * t + k) n } }

/-- Domain counter `k` (meas_nj, est_nj, glints, ilim_periods) of set 2. -/
def Block.cntDom (s : Block) (d k n : Nat) : Block :=
  { s with ttu := { s.ttu with doms := bump64 s.ttu.doms (4 * d + k) n } }

/-- Die counter `k` of set 4: replays, retrains, down ticks, late, discarded, lost in Posts, lost in Relay, CRC. -/
def Block.cntDie (s : Block) (d k : Nat) (n : Nat := 1) : Block :=
  { s with ttu := { s.ttu with transport := bump64 s.ttu.transport (8 * d + k) n } }

/-- Energy counters with a hidden remainder: add `num / den` nJ to index `i` of a table, remainder key `key`. -/
def Block.withRem (s : Block) (key num den : Nat) (put : Block → Nat → Block) : Block :=
  let tot := Tab.get zeroN s.ttu.rem key + num
  put { s with ttu := { s.ttu with rem := Tab.set zeroN s.ttu.rem key (tot % den) } } (tot / den)

/-- Entries of a ring are lost (R658): the ring's count, the transport set and the next entry's mark. -/
def Block.loseEntries (s : Block) (r n : Nat) : Block :=
  let s := s.setSat (F.HIU_RING_STATUS_dropped r) (s.fld (F.HIU_RING_STATUS_dropped r) + n)
  { s with ttu := { s.ttu with
      transport := bump64 s.ttu.transport (32 + r) n
      lost := bump s.ttu.lost r n } }

/-- A ring is enabled and not stopped (R588, R593). -/
def Block.ringOn (s : Block) (r : Nat) : Bool :=
  s.flag (F.HIU_RING_CFG_en r) && !s.flag (F.HIU_RING_STATUS_stopped r)

/-- Stage an entry for an enabled ring; a full staging area loses it (R657-R660).
Marks: DEDUCED, log entry 69. -/
def Block.stage (s : Block) (e : Entry) : Block :=
  if !s.ringOn e.ring then s
  else
    let trace := e.ring = 133
    let waiting := (s.ttu.queue.filter fun x => decide (x.ring = 133) == decide trace).length
    if waiting < (if trace then 16384 else 4096) then
      let s := { s with ttu := { s.ttu with queue := s.ttu.queue ++ [e] } }
      if trace then s.setFld F.TTU_STATUS_trace_fill (waiting + 1) else s
    else (s.loseEntries e.ring 1).incSat F.TTU_STAGE_LOST_lost

/-- A single entry of an event-ring kind (Table 16-6). -/
def Block.event (s : Block) (kind : Nat) (ft : Ft) (body : List Byte) : Block :=
  s.stage ⟨128, kind, 0, 0, 1, ft, body⟩

/-- A TIME entry goes to the event ring and the trace ring (R91, R667). -/
def Block.timeEntry (s : Block) (old new what : Nat) (offset : Int) (skipped : Nat) : Block :=
  let body := leBytes 1 old ++ leBytes 1 new ++ leBytes 1 what ++ leBytes 1 0 ++
    leBytes 4 (ofSigned 32 (satS 32 offset)) ++ leBytes 2 (satU 16 skipped)
  (s.event 0x03 s.ft body).stage ⟨133, 0x03, 0, 0, 1, s.ft, body⟩

/-- A SETTING decision goes to the event ring and the LG log (R294, R668, Table 16-7): `old` and `new` are the
32-bit images of the values.
Marks: DEDUCED, log entries 39 and 114. -/
def Block.setting (s : Block) (code inst decision winner losers old new : Nat) (ft : Ft) : Block :=
  let body := leBytes 2 code ++ leBytes 2 inst ++ leBytes 1 decision ++ leBytes 1 winner ++ leBytes 1 losers ++
    leBytes 1 0 ++ leBytes 4 old ++ leBytes 4 new
  let s := s.event 0x02 ft body
  let n := s.fld F.TTU_LGLOG_POS_pos
  let img := leBytes 8 0x02 ++ leBytes 8 ft.toNat ++ body ++ List.replicate 32 0
  let img := img.set 6 1
  { s.incWrap F.TTU_LGLOG_POS_pos with ttu := { s.ttu with log := Tab.set (fun _ => []) s.ttu.log (n % 1024) img } }

/-- A LEND entry (R494). -/
def Block.lendEntry (s : Block) (what member type amount : Nat) : Block :=
  s.event 0x05 s.ft (leBytes 1 what ++ leBytes 1 member ++ leBytes 1 type ++ leBytes 1 0 ++ leBytes 4 amount)

end Sys2Proof.Machine
end

