-- ==== Sys2Proof/Machine/Flits.lean ====
section
/-! DEFINITION. Flits of the sideband links and of the Post network: headers, check words, credits and the bounds of a
tick (01_architecture.md R64-R69, 03_activity_sensing.md R143-R146). -/
namespace Sys2Proof.Machine
open Sys2Proof

/-! ## Credits (R67, R146) -/

/-- Receive buffers at each end of a sideband link, VC0-VC3 (Table 01-9).
Marks: DEDUCED, log entry 107. -/
def fullCredits : List Nat := [32, 512, 64, 256]

/-- Buffers of a hop of the Post network, PN0-PN4 (Table 03-5). -/
def hopBuffers : List Nat := [4, 4, 16, 4, 8]

/-- The receiver of channel `ch` returns up to `top` of the credits it owes there. -/
def Cred.pay (c : Cred) (ch top : Nat) : Cred :=
  let n := min top (c.owed.getD ch 0)
  ⟨c.credits.set ch (c.credits.getD ch 0 + n), c.owed.set ch (c.owed.getD ch 0 - n)⟩

/-- A sender takes a credit of channel `ch`. One that holds none waits for the receiver's next flit, an idle one where
it has nothing to send, which returns up to `top`; the receiver takes the flit and frees its entry. `none`: no credit,
and nothing is sent.
Marks: DESIGN CHOICE, log entry 9. -/
def Cred.take (c : Cred) (ch top : Nat) : Option Cred :=
  let c := if c.credits.getD ch 0 = 0 then c.pay ch top else c
  if c.credits.getD ch 0 = 0 then none
  else some ⟨c.credits.set ch (c.credits.getD ch 0 - 1), c.owed.set ch (c.owed.getD ch 0 + 1)⟩

/-- What a flit in the other direction returns in its header: the first channel that is owed credits, their number up
to `top`, and what is left. -/
def Cred.give (c : Cred) (top : Nat) : Nat × Nat × Cred :=
  match (List.range c.owed.length).find? fun ch => decide (0 < c.owed.getD ch 0) with
  | some ch => (ch, min top (c.owed.getD ch 0), c.pay ch top)
  | none => (0, 0, c)

/-! ## The sideband (R64-R69) -/

/-- A flit header (Table 01-8). -/
def sbHeader (vc type creditVc creditCount source slot : Nat) : Word :=
  BitVec.ofNat 32 (packBits [(30, 2, vc), (24, 6, type), (22, 2, creditVc), (16, 6, creditCount), (5, 11, source),
    (2, 3, slot)])

/-- The source codes of Table 01-8: a Relay, and the Hub; a Post's is its tile number. -/
def srcRelay (d : Nat) : Nat := 0x400 + d
def srcHub : Nat := 0x7FF

def SbFlit.vc (f : SbFlit) : Nat := getBits f.hdr.toNat 30 2
def SbFlit.type (f : SbFlit) : Nat := getBits f.hdr.toNat 24 6

/-- The bytes a CRC-32 covers (R64). -/
def SbFlit.bytes (f : SbFlit) : List Byte := leBytes 4 f.hdr.toNat ++ leBytes 8 f.body.toNat

/-- The CRC-32 word of a group.
Marks: PRESUMED, log entry 117. -/
def groupCrc (l : List SbFlit) : Word := BitVec.ofNat 32 (crc32 (l.flatMap SbFlit.bytes))

/-- A direction whose link has just trained: full credits, an empty group (R67). -/
def SbDir.trained (x : SbDir) : SbDir := ⟨⟨fullCredits, [0, 0, 0, 0]⟩, [], none, x.sent⟩

/-- The tick's bound on a channel upward; VC0 is bounded by record kind (R69). -/
def vcBound (vc : Nat) : Nat := match vc with | 1 => 256 | 2 => 32 | _ => 1048576

/-- Put a flit into a direction, `back` being the other one: the flit, and both directions after it. -/
def SbDir.send (x back : SbDir) (vc type source : Nat) (body : DWord) : Option (SbFlit × SbDir × SbDir) :=
  match x.flow.take vc 63 with
  | none => none
  | some flow =>
    let (cv, cn, bflow) := back.flow.give 63
    let f : SbFlit := ⟨sbHeader vc type cv cn source x.group.length, body⟩
    let g := x.group ++ [f]
    let (group, last) := if 8 ≤ g.length then ([], some (g, groupCrc g)) else (g, x.last)
    some (f, ⟨flow, group, last, x.sent.set vc (x.sent.getD vc 0 + 1)⟩, { back with flow := bflow })

/-- A flit from Relay `d` to the Hub, while the link carries flits and the tick's bound allows one (R67, R69, R73). -/
def Block.sbUp (s : Block) (d vc type source : Nat) (body : DWord) : Option (SbFlit × Block) :=
  let l := s.link d
  if l.state = .up ∧ l.up.sent.getD vc 0 < vcBound vc then
    (l.up.send l.down vc type source body).map fun (f, u, dn) => (f, s.setLink d { l with up := u, down := dn })
  else none

/-- A flit from the Hub to Relay `d`, while the link carries flits (R67, R73). -/
def Block.sbDown (s : Block) (d vc type : Nat) (body : DWord) : Option (SbFlit × Block) :=
  let l := s.link d
  if l.state = .up then
    (l.down.send l.up vc type srcHub body).map fun (f, dn, u) => (f, s.setLink d { l with up := u, down := dn })
  else none

/-- Several flits downward, all or none. -/
def Block.sbDowns (s : Block) (d vc : Nat) (l : List (Nat × DWord)) : Option Block :=
  l.foldl (fun s f => s.bind fun s => (s.sbDown d vc f.1 f.2).map (·.2)) (some s)

/-- Several flits upward, all or none. -/
def Block.sbUps (s : Block) (d vc type source : Nat) (bodies : List DWord) : Option Block :=
  bodies.foldl (fun s b => s.bind fun s => (s.sbUp d vc type source b).map (·.2)) (some s)

/-! ## The Post network (R143-R146) -/

/-- A flit header (Table 03-4). -/
def chHeader (pn type pos creditPn creditCount : Nat) (nak : Bool) : BitVec 24 :=
  BitVec.ofNat 24 (packBits [(21, 3, pn), (16, 5, type), (12, 4, pos), (9, 3, creditPn), (6, 3, creditCount),
    (5, 1, b2n nak)])

/-- CRC-8 with polynomial 0x07, most significant bit first (R143).
Marks: PRESUMED, log entry 117. -/
def crc8 (n x : Nat) : Nat :=
  (List.range n).foldl (fun c i =>
    let top := xor (bit c 7) (bit x (n - 1 - i))
    let sh := 2 * c % 256
    if top then sh ^^^ 0x07 else sh) 0

/-- A whole flit: header and body with their CRC-8. -/
def chFlit (hdr : BitVec 24) (body : DWord) : ChFlit :=
  ⟨hdr, body, BitVec.ofNat 8 (crc8 88 (hdr.toNat * 2 ^ 64 + body.toNat))⟩

/-- The wire of a chain: the credits of its 32 hop ends and the flits of the tick. -/
def Block.wire (s : Block) (n : Nat) : ChWire := Tab.get (fun _ => ChWire.reset) s.wires n
def Block.setWire (s : Block) (n : Nat) (w : ChWire) : Block :=
  { s with wires := Tab.set (fun _ => ChWire.reset) s.wires n w }

/-- Hop `h` of a chain, upward or downward, in `ChWire.hops`. -/
def hopIdx (down : Bool) (h : Nat) : Nat := h + 16 * b2n down

/-- The flow control of a hop end. -/
def ChWire.cred (w : ChWire) (i : Nat) : Cred := w.hops.getD i ⟨hopBuffers, [0, 0, 0, 0, 0]⟩

/-- A flit is one of a channel at a hop. -/
def Kept.on (x : Kept) (down : Bool) (hop pn : Nat) : Bool := x.down == down && x.hop == hop && x.pn == pn

/-- `n` credits of a hop's channel return: their sender forgets the oldest flits that were received (R146). -/
def ackKept (down : Bool) (h pn : Nat) (l : List Kept) : Nat → List Kept
  | 0 => l
  | n + 1 => match l.find? fun x => x.on down h pn && !x.bad with
    | some x => ackKept down h pn (l.erase x) n
    | none => l

/-- A flit of channel `pn` crosses hop `h`: the credit it takes, the credits its header returns, and the flit that its
sender keeps. One that a nak has brought here already takes none. -/
def ChWire.cross (w : ChWire) (down : Bool) (pn h : Nat) (body : DWord) : Option (ChWire × Nat × Nat) :=
  if w.resent.contains ⟨down, h, pn, body, false⟩ then
    some ({ w with resent := w.resent.erase ⟨down, h, pn, body, false⟩ }, 0, 0)
  else
    let own := w.cred (hopIdx down h)
    match own.take pn 7 with
    | none => none
    | some c =>
      let paid := if own.credits.getD pn 0 = 0 then min 7 (own.owed.getD pn 0) else 0
      let (ch, n, b) := (w.cred (hopIdx (!down) h)).give 7
      let kept := ackKept (!down) h ch (ackKept down h pn w.kept paid) n ++ [⟨down, h, pn, body, false⟩]
      some ({ w with hops := (w.hops.set (hopIdx down h) c).set (hopIdx (!down) h) b, kept := kept }, ch, n)

/-- The hops between the Relay and position `pos`, in the order a flit crosses them: what it leaves, and the credits
its header returns at hop 0. -/
def ChWire.path (w : ChWire) (down : Bool) (pn pos : Nat) (body : DWord) : Option (ChWire × Nat × Nat) :=
  let l := (List.range (pos + 1)).map fun i => if down then i else pos - i
  l.foldl (fun acc h => acc.bind fun (w, ch, k) =>
    (w.cross down pn h body).map fun (w', ch', k') => if h = 0 then (w', ch', k') else (w', ch, k)) (some (w, 0, 0))

/-- A flit of a Post at position `pos` of chain `n`, to the Relay or from it: 256 a tick in each direction (R143), and
a credit at every hop (R146). A flit that was sent again after a nak arrives with it. -/
def Block.chSend (s : Block) (down : Bool) (n pos pn type : Nat) (body : DWord) : Option Block :=
  let w := s.wire n
  if 256 ≤ (if down then w.down else w.up) then none
  else (w.path down pn pos body).map fun (w, ch, k) =>
    let f := chFlit (chHeader pn type pos ch k ((s.chain n).nak.contains (!down, 0))) body
    s.setWire n (if down then { w with down := w.down + 1, lastDown := some f } else { w with up := w.up + 1, lastUp := some f })

/-- A flit fails its CRC at a hop: its sender keeps it, with its credit, and the receiver's next flit carries nak
(R146). Without a credit no flit was sent. -/
def Block.chLost (s : Block) (n : Nat) (x : Kept) : Option Block :=
  let w := s.wire n
  let i := hopIdx x.down x.hop
  let own := w.cred i
  let paid := if own.credits.getD x.pn 0 = 0 then min 7 (own.owed.getD x.pn 0) else 0
  let c := if own.credits.getD x.pn 0 = 0 then own.pay x.pn 7 else own
  if c.credits.getD x.pn 0 = 0 then none
  else
    let ch := s.chain n
    some ((s.setWire n { w with
      hops := w.hops.set i { c with credits := c.credits.set x.pn (c.credits.getD x.pn 0 - 1) }
      kept := ackKept x.down x.hop x.pn w.kept paid ++ [x] }).setChain n
      { ch with nak := if ch.nak.contains (x.down, x.hop) then ch.nak else ch.nak ++ [(x.down, x.hop)] })

/-- A nak: the sender at the hop sends every flit of the channel that it keeps again, in order from the oldest; the ones
that failed arrive whole and their credits are owed, and the receiver drops the ones it has (R146).
Marks: DESIGN CHOICE, log entry 9. -/
def Block.chNak (s : Block) (n : Nat) (down : Bool) (h pn : Nat) : Block :=
  let ch := s.chain n
  let w := s.wire n
  let again := w.kept.filter fun x => x.on down h pn
  let failed := again.filter (·.bad)
  let i := hopIdx down h
  let c := w.cred i
  (s.setWire n { w with
    hops := w.hops.set i { c with owed := c.owed.set pn (c.owed.getD pn 0 + failed.length) }
    up := if down then w.up else w.up + again.length
    down := if down then w.down + again.length else w.down
    kept := w.kept.map fun x => if x.on down h pn then { x with bad := false } else x
    resent := w.resent ++ failed.map fun x => { x with bad := false } }).setChain n
    { ch with nak := ch.nak.filter (· != (down, h)) }

/-- A flit of tile `t`'s Post to its Relay. -/
def Block.postUpFlit (s : Block) (t pn type : Nat) (body : DWord) : Option Block :=
  s.chSend false (domOfTile t) (t % 16) pn type body

/-- A flit to tile `t`'s Post from its Relay. -/
def Block.postDownFlit (s : Block) (t pn type : Nat) (body : DWord) : Option Block :=
  s.chSend true (domOfTile t) (t % 16) pn type body

/-- A body with its even parity in bit 0. -/
def withParity (x : Nat) : DWord := BitVec.ofNat 64 (putBits x 0 1 (b2n (parity 64 (putBits x 0 1 0))))

end Sys2Proof.Machine
end

