-- ==== Sys2Proof/Machine/Relay.lean ====
section
/-! DEFINITION. Fault records on their way to the Fault Collector: Post and Relay queues (12_faults_and_isolation.md
R502, R503). -/
namespace Sys2Proof.Machine
open Sys2Proof

/-- A fault record stamped now. -/
def Block.mkFault (s : Block) (g src inst : Nat) (ft : Ft) (ended : Bool) : FaultRec :=
  ⟨g, src, inst, ft, 0, ended, s.fc.inj⟩

/-- Merge an event record into a waiting record of the same source and instance (R503).
Marks: DEDUCED, log entry 59. -/
def mergeFault (l : List FaultRec) (r : FaultRec) : Option (List FaultRec) :=
  if isCondition r.group r.source then none
  else if l.any (fun x => x.group == r.group && x.source == r.source && x.inst == r.inst) then
    some (l.map fun x =>
      if x.group == r.group && x.source == r.source && x.inst == r.inst
      then { x with coalesced := satU 8 (x.coalesced + 1 + r.coalesced) } else x)
  else none

/-- Queue a record in a Relay; a full queue leaves a pending bit and an 11.4 record of its own (R503).
Marks: DEDUCED, log entry 59. -/
def Block.relayQueue (s : Block) (die : Nat) (r : FaultRec) : Block :=
  let q := s.relay die
  match mergeFault q.faults r with
  | some l => s.setRelay die { q with faults := l }
  | none =>
    if q.faults.length < 64 then s.setRelay die { q with faults := q.faults ++ [r] }
    else
      let tick := (s.relayFt die).toNat / 1024 + 1
      let pend := if q.faultPend.contains (r.group, r.source) then q.faultPend else q.faultPend ++ [(r.group, r.source)]
      let excess := match q.overflow with
        | none => if tick = q.overTick then none else some (s.mkFault 11 4 die (s.relayFt die) false)
        | some o => if tick = q.overTick then some o
            else some { o with coalesced := satU 8 (o.coalesced + 1) }
      s.setRelay die { q with faultPend := pend, overflow := excess, overTick := tick }

/-- A fault a Relay or its slices detect. -/
def Block.relayFault (s : Block) (die g src inst : Nat) (ended : Bool := false) : Block :=
  s.relayQueue die (s.mkFault g src inst (s.relayFt die) ended)

/-- A fault a Post detects: queued to be sent, at most 4 waiting (R503). -/
def Block.postFault (s : Block) (t g src : Nat) (ended : Bool := false) : Block :=
  let p := s.post t
  let r := s.mkFault g src t (s.postStamp (dieOfTile t)) ended
  match mergeFault p.faults r with
  | some l => s.setPost t { p with faults := l }
  | none =>
    if p.faults.length < 4 then s.setPost t { p with faults := p.faults ++ [r] }
    else
      let pend := if p.faultPend.contains (g, src) then p.faultPend else p.faultPend ++ [(g, src)]
      s.setPost t { p with faultPend := pend }

/-- The body of a fault record (Table 12-2). -/
def FaultRec.word (r : FaultRec) : DWord :=
  withParity (packBits [(58, 6, r.group), (55, 3, r.source), (43, 12, r.inst), (17, 26, r.ft.toNat), (9, 8, r.coalesced),
    (8, 1, b2n r.ended), (7, 1, b2n r.injected)])

/-- A fault record as the FC takes it from its body, the stamp expanded against the FC's own FT (R102, Table 12-3). -/
def faultOfWord (own : Nat) (w : DWord) : FaultRec :=
  let x := w.toNat
  ⟨getBits x 58 6, getBits x 55 3, getBits x 43 12, BitVec.ofNat 64 (expandStamp 26 own (getBits x 17 26)),
    getBits x 9 8, bit x 8, bit x 7⟩

/-! ## The chain port (R143-R147, R500) -/

/-- A flit or credit reaches a chain port: a stall ends (R500). -/
def Block.chainLive (s : Block) (n : Nat) : Block :=
  let c := s.chain n
  let s := s.setChain n { c with live := true, quiet := 0 }
  if 16 ≤ c.quiet then s.relayFault (n / 16) 12 1 n true else s

/-- The hop of an isolated Post discards every flit that Post sends (R524). While its re-admission runs its Sheafs count
(Table 12-8 step 7), so that the hop forwards them.
Marks: DEDUCED, log entry 57. -/
def Block.hopDrops (s : Block) (t : Nat) : Bool := (s.tile t).isolated && !s.fc.readmits.any (·.tile == t)

/-- A flit of tile `t`'s Post arrives at its chain port, or is discarded at its hop. -/
def Block.upFlit (s : Block) (t pn type : Nat) (body : DWord) : Option Block :=
  if s.hopDrops t then some s else (s.postUpFlit t pn type body).map fun s => s.chainLive (domOfTile t)

/-- Flits of one record, all or none. -/
def Block.upFlits (s : Block) (t pn : Nat) (l : List (Nat × DWord)) : Option Block :=
  l.foldl (fun s f => s.bind fun s => s.upFlit t pn f.1 f.2) (some s)

/-- The chain would take a flit of channel `pn` from tile `t`'s Post now. -/
def Block.mayUp (s : Block) (t pn : Nat) : Bool := s.hopDrops t || (s.postUpFlit t pn 0 0).isSome

/-- Strict priority, PN0 first (R145): nothing that may go now waits in the Post on a channel before `pn`. PN0 flits go
when they are formed, so that one still waiting has no credit or no place in the tick.
Marks: DESIGN CHOICE, log entry 9. -/
def Block.pnClear (s : Block) (t pn : Nat) : Bool :=
  let p := s.post t
  let one := p.summary.isSome || (!p.faults.isEmpty && decide (p.faultsSent < 2))
  let q := s.relay (dieOfTile t)
  let two := !p.sheafs.isEmpty && (q.merging || decide (q.fifo.length < 512) ||
    decide ((q.parked.filter fun x => domOfTile x.1 == domOfTile t).length / 16 ≤ t % 16))
  !(decide (1 < pn) && one && s.mayUp t 1) && !(decide (2 < pn) && two && s.mayUp t 2)

/-- The Post's oldest fault record goes up the chain, at most two a tick (R147, R502, R504); a pending bit follows as a
record with instance 0xFFF once there is room (R503).
Marks: DEDUCED, log entry 59. -/
def Block.postSendFault (s : Block) (t : Nat) : Block :=
  let p := s.post t
  if 2 ≤ p.faultsSent then s
  else match p.faults with
    | [] => s
    | r :: rest =>
      match s.upFlit t 1 4 r.word with
      | none => s
      | some s =>
        let (more, pend) := match p.faultPend with
          | [] => (rest, [])
          | (g, src) :: ps => (rest ++ [s.mkFault g src 0xFFF (s.postStamp (dieOfTile t)) false], ps)
        let s := s.setPost t { p with faults := more, faultPend := pend, faultsSent := p.faultsSent + 1 }
        if s.hopDrops t then s else s.relayQueue (dieOfTile t) r

/-- The body of a thermal state record (R277). -/
def ThermRec.word (r : ThermRec) : DWord :=
  let lv := r.levels.zipIdx.map fun (l, k) => (16 + 3 * k, 3, l)
  BitVec.ofNat 64 (packBits (lv ++ [(13, 3, r.bmem), (5, 8, match r.trip with | some (_, t) => t % 256 | none => 0),
    (4, 1, b2n r.trip.isSome)]))

/-- Put a VC0 flit of a Relay on the wire. -/
def Block.putVc0 (s : Block) (d type : Nat) (body : DWord) (bmem : Bool) : Option Block :=
  (s.sbUp d 0 type (srcRelay d) body).map fun (f, s) =>
    s.setLink d { s.link d with flight := (s.link d).flight ++ [(f, bmem)] }

/-- Put the next fault-class record on the wire, at most seven a tick (R69, R277, R503): a thermal state record with a
trip, then 11.4 of an earlier tick, then the oldest fault record, then a thermal state record.
Marks: DEDUCED, log entry 59. -/
def Block.putFault (s : Block) (d : Nat) : Option Block :=
  let q := s.relay d
  let put (type : Nat) (body : DWord) (bmem : Bool) (q : RelayS) : Option Block :=
    (s.putVc0 d type body bmem).map fun s =>
      (s.setRelay d q).setLink d { s.link d with faultsSent := (s.link d).faultsSent + 1 }
  let therm (r : ThermRec) : Option Block :=
    put 0x11 r.word (match r.trip with | some (b, _) => b | none => false) { q with thermalDue := none }
  let rest : Option Block := match q.faults, q.thermalDue with
    | r :: l, _ =>
      let (more, pend) := match q.faultPend with
        | [] => (l, [])
        | (g, src) :: ps => (l ++ [s.mkFault g src 0xFFF (s.relayFt d) false], ps)
      put 0x20 r.word false { q with faults := more, faultPend := pend }
    | [], some r => therm r
    | [], none => none
  if 7 ≤ (s.link d).faultsSent then none
  else match q.thermalDue, q.overflow with
    | some ⟨lv, b, some t⟩, _ => therm ⟨lv, b, some t⟩
    | _, some o => if o.ft.toNat / 1024 < (s.relayFt d).toNat / 1024 then put 0x20 o.word false { q with overflow := none } else rest
    | _, none => rest

/-- The first VC0 flit of a type on the wire, taken off it. -/
def Block.offWire (s : Block) (d : Nat) (want : SbFlit → Bool) : Option (SbFlit × Bool × Block) :=
  let l := (s.link d).flight
  (l.find? fun x => want x.1).map fun x => (x.1, x.2, s.setLink d { s.link d with flight := l.erase x })

/-- Put fault-class records on the wire until one of a type is there. -/
def Block.nextOff (s : Block) (d type : Nat) : Nat → Option (SbFlit × Bool × Block)
  | 0 => s.offWire d fun f => f.type == type
  | n + 1 => match s.offWire d fun f => f.type == type with
    | some r => some r
    | none => match s.putFault d with
      | some s => s.nextOff d type n
      | none => none

/-- The domain's Glint record of a tick (Table 08-4). -/
def glintWord (n tick : Nat) (counts : List Nat) : DWord :=
  let c := counts.zipIdx.map fun (k, p) => (16 + 2 * p, 2, min 3 k)
  let m := (List.range 16).foldl (fun m p => setBit m p (decide (0 < counts.getD p 0))) 0
  withParity (packBits ((48, 16, m) :: c ++ [(12, 4, n % 16), (4, 8, tick)]))

/-- A chain's Glint record of the tick joins those that wait, once the tick is over. -/
def Block.closeGlints (s : Block) (n : Nat) : Block :=
  let c := s.chain n
  if c.glints.all (· == 0) then s
  else s.setChain n { c with
    glints := List.replicate 16 0, glintDue := c.glintDue ++ [glintWord n c.glintTick c.glints] }

/-- Put a chain's oldest waiting Glint record on the wire, at most 16 a tick (R69, R70). -/
def Block.putGlint (s : Block) (n : Nat) : Option Block :=
  let d := n / 16
  match (s.chain n).glintDue with
  | w :: rest =>
    if 16 ≤ (s.link d).glintsSent then none
    else (s.putVc0 d 0x03 w false).map fun s =>
      (s.setChain n { s.chain n with glintDue := rest }).setLink d
        { s.link d with glintsSent := (s.link d).glintsSent + 1 }
  | [] => none

/-- Repeat a step while it succeeds, at most `n` times. -/
def Block.repeat (s : Block) (f : Block → Option Block) : Nat → Block
  | 0 => s
  | n + 1 => match f s with | some s => s.repeat f n | none => s

/-- Strict priority, VC0 first: what waits on VC0 goes onto the wire before a flit of a lower channel (R66). -/
def Block.vc0First (s : Block) (d : Nat) : Block :=
  let s := s.repeat (fun s => s.putFault d) 7
  s.forAll ((List.range 16).map (16 * d + ·)) fun s n => s.repeat (fun s => s.putGlint n) 16

/-! ## Downward (R66) -/

/-- The body of an LG action; the spec gives a type and a layout to isolation orders alone.
Marks: DESIGN CHOICE, log entry 116. -/
def LgAct.word (a : LgAct) : DWord := withParity (packBits [(61, 3, a.level), (58, 3, a.hot), (57, 1, b2n a.restoring)])

/-- The body of an isolation order (R525). -/
def orderWord (u : Bool × Nat) : DWord := withParity (packBits [(63, 1, b2n u.1), (52, 10, u.2)])

/-- The die of a unit: a domain, or a tile. -/
def unitDie (u : Bool × Nat) : Nat := if u.1 then u.2 / 16 else dieOfTile u.2

/-- What the Hub has for Relay `d` on VC0: LG actions and isolation orders, by type and body. -/
def Block.ordersFor (s : Block) (d : Nat) : List (Nat × DWord) :=
  (s.relay d).lgActs.map (fun a => (0x20, a.word)) ++
    (s.fc.orders.filter fun (o : Bool × Nat × Ft) => unitDie (o.1, o.2.1) == d).map fun (o : Bool × Nat × Ft) =>
      (0x21, orderWord (o.1, o.2.1))

/-- A VC0 flit of the Hub for Relay `d`: off the wire, or sent now. -/
def Block.takeDown (s : Block) (d type : Nat) (body : DWord) : Option (SbFlit × Block) :=
  match (s.link d).flightDown.find? fun f => f.type == type && f.body == body with
  | some f => some (f, s.setLink d { s.link d with flightDown := (s.link d).flightDown.erase f })
  | none => s.sbDown d 0 type body

/-- Strict priority downward: what waits in the Hub on VC0 goes onto the wire before a flit of a lower channel (R66). -/
def Block.vc0Down (s : Block) (d : Nat) : Block :=
  let wait := (s.link d).flightDown.foldl (fun l f => l.erase (f.type, f.body)) (s.ordersFor d)
  s.forAll wait fun s x => match s.sbDown d 0 x.1 x.2 with
    | some (f, s) => s.setLink d { s.link d with flightDown := (s.link d).flightDown ++ [f] }
    | none => s

/-- The nine bodies of a publication: a header, and four weights a flit (Table 05-3).
Marks: DESIGN CHOICE, log entry 116. -/
def Pub.bodies (p : Pub) (n : Nat) : List DWord :=
  BitVec.ofNat 64 (packBits [(58, 6, n), (16, 16, p.crc), (1, 1, b2n p.bank.isNone), (0, 1, b2n (p.bank == some true))]) ::
  (List.range 8).map fun k => BitVec.ofNat 64 (packBits ((List.range 4).map fun q =>
    (16 * q, 16, ofSigned 16 (p.weights.getD (4 * k + q) 0))))

/-- A mark on a publication of a tile: on every tile of the chain for a bank's, which is broadcast. -/
def Block.markPub (s : Block) (t : Nat) (p : Pub) (f : Pub → Pub) : Block :=
  s.forAll (if p.bank.isSome then tilesOf (domOfTile t) else [t]) fun s u =>
    s.setPost u { s.post u with pubs := (s.post u).pubs.map fun x => if x == p then f x else x }

/-- The flits of a tile's publication cross the link on VC1, once (R239, R242). -/
def Block.linkPub (s : Block) (t : Nat) (p : Pub) : Option Block :=
  let d := dieOfTile t
  if p.linked then some s
  else ((s.vc0Down d).sbDowns d 1 ((p.bodies (domOfTile t)).map fun b => (2, b))).map fun s =>
    s.markPub t p fun x => { x with linked := true }

/-- What waits in the Hub on VC0 and VC1 for Relay `d` goes before a flit of VC2 (R66). -/
def Block.vc1Down (s : Block) (d : Nat) : Block :=
  (s.vc0Down d).forAll ((s.posts.map (·.1)).filter fun t => dieOfTile t == d) fun s t =>
    s.forAll ((s.post t).pubs.filter fun p => !p.linked) fun s p =>
      if (s.post t).pubs.contains p then (s.linkPub t p).getD s else s

/-- Flits of VC2 from the Hub to Relay `d`, by type, behind what waits on the channels before it: all or none. -/
def Block.sendDown (s : Block) (d : Nat) (l : List (Nat × DWord)) : Option Block := (s.vc1Down d).sbDowns d 2 l

/-- Nothing that may go now waits in Relay `d` on VC1 or VC2 before channel `vc` (R66).
Marks: DESIGN CHOICE, log entry 9. -/
def Block.vcClear (s : Block) (d vc : Nat) : Bool :=
  let may (v : Nat) : Bool := (s.sbUp d v 0 0 0).isSome
  let one := !(s.relay d).fifo.isEmpty
  let two := ((List.range 16).map (16 * d + ·) ++ [64 + d, 68 + d]).any fun n => !(s.vdom n).out.isEmpty
  !(decide (1 < vc) && one && may 1) && !(decide (2 < vc) && two && may 2)

/-- The flits of one record, by type, go up to the Hub behind what waits on the channels before theirs: all or none. -/
def Block.sbLows (s : Block) (d vc source : Nat) (l : List (Nat × DWord)) : Option Block :=
  let s := s.vc0First d
  if s.vcClear d vc then l.foldl (fun s f => s.bind fun s => (s.sbUp d vc f.1 source f.2).map (·.2)) (some s) else none

/-- A flit of VC1-VC3 goes up to the Hub. -/
def Block.sbLow (s : Block) (d vc type source : Nat) (body : DWord) : Option Block := s.sbLows d vc source [(type, body)]

end Sys2Proof.Machine
end

