-- ==== Sys2Proof/Machine/MarginOps.lean ====
section
/-! DEFINITION. Floors, VID targets and margin transitions of the core domains (08_droop_and_margin.md). -/
namespace Sys2Proof.Machine
open Sys2Proof

/-! ## Floor and frequency (R350-R354) -/

/-- Floor of a tile from its eight points at `f` MHz (R350). -/
def tileFloor (v : List Nat) (f : Nat) : Nat :=
  let k := min ((f - 800) / 200) 6
  let a : Int := v.getD k 0
  let b : Int := v.getD (k + 1) 0
  let x : Int := (b - a) * ((f : Int) - 800 - 200 * k)
  (a - (-x).fdiv 200).toNat

/-- The fused points of a tile; log entry 3 gives the part's.
Marks: DESIGN CHOICE, log entry 3. -/
def vfDefault (_ : Nat) : List Nat := [510, 540, 570, 600, 630, 660, 690, 720]

/-- The fused points of a tile as the shadow holds them. -/
def Block.vf (s : Block) (t : Nat) : List Nat := Tab.get vfDefault s.shadow.vf t

/-- The tile counts in its domain's floor: its switch is closed or has a pending close (R351). An isolated tile
does not (R528), until a re-admission brings its floor in (Table 12-8 step 2).
Marks: DEDUCED, log entry 54. -/
def Block.inFloor (s : Block) (t : Nat) : Bool :=
  (s.post t).closePend ||
    (!(s.post t).open_ && (!(s.tile t).isolated || s.fc.readmits.any fun r => r.tile == t))

/-- Floor of core domain `n` at `f` MHz (R351). -/
def Block.floorAt (s : Block) (n f : Nat) : Nat :=
  let ts := (tilesOf n).filter s.inFloor
  if ts.isEmpty then maxN ((tilesOf n).map fun t => (s.vf t).getD 0 0)
  else maxN (ts.map fun t => tileFloor (s.vf t) f)

/-- The upper bound of the VID of core domain `n`, mV (R352); a Relay whose link is down keeps the ceiling it had (R74). -/
def Block.vidCeil (s : Block) (n : Nat) : Nat :=
  min ((s.relay (dieOfDom n)).ceilHeld.getD (s.fld (F.LFC_CEIL_value 1))) 1000

/-- The Penumbra of a mode in core domain `n` (R356). -/
def Block.penOf (s : Block) (n mode : Nat) : Nat :=
  s.mfld (dieOfDom n) (match mode with
    | 0 => F.LG_MARGIN_PEN_pen_static | 1 => F.LG_MARGIN_PEN_pen_adp | _ => F.LG_MARGIN_PEN_pen_ant)

/-- The VID target of a core domain (R352). -/
def Block.vidTgt (s : Block) (n : Nat) : Nat :=
  let m := s.margin n
  min (s.vidCeil n) (max 500 (s.floorAt n m.fVid + m.pen))

/-- The target in force of a domain as its sources stand (R395); in Deep the array domains run at arr_ret_mv (R735), once
their slice has received that setpoint (R74).
Marks: DEDUCED, log entry 50. -/
def Block.targetOf (s : Block) (d : Nat) : Nat :=
  let req := s.fld (F.VRC_DOM_VID_vid_req d)
  if 64 ≤ d ∧ d < 68 ∧ (s.vslice (d - 64)).ret then s.fld F.HUB_PSTATE_CFG_arr_ret_mv
  else if d < 64 then (match (s.vdom d).lgCap with | some c => min req c | none => req) else req

/-- Register a cause of a target change, after the change, with its rate; causes of one period share the higher rate, and
those of the latest edge stand apart (R48, R396).
Marks: DEDUCED, log entries 50 and 52. -/
def Block.vrcCause (s : Block) (d cause rate : Nat) : Block :=
  let v := s.vdom d
  let same := decide (v.tgt.at_ = s.edge)
  let l := if same then v.late else (0, 0)
  let old := if same then (0, 0) else v.late
  s.setVdom d { v with
    tgt := v.tgt.put (s.targetOf d) s.edge
    causes := v.causes ||| old.1, causeRate := max v.causeRate old.2
    late := (setBit l.1 cause true, max l.2 rate) }

/-- Show the floor at f_now and the distance of the VID setpoint from it (Table 08-11). -/
def Block.showMargin (s : Block) (n : Nat) : Block :=
  let fl := s.floorAt n (s.fld (F.LG_MARGIN_FREQ_f_now n))
  (s.setFld (F.LG_MARGIN_DOM_floor_mv n) fl).setSat (F.LG_MARGIN_DOM_pen_mv n)
    (s.fld (F.VRC_DOM_VID_vid_req n) - fl)

/-- Show the floor alone: after a reset pen_mv keeps its reset value until the VID or the floor changes (Table 08-11).
Marks: DEDUCED, log entry 121. -/
def Block.showFloor (s : Block) (n : Nat) : Block :=
  s.setFld (F.LG_MARGIN_DOM_floor_mv n) (s.floorAt n (s.fld (F.LG_MARGIN_FREQ_f_now n)))

/-- Form the VID target again and pass it to the VRC slice, with the cause and rate of a change (R352, R396). -/
def Block.retarget (s : Block) (n cause rate : Nat) : Block :=
  let v := s.vidTgt n
  let s' := if v = s.fld (F.VRC_DOM_VID_vid_req n) then s
    else (s.setFld (F.VRC_DOM_VID_vid_req n) v).vrcCause n cause rate
  s'.showMargin n

/-- The rate of a requested change of a domain. -/
def Block.domRate (s : Block) (d : Nat) : Nat := s.fld (F.VRC_DOM_SLEW_rate d)

/-- The highest frequency in 25 MHz steps, from 800 MHz to f_req, that the ceiling admits (R353). -/
def Block.admitted (s : Block) (n pen freq : Nat) : Option Nat :=
  ((List.range 57).map (fun k => 2200 - 25 * k)).find? fun f =>
    decide (f ≤ freq) && decide (s.floorAt n f + pen ≤ s.vidCeil n)

/-- The reference of a core domain has reached the target and no change waits (R398). -/
def Block.vidSettled (s : Block) (n : Nat) : Bool :=
  let v := s.vdom n
  v.causes == 0 && v.late.1 == 0 && v.refQ == s.fld (F.VRC_DOM_VID_vid_in_force n) * 4096 &&
    s.fld (F.VRC_DOM_VID_vid_in_force n) == s.fld (F.VRC_DOM_VID_vid_req n)

/-- The chip PLLs of a domain are commanded to `f` MHz (R354, Table 22-1). -/
def MarginS.command (m : MarginS) (f : Nat) : MarginS :=
  { m with pll := .locking f, raise := .none, pllFreq := f, pllReq := !m.pllReq }

/-- The frequency that the PLLs have still to lock at. -/
def PllS.lock : PllS → Option Nat
  | .idle => none
  | .raising _ g => g
  | .locking g => some g

/-- A frequency raise goes to the PLLs once the VID stands at the target (R354). -/
def Block.raiseReady (s : Block) (n : Nat) : Block :=
  let m := s.margin n
  match m.pll with
  | .raising f _ => if s.vidSettled n then s.setMargin n (m.command f) else s
  | _ => s

/-- Idle-Gated and Deep hold every core domain at 800 MHz (R733). -/
def Block.idleFreq (s : Block) : Bool :=
  s.power.phase == .lower || s.power.phase == .deep ||
    (s.power.phase == .rest && s.fld F.HUB_PSTATE_STATUS_state != 0)

/-- The VID rises for `f` MHz before the PLLs go there, whatever they have still to lock at (R354, R399). -/
def MarginS.raiseTo (m : MarginS) (f : Nat) : MarginS :=
  let was := match m.pll with | .raising g _ => g == f | _ => false
  { m with fVid := f, pll := .raising f m.pll.lock, raise := if was then m.raise else .waiting }

/-- The PLL change that takes a domain to `f` MHz (R354): a raise above what the PLLs run at or go to waits for the VID; any
other change is commanded at once, and the VID follows at their lock. Until then it stands for the higher of the two. -/
def MarginS.toFreq (m : MarginS) (fNow f : Nat) : MarginS :=
  match m.pll with
  | .locking g => if f = g then m else if m.fVid < f then m.raiseTo f else m.command f
  | .raising _ (some g) =>
    if g < f then m.raiseTo f
    else if f = g then { m with fVid := max fNow g, pll := .locking g, raise := .none }
    else ({ m with fVid := max fNow g } : MarginS).command f
  | _ =>
    if f < fNow then m.command f
    else if fNow < f then m.raiseTo f
    else { m with fVid := f, pll := .idle, raise := .none }

/-- Form the frequency and the VID target of a domain again after its floor, its Penumbra or a request has changed: the
frequency the ceiling admits, and the VID in the order that keeps it above the floor (R352-R354), with the cause and the
rate of the change. -/
def Block.refit (s : Block) (n cause rate : Nat) : Block :=
  let m := s.margin n
  let cand := s.admitted n m.pen m.fReq
  let short := cand.isNone
  let f := cand.getD 800
  let was := s.flag (F.LG_MARGIN_FREQ_vid_short n)
  let s := s.setFld (F.LG_MARGIN_FREQ_freq_clamped n) (b2n (decide (f < m.fReq)))
  let s := s.setFld (F.LG_MARGIN_FREQ_vid_short n) (b2n short)
  let s := if short then s.setFld F.LG_MARGIN_STATUS_vid_short_seen 1 else s
  let s := if short && !was then s.relayFault (dieOfDom n) 1 1 n
    else if was && !short then s.relayFault (dieOfDom n) 1 1 n true else s
  ((s.setMargin n (m.toFreq (s.fld (F.LG_MARGIN_FREQ_f_now n)) f)).retarget n cause rate).raiseReady n

/-- The Hub sends a setting or a command to a Relay on VC2, while the link carries flits and a credit is held (R66, R67);
`kind` names the flit in Config. -/
def Block.forward (s : Block) (d kind addr v : Nat) : Option Block :=
  if s.flag (F.HUB_SB_STATUS_link_up d) then s.sendDown d [(Config.flitType kind, Config.flitBody kind addr v)] else none

/-- The Hub forwards a domain's frequency to its Relay, while the link carries flits (R74, R380); how the raise before it
ended is over. -/
def Block.applyFreq (s : Block) (n : Nat) : Block :=
  let m := s.margin n
  let s := s.setMargin n { m with raise := if m.raise = .superseded ∨ m.raise = .aborted then .none else m.raise }
  let f := if s.idleFreq then 800 else s.fld (F.LG_MARGIN_FREQ_f_req n)
  let s := if f = m.fReq then s
    else match s.forward (dieOfDom n) 5 n f with
      | some s => s.setMargin n { s.margin n with fReq := f }
      | none => s
  s.refit n 0 (s.domRate n)

/-- The Hub forwards a domain's mode request to its Relay (R372, R380). -/
def Block.applyModeReq (s : Block) (n : Nat) : Block :=
  let r := s.fld (F.LG_MARGIN_MODE_req n)
  if r = (s.margin n).modeReq then s
  else match s.forward (dieOfDom n) 4 (0x9500 + 4 * n) r with
    | some s => s.setMargin n { s.margin n with modeReq := r }
    | none => s

/-! ## Modes and transitions (R371-R377) -/

/-- The threshold code of a mode in core domain `n`. -/
def Block.thrOf (s : Block) (n mode : Nat) : Nat :=
  s.mfld (dieOfDom n) (match mode with
    | 0 => F.LG_MARGIN_LANT_thr_static | 1 => F.LG_MARGIN_LANT_thr_adp | _ => F.LG_MARGIN_LANT_thr_ant)

/-- The threshold code in force: the setting's, and during a transition the smallest of both modes' and the setting's
(R374). -/
def Block.orderThr (s : Block) (n : Nat) : Nat :=
  let m := s.margin n
  if s.fld (F.LG_MARGIN_MODE_trans n) = 0 then s.thrOf n m.setting
  else min (s.thrOf n m.setting) (min (s.thrOf n (s.fld (F.LG_MARGIN_MODE_mode n))) (s.thrOf n m.toMode))

/-- The body of a margin order (Table 08-7). -/
def Block.orderWord (s : Block) (n : Nat) : DWord :=
  let d := dieOfDom n
  withParity (packBits [(60, 4, s.orderThr n), (58, 2, s.mfld d F.LG_MARGIN_LANT_deep_off),
    (57, 1, s.mfld d F.LG_MARGIN_LANT_div), (48, 9, s.mfld d F.LG_MARGIN_LANT_str_hold)])

/-- The Relay sends a margin order when what it carries has changed (R374, R380). -/
def Block.sendOrder (s : Block) (n : Nat) : Block :=
  let m := s.margin n
  let w := s.orderWord n
  if w = m.order then s else s.setMargin n { m with order := w, ordSent := false }

/-- A threshold and a deep offset in mV (R358). -/
def thrMv (code : Nat) : Nat := 15 + 5 * code
def deepMv (code : Nat) : Nat := 10 + 5 * code

/-- The Relay drives a chain's two detect levels, as 10-bit values, from the reference of the PWM period and the settings
of its last order (R357).
Marks: DEDUCED, log entry 121. -/
def Block.driveLevels (s : Block) (n : Nat) : Block :=
  let o := (s.margin n).order.toNat
  let p := (s.vdom n).refQ / 4096 - thrMv (getBits o 60 4)
  s.setChain n { s.chain n with levels := (min 1023 p, min 1023 (p - deepMv (getBits o 58 2))) }

/-- The mode whose exits apply: the one in force, or the one a tightening goes to (R373, R376). -/
def Block.glintMode (s : Block) (n : Nat) : Nat :=
  if s.fld (F.LG_MARGIN_MODE_trans n) = 1 then (s.margin n).toMode else s.fld (F.LG_MARGIN_MODE_mode n)

/-- Count the domains of each mode (Table 08-10). -/
def Block.countModes (s : Block) : Block :=
  let modes := (List.range 64).map fun n => s.fld (F.LG_MARGIN_MODE_mode n)
  (s.setFld F.LG_MARGIN_STATUS_n_adp (modes.filter (· == 1)).length).setFld F.LG_MARGIN_STATUS_n_ant
    (modes.filter (· == 2)).length

/-- A transition ends: mode and settings are those of the new mode (R374). -/
def Block.endTransition (s : Block) (n : Nat) : Block :=
  let m := s.margin n
  let s := s.setMargin n { m with setting := m.toMode, waitSlew := false }
  let s := s.setFld (F.LG_MARGIN_MODE_mode n) m.toMode
  let s := s.setFld (F.LG_MARGIN_MODE_trans n) 0
  (s.countModes.showMargin n).sendOrder n

/-- End a transition whose VID stands at its target. -/
def Block.transitionReady (s : Block) (n : Nat) : Block :=
  if s.fld (F.LG_MARGIN_MODE_trans n) ≠ 0 ∧ !(s.margin n).waitSlew ∧ s.vidSettled n then s.endTransition n else s

/-- Start a transition to a mode (R374). -/
def Block.startTransition (s : Block) (n to_ : Nat) : Block :=
  let m := s.margin n
  if s.penOf n to_ < m.pen then
    let s := s.setMargin n { m with toMode := to_, setting := to_, waitSlew := true, orderAt := s.ft }
    (s.setFld (F.LG_MARGIN_MODE_trans n) 1).sendOrder n
  else
    let s := s.setMargin n { m with toMode := to_, pen := s.penOf n to_, rate := s.domRate n }
    let s := (s.setFld (F.LG_MARGIN_MODE_trans n) 2).sendOrder n
    (s.refit n 0 (s.domRate n)).transitionReady n

/-- The hold of a fallback in epochs (R375). -/
def Block.fbHold (s : Block) (n : Nat) : Nat :=
  (s.mfld (dieOfDom n) F.LG_MARGIN_CFG_reentry_16 * 16) <<< min (s.fld (F.LG_MARGIN_MODE_fb_run n)) 4

/-- Record a fallback: hold, run, counts and source 10.0 (R375). -/
def Block.fallback (s : Block) (n : Nat) : Block :=
  let h := s.fbHold n
  let s := s.setMargin n { s.margin n with holdNext := h, stay := 0 }
  let s := s.setFld (F.LG_MARGIN_MODE_held n) 1
  let s := s.setFld (F.LG_MARGIN_MODE_hold_left n) (min 255 ((h + 15) / 16))
  let s := s.setFld (F.LG_MARGIN_MODE_fb_run n) (min 4 (s.fld (F.LG_MARGIN_MODE_fb_run n) + 1))
  let s := (s.incSat (F.LG_MARGIN_GLINT_fallbacks n)).setFld F.LG_MARGIN_STATUS_fallback_seen 1
  s.relayFault (dieOfDom n) 10 0 n

/-- An exit event of Table 08-6 (R373, R376): code, whether at fb_slew, whether with a hold. A steady domain in
Static has nothing to leave. -/
def Block.marginExit (s : Block) (n code : Nat) (fast hold : Bool) : Block :=
  let mode := s.fld (F.LG_MARGIN_MODE_mode n)
  let trans := s.fld (F.LG_MARGIN_MODE_trans n)
  if mode = 0 ∧ trans = 0 then s
  else
    let r := if fast then s.mfld (dieOfDom n) F.LG_MARGIN_PEN_fb_slew else s.domRate n
    let m := s.margin n
    let r := if 2 ≤ trans then max r m.rate else r
    let s := s.setMargin n { m with toMode := 0, pen := s.penOf n 0, rate := r, waitSlew := false, stay := 0 }
    let s := s.setFld (F.LG_MARGIN_MODE_last_exit n) code
    let s := s.setFld (F.LG_MARGIN_MODE_trans n) 3
    let s := if hold then s.fallback n else s
    let s := s.refit n 2 r
    let s := if s.vidSettled n then s else s.vrcCause n 2 r
    s.transitionReady n

/-- A FAILED or stopped domain reads Static with no transition (R377, Table 18-2 note n2). -/
def Block.marginFailed (s : Block) (n : Nat) : Block :=
  let m := s.margin n
  let s := s.setMargin n { m with toMode := 0, pen := s.penOf n 0, waitSlew := false, setting := 0, stay := 0 }
  let s := (s.setFld (F.LG_MARGIN_MODE_mode n) 0).setFld (F.LG_MARGIN_MODE_trans n) 0
  ((s.refit n 0 (s.domRate n)).sendOrder n).countModes

/-! ## Entry conditions (R372) -/

/-- The failing conditions of Table 08-5 for a mode, as bits of `blocked`. -/
def Block.entryBlocked (s : Block) (n mode : Nat) : Nat :=
  let uncal := (tilesOf n).any fun t => !(s.post t).open_ && !s.flag (F.POST_LANTERN_CAL_cal_valid t)
  let noLink := !s.flag (F.HUB_SB_STATUS_link_up (dieOfDom n))
  let conf := mode = 2 && !s.flag (F.WCE_DOM_CONF_above_enter n)
  let table := mode = 2 && !(s.flag F.SILO_STATUS_table_loaded && s.flag (F.SILO_DOM_LIM_preboost_en n))
  packBits [(0, 1, b2n uncal), (1, 1, b2n noLink), (2, 1, b2n conf), (3, 1, b2n table)]

/-- A tile's floor left or joined its domain: the VID follows (R351, R352). -/
def Block.refloor (s : Block) (n : Nat) : Block := s.refit n 0 (s.domRate n)

/-- Compare a steady domain's mode with the request its Relay has, at an epoch boundary (R372). A margin mode whose
Penumbra equals that of the mode in force is entered under its conditions, and Static without.
Marks: DEDUCED, log entry 55; DESIGN CHOICE, log entry 132. -/
def Block.marginEntry (s : Block) (n : Nat) : Block :=
  let req := (s.margin n).modeReq
  let mode := s.fld (F.LG_MARGIN_MODE_mode n)
  if s.fld (F.LG_MARGIN_MODE_trans n) ≠ 0 ∨ s.fld (F.VRC_DOM_STATUS_state n) = 5 then s
  else if req = mode then s.setFld (F.LG_MARGIN_MODE_blocked n) 0
  else if s.penOf n req < s.penOf n mode ∨ (s.penOf n req = s.penOf n mode ∧ req ≠ 0) then
    let b := s.entryBlocked n req
    let s := s.setFld (F.LG_MARGIN_MODE_blocked n) b
    if b = 0 ∧ !s.flag (F.LG_MARGIN_MODE_held n) then s.startTransition n req else s
  else (s.setFld (F.LG_MARGIN_MODE_blocked n) 0).startTransition n req

/-- What an epoch boundary does to a held domain: the hold begins after the relaxing, runs down, and ends (R375).
Marks: DEDUCED, log entry 55. -/
def Block.holdEpoch (s : Block) (n : Nat) : Block :=
  let m := s.margin n
  if s.fld (F.LG_MARGIN_MODE_trans n) ≠ 0 then s
  else if 0 < m.holdNext then s.setMargin n { m with hold := m.holdNext, holdNext := 0 }
  else if 0 < m.hold then
    (s.setMargin n { m with hold := m.hold - 1 }).setFld (F.LG_MARGIN_MODE_hold_left n)
      (min 255 ((m.hold - 1 + 15) / 16))
  else s

/-- Anticipatory loses the class table or its pre-boost (Table 08-6 codes 3 and 4); a Relay whose link carries nothing
is in Static already. -/
def Block.exitAnt (s : Block) (n code : Nat) : Block :=
  if s.glintMode n = 2 then s.marginExit n code false false else s

/-- Confidence exit and the run of epochs in a margin mode (Table 08-6 code 2, R375). -/
def Block.marginEpoch (s : Block) (n : Nat) : Block :=
  let mode := s.fld (F.LG_MARGIN_MODE_mode n)
  let low := s.fld (F.WCE_DOM_CONF_conf n) + s.mfld (dieOfDom n) F.LG_MARGIN_CFG_conf_exit_margin < s.wce.enter
  let m := s.margin n
  let run := if mode = 2 ∧ low then m.confLow + 1 else 0
  let stay := if mode = 0 then 0 else min 1024 (m.stay + 1)
  let s := s.setMargin n { m with confLow := run, stay := stay }
  let s := if stay = 1024 then s.setFld (F.LG_MARGIN_MODE_fb_run n) 0 else s
  if 4 ≤ run then (s.setMargin n { s.margin n with confLow := 0 }).marginExit n 2 false false else s

end Sys2Proof.Machine
end

