-- ==== Sys2Proof/Machine/SiloOps.lean ====
section
/-! DEFINITION. Operations of the Silo slices that several commands share: calendar, refunds, revocations
(07_launch_admission.md). -/
namespace Sys2Proof.Machine
open Sys2Proof

/-- The limiter window of the present FT (R308). -/
def Block.window (s : Block) : Nat := s.now / 32

/-- State of a core (Table 13-14). -/
def Block.coreState (s : Block) (c : Nat) : Nat := s.fld ⟨0x3000, 3 * c, 3⟩

/-- The tasks of control core `c` run: on the core they are bound to (R547), outside the pause of a live update (R568,
R575). -/
def Block.coreRuns (s : Block) (c : Nat) : Bool :=
  let b := s.fld (F.FWC_CORE_bound_to c)
  decide (b < 4) && s.coreState b == 0 && decide (s.fld F.FWC_UPD_STATUS_state < 3)

/-- The grant stop that is wanted: 1 for SILO_CTRL, a power-state transition or a reset (R327), 2 for a breakpoint drain
alone (R578), 0 for none. -/
def Block.stopWanted (s : Block) : Nat :=
  if s.flag F.SILO_CTRL_grant_stop || s.power.stop || s.rst.warm then 1 else if s.silo.drainStop then 2 else 0

/-- The grant stop is registered when it changes (R48). -/
def Block.noteStop (s : Block) : Block :=
  let x := s.silo.stopNext
  let want := s.stopWanted
  { s with silo := { s.silo with stopNext := if x.value = want then x else x.put want s.now } }

/-- Signed credit of a context on a die; entry 0 is the reserve (R331). -/
def Block.credit (s : Block) (d c : Nat) : Int := s.fldI (F.SILO_CREDIT_credit_nj d c)
def Block.setCredit (s : Block) (d c : Nat) (v : Int) : Block := s.setFldS (F.SILO_CREDIT_credit_nj d c) v

/-- Booked current of a calendar entry (R323). -/
def SiloDom.booked (x : SiloDom) (w : Nat) : Nat := Tab.get zeroN x.book (w % 128)
def SiloDom.setBook (x : SiloDom) (w v : Nat) : SiloDom := { x with book := Tab.set zeroN x.book (w % 128) (v % 65536) }

/-- Add or remove a ramp from window `w` on. -/
def SiloDom.addRamp (x : SiloDom) (w : Nat) (st : List Nat) : SiloDom :=
  (st.zipIdx).foldl (fun x p => x.setBook (w + p.2) (x.booked (w + p.2) + p.1)) x
def SiloDom.subRamp (x : SiloDom) (w : Nat) (st : List Nat) : SiloDom :=
  (st.zipIdx).foldl (fun x p => x.setBook (w + p.2) (x.booked (w + p.2) - p.1)) x

/-- Unbook a grant and refund the credit it was drawn from (R310, R314, R326). The debits of the epoch stay summed
(R332). -/
def Block.refund (s : Block) (g : Grant) : Block :=
  let d := dieOfTile g.tile
  let n := domOfTile g.tile
  let s := s.setSdom n ((s.sdom n).subRamp g.win g.st)
  let c := if g.src = 1 then 0 else g.ctx
  let s := s.setCredit d c (s.credit d c + g.debit)
  let x := s.slice d
  s.setSlice d { x with grants := x.grants.filter (· != g) }

/-- Send a reply down a slice's chains (R307). -/
def Block.reply (s : Block) (d : Nat) (r : Reply) : Block :=
  s.setSlice d { s.slice d with replies := (s.slice d).replies ++ [r] }

/-- The record of a request that waits ends with its grant, its refusal or its cancel (R677). -/
def Block.waitEnds (s : Block) (t tag : Nat) : Block :=
  let d := dieOfTile t
  let x := s.slice d
  s.setSlice d { x with waiting := x.waiting.filter fun (w : Nat × Nat × Nat × Nat × Nat) => !(w.1 == t && w.2.1 == tag) }

/-- The record of a request that waits: its last reason, and the FT of its first wait. -/
def Block.waitNoted (s : Block) (t tag ctx reason : Nat) : Block :=
  let d := dieOfTile t
  let x := s.slice d
  let first := ((x.waiting.find? fun (w : Nat × Nat × Nat × Nat × Nat) => w.1 == t && w.2.1 == tag).map fun
    (w : Nat × Nat × Nat × Nat × Nat) => w.2.2.2.2).getD s.now
  let s := s.waitEnds t tag
  s.setSlice d { s.slice d with waiting := (s.slice d).waiting ++ [(t, tag, ctx, reason, first)] }

/-- Revoke the grants of a die that a test chooses: revoke replies, unbooked windows, refunded debits (R326). -/
def Block.revokeWhere (s : Block) (d : Nat) (p : Grant → Bool) : Block :=
  ((s.slice d).grants.filter p).foldl
    (fun s g => (s.refund g).reply d (.revoke g.tile g.tag g.ctx g.win)) s

/-- A grant is outstanding to the end of its third window (R312). -/
def Block.outstanding (s : Block) (g : Grant) : Bool := decide (s.window < g.win + 3)

/-- Revoke every outstanding grant of a die, as at a trip (R326). -/
def Block.revokeAll (s : Block) (d : Nat) : Block := s.revokeWhere d s.outstanding

/-- Revoke the grants of a unit whose window begins after `at_` (R421, Table 12-7). -/
def Block.revokeAfter (s : Block) (d : Nat) (tiles : List Nat) (at_ : Nat) : Block :=
  s.revokeWhere d fun g => tiles.contains g.tile && decide (at_ < g.win * 32)

/-- A Post that is reset, isolated or loses power: its Relay withdraws the grants whose window has not begun
(R314). -/
def Block.withdrawTile (s : Block) (t : Nat) : Block :=
  let d := dieOfTile t
  let s := ((s.slice d).grants.filter fun g => g.tile == t && decide (s.now < g.win * 32)).foldl Block.refund s
  let x := s.slice d
  s.setSlice d { x with waiting := x.waiting.filter fun (w : Nat × Nat × Nat × Nat × Nat) => w.1 != t }

/-- Every slice stops granting at once and revokes, as at a trip (R326, R514). -/
def Block.stopGrants (s : Block) : Block :=
  s.forAll (List.range 4) fun s d => (s.setSlice d { s.slice d with stopped := true }).revokeAll d

/-- Busy tiles of a context on a die: grants whose window has begun and no idle notice has ended (R311). -/
def Block.busyTiles (s : Block) (d c : Nat) : Nat :=
  (((s.slice d).grants.filter fun g => g.ctx == c && !g.done && decide (g.win ≤ s.window)).map (·.tile)).eraseDups.length

/-- Show the busy tiles of a context (Table 07-12). -/
def Block.showBusy (s : Block) (c : Nat) : Block :=
  if c = 0 then s
  else s.setFld (F.SILO_CTX_STAT_busy_tiles c) (sumN ((List.range 4).map fun d => s.busyTiles d c))

/-- Context configuration and tile map in force in a slice (R340). -/
def Block.ctxCfg (s : Block) (d c : Nat) : Nat := Tab.get (fun _ => 1) (s.slice d).cfg c
def Block.ctxState (s : Block) (d c : Nat) : Nat := getBits (s.ctxCfg d c) 16 2
def Block.ctxSecuring (s : Block) (d c : Nat) : Bool := bit (s.ctxCfg d c) 11
def Block.tileCtx (s : Block) (t : Nat) : Nat := Tab.get zeroN (s.slice (dieOfTile t)).tiles t

/-- Revoke the context grants of a domain whose window begins at or after window `w` (R326). -/
def Block.revokeFrom (s : Block) (n w : Nat) : Block :=
  s.revokeWhere (n / 16) fun g => domOfTile g.tile == n && g.src != 1 && decide (w ≤ g.win)

/-- The active class-table bank (R318). -/
def Block.classBank (s : Block) : ClassBank :=
  if s.flag F.SILO_STATUS_table_bank then s.silo.bankB else s.silo.bankA

/-- The class entry a request on a die is decided by, and whether it is the default class (R313, R317, R751). -/
def Block.classFor (s : Block) (d ctx cls : Nat) : ClassE × Bool :=
  let b := s.classBank
  if b.loaded ∧ !(s.slice d).badCls.contains cls then (Tab.get (fun _ => ClassE.reset) b.entries cls, false)
  else (⟨s.fld F.SILO_DEFAULT_CLASS_energy_nj, 0, if s.ctxSecuring d ctx then 2 else 3, true,
    s.fld F.SILO_DEFAULT_CLASS_step_16 :: List.replicate 7 0⟩, true)

/-- The factors of a domain at a tick boundary (R316): V in mV and f in MHz in force. -/
def Block.scaleDom (s : Block) (n v f : Nat) : Block :=
  let b := s.classBank
  let mv := if b.loaded then b.refMv else 750
  let mhz := if b.loaded then b.refMhz else 2000
  s.setSdom n { s.sdom n with
    kvt := satU 16 (divRound (16384 * v * v) (mv * mv))
    kf := satU 16 (divRound (16384 * v * f) (mv * mhz)) }

end Sys2Proof.Machine
end

