-- ==== Sys2Proof/Machine/Fault.lean ====
section
/-! DEFINITION. The Fault Collector: recording, severity and reaction (12_faults_and_isolation.md). -/
namespace Sys2Proof.Machine
open Sys2Proof

/-- What the instance of a source names (R499). -/
inductive InstKind
  | tile (t : Nat) | phase (p : Nat) | domain (d : Nat) | die (d : Nat) | other
  deriving DecidableEq, Repr

/-- The Instance column of Table 12-1; a lost instance names nothing (R503). -/
def instKind (g src inst : Nat) : InstKind :=
  if inst = 0xFFF then .other
  else if g = 24 then (if inst < 0x400 then .tile inst else .domain (inst - 0x400))
  else if (g, src) = (0, 0) ∨ (g, src) = (2, 0) ∨ (g, src) = (2, 1) ∨ g = 9 ∨ (g, src) = (10, 1) ∨
    (g, src) = (11, 2) then .tile (inst % 1024)
  else if g = 6 then .phase inst
  else if (g, src) = (1, 1) ∨ (g, src) = (2, 2) ∨ g = 4 ∧ src < 2 ∨ g = 5 ∨ g = 7 ∨ (g, src) = (10, 0) ∨ g = 12 then
    .domain inst
  else if (g, src) = (0, 1) ∨ (g, src) = (1, 2) ∨ g = 8 ∨ g = 11 ∨ g = 20 ∧ src ≠ 0 ∧ inst < 4 then .die inst
  else .other

/-- The core domains a DEGRADE reaction affects (R512). -/
def affectedDoms : InstKind → List Nat
  | .tile t => [domOfTile t]
  | .phase p => if domOfPhase p < 64 then [domOfPhase p] else []
  | .domain d => if d < 64 then [d] else []
  | .die d => (List.range 16).map (16 * d + ·)
  | .other => List.range 64

/-- The unit an ISOLATE reaction isolates: whether a domain, and its number (R513). -/
def isolatedUnit : InstKind → Option (Bool × Nat)
  | .tile t => some (false, t)
  | .phase p => if domOfPhase p < 64 then some (true, domOfPhase p) else none
  | .domain d => if d < 64 then some (true, d) else none
  | _ => none

/-- The severity field of a source (R540). -/
def sevField (g src : Nat) : Fld := ⟨0x10808 + 0x20 * g, 4 * src, 3⟩

/-- The severity a fault registered now takes: a code written in this very cycle is in force from the next (R510). -/
def Block.severity (s : Block) (g src : Nat) : Nat :=
  match s.fc.sevWas.find? fun (x : Nat × Nat × Nat × Nat) => x.1 == s.edge && x.2.1 == g && x.2.2.1 == src with
  | some x => x.2.2.2
  | none => s.fld (sevField g src)

/-- Sticky sources: group, source. -/
def Block.stickies (s : Block) : List (Nat × Nat) :=
  (List.range 26).flatMap fun g =>
    ((List.range 8).filter fun k => bit (s.fld (F.FC_GRP_STICKY_sticky g)) k).map fun k => (g, k)

/-- FC_STATUS, the summary and the level of FAULT_N follow the sticky bits and the severity codes (R506, R515, R518). -/
def Block.showFc (s : Block) : Block :=
  let st := s.stickies
  let grp := (st.map (·.1)).eraseDups
  let s := s.setFld F.FC_STATUS_grp (grp.foldl (fun m g => setBit m g true) 0)
  let s := s.setFld F.FC_SUMMARY_n_groups grp.length
  let s := s.setFld F.FC_SUMMARY_fault_n
    (b2n (st.any fun p => decide (s.fld F.FC_CTRL_fault_n_min ≤ s.fld (sevField p.1 p.2))))
  s.setFld F.FC_SUMMARY_max_cost (maxN ((st.filter fun p =>
    decide (s.fld F.FC_CTRL_first_min ≤ s.fld (sevField p.1 p.2))).map fun p => Tab.get zeroN s.fc.costs (8 * p.1 + p.2)))

/-- Whether a fault goes before the latched one (R507). -/
def Block.beforeFirst (s : Block) (g src inst : Nat) (ft : Ft) : Bool :=
  let f := s.fld F.FC_FIRST_FT_ft
  decide (ft.toNat < f) || (decide (ft.toNat = f) &&
    let a := (g * 8 + src) * 4096 + inst
    let b := (s.fld F.FC_FIRST_group * 8 + s.fld F.FC_FIRST_source) * 4096 + s.fld F.FC_FIRST_instance
    decide (a < b))

/-- Latch a fault in FC_FIRST. -/
def Block.latchFirst (s : Block) (g src inst sev cost : Nat) (ft : Ft) (injected forced : Bool) : Block :=
  let w := packBits [(31, 1, 1), (28, 3, sev), (26, 2, cost), (25, 1, b2n injected), (24, 1, b2n forced),
    (18, 6, g), (15, 3, src), (0, 12, inst)]
  (s.setReg 0x10010 (BitVec.ofNat 64 w)).setFld F.FC_FIRST_FT_ft ft.toNat

/-- Decide FC_FIRST and count what it does not keep (R507). -/
def Block.decideFirst (s : Block) (g src inst sev cost : Nat) (ft : Ft) (injected forced : Bool) : Block :=
  if sev < s.fld F.FC_CTRL_first_min then s
  else if !s.flag F.FC_FIRST_valid then s.latchFirst g src inst sev cost ft injected forced
  else
    let s' := (s.setFld F.FC_FIRST_OVF_ovf 1).incSat F.FC_FIRST_OVF_ovf_count
    if s.beforeFirst g src inst ft then s'.latchFirst g src inst sev cost ft injected forced else s'

/-- The FAULT entry of the event ring (R517, Table 16-6). -/
def Block.faultEntry (s : Block) (r : FaultRec) (sev cost : Nat) (forced : Bool) : Block :=
  if sev = 0 ∧ !s.flag F.FC_CTRL_log_to_ring then s
  else s.event 0x01 r.ft (leBytes 1 r.group ++ leBytes 1 r.source ++ leBytes 2 r.inst ++ leBytes 1 sev ++
    leBytes 1 cost ++ leBytes 1 (packBits [(0, 1, b2n r.ended), (1, 1, b2n forced), (2, 1, b2n r.injected)]) ++
    leBytes 1 0 ++ leBytes 2 r.coalesced)

/-- The core that runs the tasks of home core `h` (R544, R546). -/
def Block.boundCore (s : Block) (h : Nat) : Nat :=
  if h = 4 then 4 else if s.fld (F.FWC_CORE_bound_to h) < 4 then s.fld (F.FWC_CORE_bound_to h) else h

/-- Cores with an FC interrupt pending (Table 12-4). -/
def Block.fcIrq (s : Block) (core : Nat) : Block :=
  if s.fc.irq.contains core then s else { s with fc := { s.fc with irq := s.fc.irq ++ [core] } }

/-- The reaction class of a fault (R518). -/
def reactClass (k : InstKind) (sev : Nat) : Nat :=
  if sev = 4 then 2 else if sev = 3 ∧ (isolatedUnit k).isSome then 1 else 0

/-- Exit the affected domains to Static (R512). -/
def Block.degrade (s : Block) (k : InstKind) : Block :=
  s.forAll (affectedDoms k) fun s n =>
    if s.fld (F.LG_MARGIN_MODE_mode n) = 0 ∧ s.fld (F.LG_MARGIN_MODE_trans n) = 0 then s
    else s.marginExit n 7 true true

/-- Stop the package (R514). -/
def Block.fatal (s : Block) : Block :=
  (s.stopGrants.setFld F.FC_SUMMARY_fatal_stop 1).degrade .other

/-- A beginning of 25.0 gives the QV2 hint, with the FT of the boundary of the interval, while it is committed (R615).
Marks: DEDUCED, log entry 61. -/
def Block.riskHint (s : Block) : Block :=
  if bit (s.fld (F.HIU_FEAT_committed 0)) 9 then
    s.event 0x04 (BitVec.ofNat 64 (s.fc.riskSeen * 1073741824))
      (leBytes 2 (s.fld F.FC_RISK_score) ++ leBytes 2 (s.fld F.FC_RISK_CFG_risk_thr))
  else s

/-- Record a fault: sticky bit, detail, count, FC_FIRST, alert and event entry (R505-R509, R516-R518); a corrected ECC
error counts in the risk interval (R534). -/
def Block.record (s : Block) (r : FaultRec) (sev : Nat) (forced dry : Bool) : Block :=
  let g := r.group
  let k := instKind g r.source r.inst
  let cost := max (sourceCost g r.source) (if dry then 0 else reactClass k sev)
  let n := 1 + r.coalesced
  let i := 8 * g + r.source
  let s := s.setMapBit (F.FC_GRP_STICKY_sticky g) r.source true
  let s := if forced then s.setMapBit (F.FC_GRP_STICKY_forced g) r.source true else s
  let s := s.setFld (F.FC_GRP_LAST_source g) r.source
  let s := s.setFld (F.FC_GRP_LAST_instance g) r.inst
  let s := s.setFld (F.FC_GRP_LAST_injected g) (b2n r.injected)
  let s := s.incSat (F.FC_GRP_LAST_count g) n
  let s := s.setFld (F.FC_GRP_LAST_FT_ft g) r.ft.toNat
  let s := { s with fc := { s.fc with
    counts := bump64 s.fc.counts i n
    costs := Tab.set zeroN s.fc.costs i (max cost (Tab.get zeroN s.fc.costs i))
    riskC := if i = 128 ∧ !forced then s.fc.riskC + n else s.fc.riskC } }
  let s := s.decideFirst g r.source r.inst sev cost r.ft r.injected forced
  let s := if s.fld F.FC_CTRL_alert_min ≤ sev then s.setFld F.FC_SUMMARY_alert_pend 1 else s
  let s := if 1 ≤ sev then s.fcIrq (s.boundCore 3) else s
  let s := if sev = 4 then s.fcIrq 4 else s
  let s := (s.faultEntry r sev cost forced).showFc
  if g = 25 ∧ r.source = 0 then s.riskHint else s

/-- The reaction to a fault, without its isolation (R512, R514). -/
def Block.reactBase (s : Block) (r : FaultRec) : Block :=
  let sev := s.severity r.group r.source
  let k := instKind r.group r.source r.inst
  if sev = 4 then s.fatal
  else if sev = 2 ∨ (sev = 3 ∧ (isolatedUnit k).isNone) then s.degrade k
  else s

/-! ## A force and a detection of one cycle (R521) -/

/-- The fault of a key that the FC registered in the present cycle. -/
def Block.recentOf (s : Block) (r : FaultRec) : Option Recent :=
  s.fc.recent.find? fun x => x.at_ == s.now && x.group == r.group && x.source == r.source && x.inst == r.inst

/-- Remember a fault that is being registered. -/
def Block.noteRecent (s : Block) (r : FaultRec) (forced : Bool) : Block :=
  let was := bit (s.fld (F.FC_GRP_STICKY_forced r.group)) r.source
  let l := s.fc.recent.filter fun x => x.at_ == s.now
  { s with fc := { s.fc with recent := l ++ [⟨s.now, r.group, r.source, r.inst, forced, was⟩] } }

/-- The event entry of a forced fault, as a detection's (Table 16-6). -/
def Entry.unforce (r : FaultRec) (e : Entry) : Entry :=
  let key := leBytes 1 r.group ++ leBytes 1 r.source ++ leBytes 2 r.inst
  if e.kind = 1 ∧ e.ft = r.ft ∧ e.body.take 4 = key then
    { e with body := e.body.set 6 (BitVec.ofNat 8 (putBits (e.body.getD 6 0).toNat 1 1 0)) }
  else e

/-- The forced fault of this cycle was a detection too: its forced bit clears, with the cost of its reaction. -/
def Block.unforce (s : Block) (r : FaultRec) (x : Recent) : Block :=
  let cost := max (sourceCost r.group r.source) (reactClass (instKind r.group r.source r.inst) (s.severity r.group r.source))
  let i := 8 * r.group + r.source
  let s := if x.was then s else s.setMapBit (F.FC_GRP_STICKY_forced r.group) r.source false
  let first := s.flag F.FC_FIRST_valid && s.flag F.FC_FIRST_forced && s.fld F.FC_FIRST_group == r.group &&
    s.fld F.FC_FIRST_source == r.source && s.fld F.FC_FIRST_instance == r.inst
  let s := if first then (s.setFld F.FC_FIRST_forced 0).setFld F.FC_FIRST_cost cost else s
  let s := { s with
    fc := { s.fc with
      costs := Tab.set zeroN s.fc.costs i (max cost (Tab.get zeroN s.fc.costs i))
      recent := s.fc.recent.map fun y => if y == x then { y with forced := false } else y }
    ttu := { s.ttu with queue := s.ttu.queue.map (Entry.unforce r) } }
  s.showFc

/-- The FC registers a fault and reacts (R505-R518); the end of a condition is recorded on the event ring only, a
condition that is active raises nothing again (R498), and a force and a detection of one cycle are one fault (R521). A
condition whose instance was lost (R503) counts as no active one: nothing could end it. -/
def Block.raiseBy (s : Block) (react : Block → FaultRec → Block) (r : FaultRec) (forced : Bool) : Block :=
  let key := (r.group, r.source, r.inst)
  if r.ended then
    if s.fc.active.contains key then
      let s := { s with fc := { s.fc with active := s.fc.active.filter (· != key) } }
      s.faultEntry r (s.severity r.group r.source) (sourceCost r.group r.source) false
    else s
  else if isCondition r.group r.source && !forced && s.fc.active.contains key then s
  else if forced && (s.recentOf r).isSome then s
  else
    let dry := s.flag F.FC_CTRL_force_dry
    let s := if isCondition r.group r.source && !forced && r.inst != 0xFFF then
      { s with fc := { s.fc with active := s.fc.active ++ [key] } } else s
    let s := if isCondition r.group r.source && forced && !s.fc.forcedNow.contains key then
      { s with fc := { s.fc with forcedNow := s.fc.forcedNow ++ [key] } } else s
    match (s.recentOf r).filter (·.forced) with
    | some x =>
      let s := { s.unforce r x with fc := { (s.unforce r x).fc with forcedNow := s.fc.forcedNow.filter (· != key) } }
      if dry then react s r else s
    | none =>
      let s := (s.noteRecent r forced).record r (s.severity r.group r.source) forced (forced && dry)
      if forced && dry then s else react s r

/-- Register a fault that is not forced, without the isolation part of a reaction. -/
def Block.raiseBase (s : Block) (r : FaultRec) : Block := s.raiseBy Block.reactBase r false

/-! ## Isolation orders and re-admission (R525-R532) -/

/-- Instance of group 24 (R499). -/
def unitInst (u : Bool × Nat) : Nat := if u.1 then 0x400 + u.2 else u.2

/-- The tiles of a unit. -/
def unitTiles (u : Bool × Nat) : List Nat := if u.1 then tilesOf u.2 else [u.2]

/-- FC_ISO_TILE and FC_ISO_DOM report a unit (R528): the tiles of an isolated domain are isolated with it, and each reads
so until it rejoins. -/
def Block.showIso (s : Block) (u : Bool × Nat) (on : Bool) : Block :=
  let tile (s : Block) (t : Nat) : Block := s.setMapBit (F.FC_ISO_TILE_map (t / 32)) (t % 32) on
  if u.1 then
    let s := if on then s.forAll (tilesOf u.2) tile else s
    s.setMapBit (F.FC_ISO_DOM_map (u.2 / 32)) (u.2 % 32) on
  else tile s u.2
def Block.isoTile (s : Block) (t : Nat) : Bool := bit (s.fld (F.FC_ISO_TILE_map (t / 32))) (t % 32)
def Block.isoDom (s : Block) (n : Nat) : Bool := bit (s.fld (F.FC_ISO_DOM_map (n / 32))) (n % 32)

/-- Clear the registers of a range of window offsets to their reset values. -/
def Block.clearWin (s : Block) (lo hi : Nat) : Block :=
  { s with win := s.win.filter fun p => !(decide (lo ≤ p.1) && decide (p.1 < hi)) }

/-- A Post loses power: its switch reads open, its state is lost and its Relay withdraws what has not begun
(R37, R314). Requests the command processor presents stay on P1 (R305).
Marks: DEDUCED, log entry 49. -/
def Block.postOff (s : Block) (t : Nat) : Block :=
  let s := s.withdrawTile t
  (s.setPost t { PostS.reset with pres := (s.post t).pres }).clearWin (0x100000 + 0x1000 * t) (0x101000 + 0x1000 * t)

/-- A Post loses its rail while its switch stays as it is (R37). -/
def Block.railLost (s : Block) (t : Nat) : Block :=
  let p := s.post t
  if p.powered then
    let s := s.postOff t
    s.setPost t { s.post t with segs := p.segs, open_ := p.open_, opening := p.opening, openAt := p.openAt }
  else s

/-- The outcome of the request FC_ISO_STATUS reports, when it is the one that ends. -/
def Block.isoResult (s : Block) (op target result : Nat) : Block :=
  if s.flag F.FC_ISO_STATUS_busy ∧ s.fld F.FC_ISO_STATUS_op = op ∧ s.fld F.FC_ISO_STATUS_target = target then
    (s.setFld F.FC_ISO_STATUS_busy 0).setFld F.FC_ISO_STATUS_result result
  else s

/-- A re-admission of a tile ends: it leaves the list, and the request it belongs to ends with it. -/
def Block.endReadmit (s : Block) (t result : Nat) : Block :=
  match s.fc.readmits.find? (·.tile == t) with
  | none => s
  | some r =>
    let s := { s with fc := { s.fc with readmits := s.fc.readmits.filter (·.tile != t) } }
    match r.ofDom with
    | none => s.isoResult 2 t result
    | some n =>
      let last := !(s.fc.readmits.any fun x => x.ofDom == some n)
      let s := if last ∧ result ≠ 3 then s.showIso (true, n) false else s
      let s := if result = 1 then s else s.showIso (false, t) true
      if result ≠ 1 ∨ last then s.isoResult 3 n result else s

/-- Order the closed switches of some tiles open, in ascending order, with the 1/4 stretch before: the first begins at
O + 1,000 ns, each further one 2,000 ns after it; one that is opening keeps its time (R420, R421, Table 12-7). -/
def Block.orderSwitches (s : Block) (tiles : List Nat) : Block :=
  s.forAll (tiles.filter fun t => !(s.post t).open_).zipIdx fun s tk =>
    let p := s.post tk.1
    let at_ := s.now + 1000 + 2000 * tk.2
    s.setPost tk.1 { p with
      opening := true, lgStretch := 2, closePend := false, openAt := if p.opening then min p.openAt at_ else at_ }

/-- Segments of a power switch that have opened, of the 4 that open 375 ns apart (Table 12-7). -/
def PostS.opened (p : PostS) (now : Nat) : Nat :=
  if p.open_ then 4 else if p.opening ∧ p.openAt ≤ now then min 4 ((now - p.openAt) / 375 + 1) else 0

/-- A re-admission fails or is aborted: the switch opens again under R525, a close that waits is withdrawn, and the tile
stays isolated, out of its domain's floor (R351, R531, R532).
Marks: DEDUCED, log entry 57. -/
def Block.dropReadmit (s : Block) (t src result : Nat) : Block :=
  if s.fc.readmits.any (·.tile == t) then
    let s := s.endReadmit t result
    let s := s.setPost t { s.post t with closePend := false }
    let s := (s.orderSwitches [t]).refloor (domOfTile t)
    s.raiseBase (s.mkFault 24 src t s.ft false)
  else s

/-- An isolation of a unit is registered in the present cycle (R529). -/
def Block.noteIso (s : Block) (u : Bool × Nat) : Block :=
  { s with fc := { s.fc with isoNow := (s.fc.isoNow.filter fun x => x.1 == s.edge) ++ [(s.edge, u)] } }

/-- Queue an isolation order on VC0 downward; a re-admission of the unit is aborted (R525, R529, R532).
Marks: DEDUCED, log entry 57. -/
def Block.orderIsolation (s : Block) (u : Bool × Nat) (ft : Ft) : Block :=
  let s := (s.forAll (unitTiles u) fun s t => s.dropReadmit t 1 3).noteIso u
  if s.fc.orders.any fun o => o.1 == u.1 && o.2.1 == u.2 then s
  else { s with fc := { s.fc with orders := s.fc.orders ++ [(u.1, u.2, ft)] } }

/-- The unit is isolated already. -/
def Block.unitIsolated (s : Block) (u : Bool × Nat) : Bool := if u.1 then s.isoDom u.2 else s.isoTile u.2

/-- The reaction to a fault (R512-R514). -/
def Block.react (s : Block) (r : FaultRec) : Block :=
  let s' := s.reactBase r
  match isolatedUnit (instKind r.group r.source r.inst) with
  | some u =>
    if s.severity r.group r.source = 3 then
      if s'.unitIsolated u ∧ !(unitTiles u).any (fun t => s'.fc.readmits.any (·.tile == t)) then s'.noteIso u
      else s'.orderIsolation u r.ft
    else s'
  | none => s'

/-- The FC registers a fault and reacts (R505-R518).
Marks: DEDUCED, log entry 59. -/
def Block.raiseRec (s : Block) (r : FaultRec) (forced : Bool) : Block := s.raiseBy Block.react r forced

/-- A Hub unit raises a fault with the FT of the detecting edge (R501). -/
def Block.raise (s : Block) (g src inst : Nat) : Block := s.raiseRec (s.mkFault g src inst s.ft false) false

/-- A condition of a Hub unit ends. -/
def Block.unraise (s : Block) (g src inst : Nat) : Block := s.raiseRec (s.mkFault g src inst s.ft true) false

/-- A condition of a Hub unit follows a truth value. -/
def Block.follow (s : Block) (g src inst : Nat) (now : Bool) : Block :=
  if now then s.raise g src inst else s.unraise g src inst

end Sys2Proof.Machine
end

