-- ==== Sys2Proof/Machine/Wait.lean ====
section
/-! DEFINITION. What the completions of class B and H wait for, and their results (15_control_packets.md). -/
namespace Sys2Proof.Machine
open Sys2Proof

/-- A record from its fields: (offset, bytes) in rising order, zeros between. -/
def layout (l : List (Nat × List Byte)) : List Byte :=
  l.foldl (fun acc p => acc ++ List.replicate (p.1 - acc.length) 0 ++ p.2) []

/-! ## The packet (R621-R625) -/

namespace Pkt
def opcode (p : Pkt) : Nat := rdAt p.entry 0 1
def flags (p : Pkt) : Nat := rdAt p.entry 1 1
def tag (p : Pkt) : Nat := rdAt p.entry 2 2
def ctx (p : Pkt) : Nat := rdAt p.entry 4 1
def length (p : Pkt) : Nat := rdAt p.entry 6 2
def ft (p : Pkt) : Nat := rdAt p.entry 8 8
/-- The 48 payload bytes, zero from `length` on (R622). -/
def inline (p : Pkt) : List Byte :=
  let l := (p.entry.drop 16).take (min 48 p.length)
  l ++ List.replicate (48 - l.length) 0
/-- A payload field. -/
def arg (p : Pkt) (off n : Nat) : Nat := rdAt p.inline off n
/-- A signed payload field. -/
def argI (p : Pkt) (off n : Nat) : Int := toSigned (8 * n) (p.arg off n)
def onP4 (p : Pkt) : Bool := decide (64 ≤ p.src)
/-- The master of Table 16-7 a packet speaks for: 1 the management port, 2 host software (R293). -/
def master (p : Pkt) : Nat := if p.onP4 then 1 else 2
/-- Its request slot: 1 host, 2 management (R639). -/
def slot (p : Pkt) : Nat := if p.onP4 then 2 else 1
end Pkt

/-! ## Results at the event -/

/-- The fields THERMAL_SET selects, with their effective values. -/
def thermSlot (which m : Nat) : Fld :=
  match which with
  | 0 => F.LG_TTHR0_throttle m
  | 1 => F.LG_TTHR0_control m
  | 2 => F.LG_TTHR1_trip m
  | 3 => F.LG_TTHR1_bmem m
  | _ => F.LG_TTHR2_stack m
def thermEffF (which : Nat) : Fld :=
  match which with
  | 0 => F.LG_TTHR0_EFF_throttle
  | 1 => F.LG_TTHR0_EFF_control
  | 2 => F.LG_TTHR1_EFF_trip
  | 3 => F.LG_TTHR1_EFF_bmem
  | _ => F.LG_TTHR2_EFF_stack

/-- The slot and the effective value of a limit 1-4. -/
def limSlotF (n m : Nat) : Fld := if n = 1 then F.LG_LIM1_thr m else F.LG_LIM_thr (n - 2) m
def limEffF (n : Nat) : Fld := if n = 1 then F.LG_LIM1_EFF_thr else F.LG_LIM_EFF_thr (n - 2)

/-- Context of a tile as the registers stand. -/
def Block.tileCtxReg (s : Block) (t : Nat) : Nat := getBits (s.reg (0xA800 + 4 * (t / 4))).toNat (8 * (t % 4)) 6

def Block.tilesIn (s : Block) (c : Nat) : Nat := ((List.range 1024).filter fun t => s.tileCtxReg t == c).length

/-- The result of a packet of class B or H at its event, without the tail. -/
def Block.jobResult (s : Block) (j : Job) : List Byte :=
  let p := j.pkt
  match p.opcode with
  | 0x10 => u8 j.arg
  | 0x12 => u16 (s.tilesIn (p.arg 0 1))
  | 0x20 => layout [(0, u32 (s.fld (limSlotF (p.arg 0 1) p.slot))), (4, u32 (s.fld (limEffF (p.arg 0 1))))]
  | 0x21 => u16 (s.fld (thermSlot (p.arg 0 1) p.slot)) ++ u16 (s.fld (thermEffF (p.arg 0 1)))
  | 0x23 => layout [(0, u8 j.arg), (4, u32 (s.fld (F.LFC_CEIL_value (p.arg 0 1))))]
  | 0x31 =>
    if p.arg 0 1 = 0xFF then layout [(0, u32 j.arg), (4, u8 (getBits j.arg 32 1))]
    else layout [(0, u32 (1000 * s.fld (F.LG_MARGIN_FREQ_f_now (p.arg 0 1)))),
      (4, u8 (s.fld (F.LG_MARGIN_FREQ_freq_clamped (p.arg 0 1))))]
  | 0x34 => layout [(0, u8 (ofSigned 8 (s.fldI (F.POST_LANTERN_CAL_trim (p.arg 0 2))))),
      (2, u16 (s.fld (F.POST_LANTERN_CAL_cal_temp (p.arg 0 2))))]
  | 0x40 => layout [(0, u16 (getBits j.arg 0 16)), (8, u64 (getBits j.arg 16 64)), (16, u8 (getBits j.arg 80 8))]
  | 0x41 => u8 (match p.arg 0 1 with
      | 0 => s.fld F.EA_STATUS_bank_active
      | 1 => s.fld F.SILO_STATUS_table_bank
      | _ => s.fld F.TME_STATUS_bank_active)
  | 0x46 => u8 (s.fld F.TME_COOL_cool_req) ++ u8 (s.fld F.TME_COOL_source) ++ u8 (s.fld F.TME_COOL_demand_pct)
  | 0x51 => u16 ((List.range 1024).filter fun t => s.flag (F.POST_CTRL_trace_en t)).length
  | 0x64 => u8 (s.fld F.FC_ISO_STATUS_step)
  | 0x65 => u8 (s.fld F.FC_ISO_STATUS_result) ++ u8 (s.fld F.FC_ISO_STATUS_step)
  | 0x70 => layout [(0, u8 (s.fld F.FWC_UPD_STATUS_state)), (4, u32 j.arg)]
  | 0x71 => layout [(0, u32 (s.fld F.FWC_IMAGE_version)), (4, u16 (s.fld F.FWC_UPD_STATUS_pause_us))]
  | 0x92 => u16 (s.fld (F.FWC_CORE_restart_us (p.arg 0 1)))
  | 0x93 => layout [(0, u8 (b2n (s.fld F.BTC_POST_MISR_misr == s.shadow.misr))), (8, u64 (s.fld F.BTC_POST_MISR_misr))]
  | 0xA1 => u8 (s.fld F.LFC_LC_state)
  | 0xA3 => u8 (s.fld F.LFC_SVN_min_svn)
  | _ => []

/-! ## Events -/

/-- What a wait answers: the status that the event adds, and the FT of the effect. A frequency raise whose voltage command
is superseded or aborted ends its packet (R399). -/
def Block.waitOver (s : Block) : Wait → Option (Nat × Nat)
  | .tick k => if k ≤ s.time.last then some (0, s.time.last * 1024) else none
  | .epoch k => if k ≤ s.time.epoch then some (0, s.time.epoch * 16384) else none
  | .step k => if k ≤ s.time.step then some (0, s.time.step * 131072) else none
  | .swap u =>
    let at_ := match u with | 0 => s.ea.swapAt | 1 => s.silo.swapAt | _ => s.tme.swapAt
    if at_.isNone then some (0, s.time.last * 1024) else none
  | .pll k l =>
    if k ≤ s.time.epoch && l.any fun n => (s.margin n).raise == .aborted then some (0x16, 0)
    else if k ≤ s.time.epoch && l.any fun n => (s.margin n).raise == .superseded then some (1, 0)
    else if k ≤ s.time.epoch && l.all fun n => (s.margin n).pll == .idle && s.flag (F.HUB_SB_STATUS_link_up (dieOfDom n))
    then some (0, s.now) else none
  | .cal t =>
    if (s.post t).powered && (s.post t).cal != .idle then none
    else if !(s.post t).powered || s.flag (F.POST_LANTERN_CAL_cal_fail t) then some (0x16, 0) else some (0, s.now)
  | .drained c =>
    if s.flag (F.SILO_CTX_STAT_drained c) then some (0, s.now)
    else if s.fld (F.SILO_CTX_CFG_state c) = 1 then some (1, 0) else none
  | .freed c =>
    match s.fld (F.SILO_CTX_CFG_state c) with
    | 0 => some (0, s.now)
    | 1 => some (1, 0)
    | _ => none
  | .iso =>
    if s.flag F.FC_ISO_STATUS_busy then none
    else if s.fld F.FC_ISO_STATUS_result = 1 then some (0, s.now) else some (0x16, 0)
  | .lbist t =>
    match s.fc.readmits.find? fun r => r.tile == t && r.lbistOnly with
    | some r => if r.step = 4 ∧ !(s.post t).lbist then some (0, s.now) else none
    | none => some (0x16, 0)
  | .core c =>
    match s.fld ⟨0x3000, 3 * c, 3⟩ with
    | 0 => some (0, s.now)
    | 4 => some (0x16, 0)
    | _ => none
  | .auth => s.fwc.authDone.map fun st => (st, if st = 0 then s.now else 0)
  | .act => s.fwc.actDone.map fun st => (st, if st = 0 then s.now else 0)
  | .ceiling _ => s.lfc.done.map fun st => (st, if st = 0 then s.tick * 1024 else 0)
  | .fuse => s.lfc.done.map fun st => (st, if st = 0 then s.now else 0)
  | .bundle 0x11 => if s.wce.pendingSet.isNone then some (0, s.now) else none
  | .bundle 0x31 => if s.silo.loading then none else some (0, s.now)
  | .bundle _ => if s.hiu.loading.isNone then some (0, s.now) else none
  | .group x => if s.flag F.HIU_LEND_STATUS_pending then none else some (0, x)
  | .stop => none
  | .none => none

/-- The first of FAULTED, SUPERSEDED, DEFERRED, CLAMPED and OK that applies (R632). -/
def worse (a b : Nat) : Nat :=
  ((([0x16, 0x15, 0x14, 0x13, 0x12, 0x11, 0x10, 1, 3, 2].filter fun k => k == a || k == b).head?).getD 0)

/-- A job whose event has come takes its outcome; `effect` is the note that DEFERRED has taken effect. -/
def Block.jobStep (s : Block) (j : Job) : Job :=
  match j.out, s.waitOver j.wait with
  | none, some (st, at_) => { j with out := some ⟨worse st j.status, at_, s.jobResult j, []⟩ }
  | _, _ => j

/-- After a command: packets whose event it brought take their outcome (R634), and a grant stop that it wants is
registered (R48). -/
def Block.settle (s : Block) : Block := { s.noteStop with hiu := { s.hiu with jobs := s.hiu.jobs.map s.jobStep } }

end Sys2Proof.Machine
end

