-- ==== Sys2Proof/Machine/Run.lean ====
section
/-! DEFINITION. How a command's effect becomes an outcome. -/
namespace Sys2Proof.Machine

/-- A global stop has cut the block (R680-R683).
Marks: DESIGN CHOICE, log entry 8; DEDUCED, log entry 68. -/
def Block.frozen (s : Block) : Bool := decide (2 ≤ s.fld F.TTU_STOP_STATUS_state)

/-- A command whose effect is on the block, in every state. -/
def State.always (s : State) (f : Block → Block) : Host.Outcome State Fault Refusal :=
  .next { s with block := f s.block }

/-- A command of a part that a global stop leaves running; while the reset groups are asserted no unit acts (R714).
Marks: DESIGN CHOICE, log entry 8. -/
def State.live (s : State) (f : Block → Block) : Host.Outcome State Fault Refusal :=
  s.always fun b => if b.rst.groups then b else f b

/-- A command of a part that a global stop freezes: after the cut nothing changes (Table 16-15). Packets whose event it
brings take their outcome (R634).
Marks: DESIGN CHOICE, log entry 8. -/
def State.on (s : State) (f : Block → Block) : Host.Outcome State Fault Refusal :=
  s.live fun b => if b.frozen then b else (f b).settle

/-! ## The ring region (R585, R601) -/

/-- What a byte of the ring region reads as that no DMA write of the block has reached (log entry 2).
Marks: DESIGN CHOICE, log entry 2. -/
def zeroB (_ : Nat) : Byte := 0

/-- The canonical form of the ring region.
Marks: DESIGN CHOICE, log entry 2. -/
def Memory.wf (m : Tab Byte) : Bool := Tab.wf zeroB m

/-- DMA writes: bytes for consecutive offsets. -/
abbrev Writes := List (Nat × List Byte)

/-- One DMA write. -/
def Memory.write (m : Tab Byte) (off : Nat) (l : List Byte) : Tab Byte :=
  l.zipIdx.foldl (fun (m : Tab Byte) (x : Byte × Nat) => Tab.set zeroB m (off + x.2) x.1) m

/-- A byte of the ring region.
Marks: DESIGN CHOICE, log entry 2. -/
def State.byte (s : State) (a : Nat) : Byte := Tab.get zeroB s.mem a

/-- A command of the HIU that writes to the ring region; `live`: a global stop leaves it running.
Marks: DESIGN CHOICE, log entry 8. -/
def State.writing (s : State) (live : Bool) (f : Block → Block × Writes) : Host.Outcome State Fault Refusal :=
  if s.block.rst.groups || (s.block.frozen && !live) then .next s
  else
    let r := f s.block
    .next { s with block := if live then r.1 else r.1.settle, mem := r.2.foldl (fun m w => Memory.write m w.1 w.2) s.mem }

/-- The effect happens where a condition holds; elsewhere the event does not take place and nothing changes.
Marks: DESIGN CHOICE, log entry 7. -/
def Block.when (s : Block) (c : Bool) (f : Block → Block) : Block := if c then f s else s

end Sys2Proof.Machine
end

