-- ==== Sys2Proof/Machine/VrcOps.lean ====
section
/-! DEFINITION. Regulator slices: references, the voltage loop, phases and domain states (09_regulator_control.md). -/
namespace Sys2Proof.Machine
open Sys2Proof

/-! ## Names of the states (Table 09-6, Table 09-14) -/

namespace Vs
def off : Nat := 0
def prebias : Nat := 1
def soft : Nat := 2
def run : Nat := 3
def hiccup : Nat := 4
def failed : Nat := 5
def stopping : Nat := 6
end Vs

def Block.vstate (s : Block) (d : Nat) : Nat := s.fld (F.VRC_DOM_STATUS_state d)
def Block.phState (s : Block) (p : Nat) : Nat := s.fld (F.VRC_PH_STATUS_state p)

/-- Phases that are on, and phases neither FAILED nor disabled (R410). -/
def Block.phasesOn (s : Block) (d : Nat) : List Nat := (phasesOf d).filter fun p => s.phState p == 1
def Block.phasesAvail (s : Block) (d : Nat) : List Nat :=
  (phasesOf d).filter fun p => s.phState p != 4 && s.phState p != 5

/-- The fewest phases on in RUN (R410). -/
def Block.minPh (s : Block) (d : Nat) : Nat :=
  min (s.fld (F.VRC_DOM_PHASE_min_ph d)) (s.phasesAvail d).length

/-- Show n_on, phases_avail and the failed counts of the slice (Tables 09-9, 09-15). -/
def Block.showPhases (s : Block) (d : Nat) : Block :=
  let die := dieOfDom d
  let s := s.setFld (F.VRC_DOM_STATUS_phases_on d) (s.phasesOn d).length
  let s := s.setFld (F.VRC_DOM_STATUS_phases_avail d) (s.phasesAvail d).length
  let doms := (List.range 72).filter fun x => dieOfDom x == die
  let s := s.setFld (F.VRC_SLICE_STATUS_domains_failed die) (doms.filter fun x => s.vstate x == Vs.failed).length
  s.setFld (F.VRC_SLICE_STATUS_phases_failed die)
    (sumN (doms.map fun x => ((phasesOf x).filter fun p => s.phState p == 4).length))

def Block.setPhState (s : Block) (p st : Nat) : Block := s.setFld (F.VRC_PH_STATUS_state p) st

/-- Both switches of a phase are held low (R407). -/
def VrcPh.cut (x : VrcPh) : VrcPh := { x with acc := 0, pulse := none, tail := none, zero := [], ls := false }

/-- Cut every phase of a domain that is not FAILED or disabled: both switches low (R407). The Posts of a core domain
lose their rail (R37). -/
def Block.cutPhases (s : Block) (d : Nat) : Block :=
  let s := if d < 64 then s.forAll (tilesOf d) fun s t => s.railLost t else s
  (s.forAll (s.phasesAvail d) fun s p =>
    (s.setPhState p 0).setVph p { (s.vph p).cut with wait := 0, lim := false }).showPhases d

/-- Bring every cut or shed phase of a domain on (R416). -/
def Block.allOn (s : Block) (d : Nat) : Block :=
  (s.forAll ((s.phasesAvail d).filter fun p => s.phState p == 0 || s.phState p == 2) fun s p =>
    (s.setPhState p 1).setVph p { s.vph p with acc := 0 }).showPhases d

/-! ## Commands (R396-R398) -/

/-- What a command's end does to the frequency raise it served (R399): its own command opens, or is superseded. -/
def RaiseCmd.opened (r : RaiseCmd) (prev : Nat) : RaiseCmd :=
  match r with
  | .waiting => .open_
  | .open_ => if prev = 1 then .superseded else .none
  | r => r

def RaiseCmd.abort (r : RaiseCmd) : RaiseCmd :=
  match r with
  | .waiting | .open_ => .aborted
  | r => r

/-- Change the raise of a core domain. -/
def Block.raiseCmd (s : Block) (d : Nat) (f : RaiseCmd → RaiseCmd) : Block :=
  if d < 64 then s.setMargin d { s.margin d with raise := f (s.margin d).raise } else s

/-- The command in force ends before it reached its target (R398). -/
def Block.abortCmd (s : Block) (d : Nat) : Block :=
  let s := s.raiseCmd d RaiseCmd.abort
  if s.fld (F.VRC_DOM_CMD_cur d) = 0 then s.setFld (F.VRC_DOM_CMD_cur d) 2 else s

/-- A new command opens toward the target in force; the previous one completes (R396, R398). -/
def Block.openCmd (s : Block) (d tgt cause rate : Nat) : Block :=
  let cur := s.fld (F.VRC_DOM_CMD_cur d)
  let v := s.vdom d
  let prev := if cur = 2 then 2
    else if cur = 0 ∧ v.refQ ≠ s.fld (F.VRC_DOM_VID_vid_in_force d) * 4096 then 1 else 0
  let s := s.incWrap (F.VRC_DOM_CMD_seq d)
  let s := s.setFld (F.VRC_DOM_CMD_prev d) prev
  let s := if prev = 1 then s.incSat (F.VRC_DOM_CMD_superseded d) else s
  let s := s.setFld (F.VRC_DOM_CMD_cur d) 0
  let s := s.setFld (F.VRC_DOM_CMD_cause d) cause
  let s := s.setFld (F.VRC_DOM_VID_vid_in_force d) tgt
  (s.setVdom d { s.vdom d with rate := rate }).raiseCmd d (RaiseCmd.opened · prev)

/-- Take the changes registered before the period boundary of now; one registered at its very edge waits for the next
(R48, R395, R396). A domain that drives nothing keeps no command open: its target follows without one.
Marks: DEDUCED, log entries 50 and 52. -/
def Block.takeTarget (s : Block) (d : Nat) : Block :=
  let v := s.vdom d
  let wait := decide (v.late.1 ≠ 0 ∧ v.tgt.at_ = s.edge)
  let t := if wait then v.tgt.prev else s.targetOf d
  let causes := if wait then v.causes else v.causes ||| v.late.1
  let causeRate := if wait then v.causeRate else max v.causeRate v.late.2
  let s := s.setVdom d { v with
    tgt := if wait then v.tgt else ⟨t, v.tgt.at_, t⟩
    causes := 0, causeRate := 0, late := if wait then v.late else (0, 0) }
  if t = s.fld (F.VRC_DOM_VID_vid_in_force d) then s
  else
    let st := s.vstate d
    if st = Vs.off ∨ st = Vs.stopping ∨ st = Vs.failed then s.setFld (F.VRC_DOM_VID_vid_in_force d) t
    else
      let rate := if st = Vs.soft then s.fld (F.VRC_DOM_SLEW_ss_rate d)
        else if causeRate = 0 then s.domRate d else causeRate
      s.openCmd d t causes rate

/-- Movement of a reference in one period (R397). -/
def moveRef (ref tgt rate : Nat) : Nat :=
  let step := (rate * 32768 + 500) / 1000
  if ref < tgt then min (ref + step) tgt else max (ref - step) tgt

/-! ## Entering states (R414-R422) -/

/-- Mean of the last 16 output samples in 1/16 mV (R415). -/
def VrcDom.mean16 (v : VrcDom) : Nat :=
  let l := v.samples.take 16
  if l.isEmpty then 0 else sumN l * 5 / l.length

/-- Enter OFF: phases cut, command aborted, retries cleared (R414, R419). -/
def Block.enterOff (s : Block) (d : Nat) : Block :=
  let s := (s.cutPhases d).abortCmd d
  let s := (s.setFld (F.VRC_DOM_STATUS_state d) Vs.off).setFld (F.VRC_DOM_STATUS_retries d) 0
  let s := s.setVdom d { s.vdom d with integ := 0, dfl := 0, opening := false, crowbar := false }
  let s := if d < 64 then s.marginFailed d else s
  s.showPhases d

/-- Start a domain from its sampled output (R415): `fresh` opens the soft-start command; a hiccup keeps the one
that is open (R398). -/
def Block.startDomain (s : Block) (d : Nat) (fresh : Bool) : Block :=
  let t := s.targetOf d
  let m := (s.vdom d).mean16
  let s := if fresh then (s.openCmd d t 8 (s.fld (F.VRC_DOM_SLEW_ss_rate d))) else s
  let s := s.setVdom d { s.vdom d with
    integ := 0, dfl := 0, ePrev := 0, ssRun := 0, limRun := 0, stuckRun := 0, runRun := 0, bad := false }
  if 16 * t ≤ m then s.setFld (F.VRC_DOM_STATUS_state d) Vs.prebias
  else
    let ref := if m ≤ 16 * 50 then 0 else m * 256
    let s := s.setVdom d { s.vdom d with refQ := ref, rate := s.fld (F.VRC_DOM_SLEW_ss_rate d) }
    (s.setFld (F.VRC_DOM_STATUS_state d) Vs.soft).allOn d

/-- Enter FAILED (R420). -/
def Block.enterFailed (s : Block) (d : Nat) : Block :=
  let s := (s.cutPhases d).abortCmd d
  let s := (s.setFld (F.VRC_DOM_STATUS_state d) Vs.failed).showPhases d
  let s := s.relayFault (dieOfDom d) 7 1 d
  if d < 64 then
    let s := (s.orderSwitches (tilesOf d)).forAll (tilesOf d) fun s t =>
      s.setTile t { s.tile t with isolated := true }
    s.marginFailed d
  else s

/-- A hiccup, or FAILED at three retries (R419). -/
def Block.enterHiccup (s : Block) (d : Nat) : Block :=
  let r := s.fld (F.VRC_DOM_STATUS_retries d)
  if 3 ≤ r then s.enterFailed d
  else
    let s := (s.cutPhases d).setFld (F.VRC_DOM_STATUS_retries d) (r + 1)
    let s := s.setFld (F.VRC_DOM_STATUS_state d) Vs.hiccup
    s.setVdom d { s.vdom d with hiccup := 125000 }

/-- Enter STOPPING (R421). -/
def Block.enterStopping (s : Block) (d : Nat) : Block :=
  let s := s.abortCmd d
  let s := s.setFld (F.VRC_DOM_STATUS_de_active d) 0
  let s := if d < 64 then s.marginFailed d else s
  let from_ := s.vstate d
  (s.setFld (F.VRC_DOM_STATUS_state d) Vs.stopping).setVdom d { s.vdom d with opening := false, stopFrom := some from_ }

/-- A die's link carries commands to its slice and its Posts (R74). -/
def Block.linkUp (s : Block) (die : Nat) : Bool := s.flag (F.HUB_SB_STATUS_link_up die)

/-- A write of en = 0 (R421). -/
def Block.disableDomain (s : Block) (d : Nat) : Block :=
  let s := s.setFld (F.VRC_DOM_CTRL_en d) 0
  let st := s.vstate d
  if st = Vs.prebias ∨ st = Vs.hiccup then s.enterOff d
  else if st = Vs.soft ∨ st = Vs.run then
    if d < 64 ∧ (tilesOf d).any (fun t => !(s.post t).open_) then
      let s := s.revokeAfter (dieOfDom d) (tilesOf d) (s.now + 64)
      let s := s.orderSwitches (tilesOf d)
      s.setVdom d { s.vdom d with opening := true }
    else s.enterStopping d
  else s

/-- Every domain of every slice enters OFF at a trip (R422). -/
def Block.allOff (s : Block) : Block := s.forAll (List.range 72) fun s d => s.enterOff d

/-- A phase enters FAILED (R407, R425); without phases the domain fails (R410). -/
def Block.failPhase (s : Block) (p : Nat) : Block :=
  let d := domOfPhase p
  let s := (s.setPhState p 4).setVph p { (s.vph p).cut with wait := 0 }
  let s := (s.relayFault (dieOfDom d) 6 1 p).showPhases d
  if (s.phasesAvail d).isEmpty ∧ (s.vstate d = Vs.soft ∨ s.vstate d = Vs.run) then s.enterFailed d else s

/-! ## The voltage loop (R400, R403) -/

/-- The coefficient words in force, by field (Table 09-12). -/
def VrcDom.kp (v : VrcDom) : Int := toSigned 16 (getBits (v.coef.getD 0 0) 16 16)
def VrcDom.ki (v : VrcDom) : Int := toSigned 16 (getBits (v.coef.getD 0 0) 0 16)
def VrcDom.kd (v : VrcDom) : Int := toSigned 16 (getBits (v.coef.getD 1 0) 16 16)
def VrcDom.df (v : VrcDom) : Int := getBits (v.coef.getD 1 0) 8 8
def VrcDom.kb (v : VrcDom) : Int := getBits (v.coef.getD 1 0) 0 8
def VrcDom.dmax (v : VrcDom) : Nat := getBits (v.coef.getD 2 0) 24 8
def VrcDom.minOn (v : VrcDom) : Nat := getBits (v.coef.getD 2 0) 16 8
def VrcDom.intLim (v : VrcDom) : Int := getBits (v.coef.getD 2 0) 0 16
def VrcDom.domOff (v : VrcDom) : Nat := getBits (v.coef.getD 3 0) 16 8
def VrcDom.dtLh (v : VrcDom) : Nat := getBits (v.coef.getD 3 0) 8 5
def VrcDom.dtHl (v : VrcDom) : Nat := getBits (v.coef.getD 3 0) 0 5

/-- The feed-forward for a reference `rq` (R400). -/
def feedForward (rq vin16 : Nat) : Int := (rq / 256 * 65536 / vin16 : Nat)

/-- One period of the loop: the output u and the loop state after it (R400). The first duty of a start is the feed-forward
(R415).
Marks: DEDUCED, log entry 127. -/
def loopStep (v : VrcDom) (vin16 : Nat) (first : Bool) : Nat × VrcDom :=
  let v16 : Int := ((v.adcA + v.adcB) * 5 / 2 : Nat)
  let rq := v.refQ + v.boost * 4096
  let e := satS 16 ((rq / 256 : Nat) - v16)
  let pt := sar (v.kp * e) 8
  let integ := clampI (-v.intLim) v.intLim (v.integ + sar (v.ki * e) 8)
  let dfl := satS 16 (sar (v.df * v.dfl + (256 - v.df) * (e - v.ePrev)) 8)
  let dt := sar (v.kd * dfl) 8
  let ff := feedForward rq vin16
  if first then ((clampI 0 (v.dmax * 256 : Nat) ff).toNat, { v with integ := 0, dfl := 0, ePrev := e })
  else ((clampI 0 (v.dmax * 256 : Nat) (ff + pt + integ + dt)).toNat, { v with integ := integ, dfl := dfl, ePrev := e })

/-- Sampled current of a phase in 1/16 A (R391). -/
def iPh16 (code : Nat) : Int := ((code : Int) - 256).fdiv 2

/-- Duty of one phase: width and accumulator after it (R390, R403). -/
def phaseDuty (v : VrcDom) (u acc : Nat) (mean i : Int) : Nat × Nat :=
  let uph := (clampI 0 (v.dmax * 256 : Nat) ((u : Int) + sar (v.kb * (mean - i)) 4)).toNat
  let s := uph + acc
  let w := s / 256
  let a := s % 256
  let (w, a) := if v.dmax < w then (v.dmax, 0) else (w, a)
  if 0 < w ∧ w < v.minOn then (0, min s 4095) else (w, a)

/-! ## The two switches of a phase (R385, R386, R388) -/

/-- The high side is asserted, and the low side held low, at a fine step. -/
def Pulse.high (q : Pulse) (t : Int) : Bool := decide (q.rise ≤ t ∧ t < q.rise + q.width)
def Pulse.low (q : Pulse) (t : Int) : Bool := decide (q.rise - q.before ≤ t ∧ t < q.rise + q.width + q.after)

/-- A pulse as the next period counts it. -/
def Pulse.next (q : Pulse) : Pulse := { q with rise := q.rise - 256 }

/-- The DPWM of a phase in a period with the pulse of `w` fine steps at offset `o`: the low side is held low from dt_lh
before the pulse to dt_hl after it, and from before the period where it was not driven yet. Without a pulse it stays as it
was. The pulse of the period before goes on past that period's end. -/
def VrcPh.drive (x : VrcPh) (w o dtLh dtHl : Nat) : VrcPh :=
  let tail := x.pulse.map Pulse.next
  let zero := x.zero.map fun z => (z.1 - 256, z.2.map (· - 256))
  let zero := zero.filter fun z => z.2.all fun b => decide (-256 < b)
  if w = 0 then { x with pulse := none, tail := tail, zero := zero }
  else { x with
    pulse := some ⟨o, w, if x.ls then dtLh else o + 256, dtHl⟩, tail := tail, ls := true
    zero := zero.map fun z => (z.1, some (z.2.getD o)) }

/-- The overvoltage action: the high side low, the low side on (R423). -/
def VrcPh.crowbar (x : VrcPh) : VrcPh := { x with acc := 0, pulse := none, tail := none, zero := [], ls := true }

/-- PH_HS and PH_LS of a phase at a fine step counted from the start of the last period: a step below 0 lies in the period
before, one of 256 and more in the next (R388). -/
def VrcPh.hsAt (x : VrcPh) (t : Int) : Bool := x.pulse.any (·.high t) || x.tail.any (·.high t)
def VrcPh.lsAt (x : VrcPh) (t : Int) : Bool :=
  x.ls && !(x.pulse.any (·.low t) || x.tail.any (·.low t)) &&
    x.zero.all fun z => decide (t < z.1) || z.2.any fun b => decide (b ≤ t)

/-- The fine step of the present edge in a domain's period: 32 steps a nanosecond. -/
def Block.stepOf (s : Block) (d : Nat) : Int := 32 * ((s.edge : Int) - (s.vdom d).perAt)

/-- A pulse that falls at the second timebase edge after the comparator's registering edge, which lies at `t`, or at the
pulse's rise when that is later (R406). -/
def Pulse.truncate (q : Pulse) (t : Int) : Pulse := { q with width := min q.width (max 0 (t - q.rise) + 16).toNat }

/-- The peak limit at a fine step: the pulse that is asserted falls, and none follows in the period (R406). `none`: no
pulse is asserted or to come.
Marks: DESIGN CHOICE, log entry 56. -/
def VrcPh.limit (x : VrcPh) (t : Int) : Option VrcPh :=
  match x.tail, x.pulse with
  | some q, p => if q.high t && !p.any (·.high t) then some { x with tail := some (q.truncate t), pulse := none }
    else p.bind fun p => if t < p.rise + p.width then some { x with pulse := some (p.truncate t) } else none
  | none, some p => if t < p.rise + p.width then some { x with pulse := some (p.truncate t) } else none
  | none, none => none

/-- The zero comparator is registered low at a fine step: PH_LS falls at the second edge, until the next pulse (R413). -/
def VrcPh.zeroAt (x : VrcPh) (t : Int) : VrcPh :=
  { x with zero := x.zero ++ [(t + 16, (x.pulse.filter fun p => decide (t < p.rise)).map (·.rise))] }

/-- Windows booked ahead that pre-boost reads (R378). -/
def Block.bookedAhead (s : Block) (n : Nat) : Nat :=
  let w := s.window
  sumN ((List.range (s.mfld (dieOfDom n) F.LG_PB_CFG_pb_lead)).map fun k => (s.sdom n).booked (w + 1 + k))

end Sys2Proof.Machine
end

