-- ==== Sys2Proof/Machine/LevelOps.lean ====
section
/-! DEFINITION. Thermal levels, trips and the level of a core domain, as the Relays hold them
(06_limits_and_budgets.md R271-R282). -/
namespace Sys2Proof.Machine
open Sys2Proof

/-! ## Conditions (Table 06-5), in 1/16 degree -/

/-- The reading at which a domain's tiles give level `l` (1-5). -/
def Block.tileCond (s : Block) (l : Nat) : Int :=
  if l ≤ 1 then s.fld F.LG_TTHR0_EFF_throttle
  else s.fld F.LG_TTHR0_EFF_control + [0, 32, 80, 128].getD (l - 2) 128

/-- The level a tile reading gives. -/
def Block.tileLevel (s : Block) (r : Int) : Nat :=
  ((List.range 5).filter fun k => decide (s.tileCond (k + 1) ≤ r)).length

/-- The reading below which the bonded-memory row leaves level `l`. -/
def Block.bmemCond (s : Block) (l : Nat) : Int :=
  s.fld F.LG_TTHR1_EFF_bmem + (if l ≤ 1 then -32 else if l ≤ 3 then 0 else 80)

/-- The level the hottest sensor of a bonded memory die gives. -/
def Block.bmemLevel (s : Block) (r : Int) : Nat :=
  if s.bmemCond 4 ≤ r then 4 else if s.bmemCond 3 ≤ r then 3 else if s.bmemCond 1 ≤ r then 1 else 0

/-- The temperature at which a stack gives level `l` (1-2). -/
def Block.stackCond (s : Block) (l : Nat) : Int := s.fld F.LG_TTHR2_EFF_stack + (if l ≤ 1 then 0 else 80)

/-- The level a stack gives. -/
def Block.stackLevel (s : Block) (r : Int) : Nat :=
  if s.stackCond 2 ≤ r then 2 else if s.stackCond 1 ≤ r then 1 else 0

/-- A reading for a row: the level rises at once, and the run of cool ticks breaks unless the reading lies at least
1 degree below the condition of the level that stands (R273, R274). -/
def Row.read (x : Row) (lvl : Nat) (cool : Bool) : Row :=
  if x.level < lvl then ⟨lvl, 0⟩ else if cool then x else { x with cool := 0 }

/-! ## Levels of a core domain -/

/-- The thermal level of core domain `n`: the highest its rows give (R273, R276). -/
def Block.thermLevel (s : Block) (n : Nat) : Nat :=
  let t := s.thermS (n / 16)
  let k := n % 16
  let tile := max (t.tile.getD k Row.reset).level (if t.noSens.getD k false then 3 else 0)
  max tile (max (max t.bmem.level (if t.bmemNone then 3 else 0)) t.stack.level)

/-- The level of core domain `n` as its Relay holds it (R282). -/
def Block.domLevel (s : Block) (n : Nat) : Nat :=
  let a := (s.relay (n / 16)).act
  max (s.thermLevel n) (max a.level a.hot)

/-- Level 5 holds and is not being left: the cap of R395 applies.
Marks: DESIGN CHOICE, log entry 136. -/
def Block.capHeld (s : Block) (n : Nat) : Bool :=
  let a := (s.relay (n / 16)).act
  let t := s.thermS (n / 16)
  (decide (5 ≤ a.level) && !a.restoring) || decide (5 ≤ a.hot) ||
    (decide (5 ≤ (t.tile.getD (n % 16) Row.reset).level) && !t.restoring.getD (n % 16) false)

/-- The lowest value of the cap of a domain (Table 06-6). -/
def Block.capFloor (s : Block) (n : Nat) : Nat := max 500 (s.floorAt n 800 + 60)

/-- Lower the cap once: from the cap, from `start` when there is none (R395). One that leaves the target where it is causes
nothing (R396). -/
def Block.lowerCap (s : Block) (n start : Nat) : Block :=
  let v := s.vdom n
  let from_ := v.lgCap.getD start
  let c := max (s.capFloor n) (from_ - 5 * s.fld F.LG_CTRL_vid_step)
  let s' := s.setVdom n { v with lgCap := some c }
  if s'.targetOf n = s.targetOf n then s' else s'.vrcCause n 1 20

/-- The cap follows level 5: it starts from the target in force, or from the reference when level 5 returns during a
restore, and it is removed when the step down begins (R281, R395). -/
def Block.syncCap (s : Block) (n : Nat) (again : Bool) : Block :=
  let v := s.vdom n
  match s.capHeld n, v.lgCap with
  | true, none => s.lowerCap n (if again then v.refQ / 4096 else s.fld (F.VRC_DOM_VID_vid_in_force n))
  | false, some _ => (s.setVdom n { v with lgCap := none }).vrcCause n 1 (s.domRate n)
  | _, _ => s

/-- The stretch an LG level orders: 2 for 1/4, 1 for 1/2 (Table 06-6). -/
def levelStretch (l : Nat) : Nat := if 4 ≤ l then 2 else if 3 ≤ l then 1 else 0

/-- The Relay gives a domain its level: registered for the next window, grants revoked at a rise to 2, the cap moved
(R282, R325, R326, R395). The stretch order follows as STRETCH_ORDER. -/
def Block.applyLevel (s : Block) (n : Nat) : Block :=
  let l := s.domLevel n
  let was := (s.sdom n).nextLevel.value
  let s := s.syncCap n (was == 5)
  if l = was then s
  else
    let s := s.setSdom n { s.sdom n with nextLevel := (s.sdom n).nextLevel.put l s.now }
    if 2 ≤ l ∧ was < 2 then s.revokeFrom n (s.window + 1) else s

/-- The Relay forms a thermal state record when a thermal level of its die changes (R277). -/
def Block.thermRecord (s : Block) (die : Nat) (trip : Option (Bool × Nat)) : Block :=
  let q := s.relay die
  let old := match q.thermalDue with | some r => r.trip | none => none
  let r : ThermRec := ⟨(List.range 16).map (fun k => s.thermLevel (16 * die + k)),
    max (s.thermS die).bmem.level (if (s.thermS die).bmemNone then 3 else 0), old.or trip⟩
  s.setRelay die { q with thermalDue := some r }

/-- Replace the thermal rows of a die, and act where a thermal level changed. -/
def Block.setRows (s : Block) (die : Nat) (t : ThermS) : Block :=
  let before := (List.range 16).map fun k => s.thermLevel (16 * die + k)
  let s := s.setTherm die t
  let s := s.forAll (List.range 16) fun s k => s.applyLevel (16 * die + k)
  if before = (List.range 16).map (fun k => s.thermLevel (16 * die + k)) then s else s.thermRecord die none

/-! ## Trips (R275) -/

/-- A trip ends the transition of the power state: it reads the state last reached (R738). -/
def Block.endTransitions (s : Block) : Block :=
  let st := s.fld F.HUB_PSTATE_STATUS_state
  let back := [0, 0, 2, 2, 2, 5, 5].getD st 0
  let s := { s with power := { s.power with
    phase := .rest, toStart := [], waking := [], hold := s.power.hold || decide (back = 5)
    stop := decide (back ≠ 0), ret := decide (back = 5) } }
  if back = st then s
  else ((s.setFld F.HUB_PSTATE_STATUS_state back).setFld F.HUB_PSTATE_STATUS_held 0).setFld F.HUB_PSTATE_FT_ft s.now

/-- A trip: THERMTRIP_N asserted, every phase cut, every grant stopped, and the record sent. A transition of the power
state ends (R738). -/
def Block.tripNow (s : Block) (die : Nat) (bmem : Bool) (tile : Nat) : Block :=
  if s.lg.tripped then s.thermRecord die (some (bmem, tile))
  else
    let s := { s with lg := { s.lg with tripped := true } }
    let s := (s.setFld F.LG_STATUS_trip 1).endTransitions.allOff
    s.stopGrants.thermRecord die (some (bmem, tile))

/-- A tile reading passes through the Relay (R272, R273, R275, R443): `none` when it is not valid. -/
def Block.tileReading (s : Block) (t : Nat) (r : Option Int) : Block :=
  let x := s.tile t
  let n := domOfTile t
  let die := dieOfTile t
  let s := s.setTile t { x with reading := r }
  match r with
  | none => s
  | some v =>
    let heat : Int := match s.stim 1 t with | some (m, p) => if m = 0 then 0 else 16 * p | none => 0
    let s := match s.stim 1 t with
      | some (m, p) => s.setStim 1 t (if m = 0 then none else some (m - 1, p))
      | none => s
    let hot := decide ((s.fld F.LG_TTHR1_EFF_trip : Int) ≤ v + heat)
    let run := if hot then x.tripRun + 1 else 0
    let s := s.setTile t { s.tile t with tripRun := min 2 run }
    let s := if x.suspect then s
      else
        let th := s.thermS die
        let k := n % 16
        let row := th.tile.getD k Row.reset
        let row' := row.read (s.tileLevel v) (decide (v + 16 ≤ s.tileCond row.level))
        s.setRows die { th with
          tile := th.tile.set k row'
          tmax := th.tmax.set k (some (match th.tmax.getD k none with | some m => max m v | none => v))
          noSens := th.noSens.set k false
          restoring := th.restoring.set k (th.restoring.getD k false && decide (s.tileLevel v < 5)) }
    let s := s.setFld (F.LG_DOM_STATE_trip_pending n) (b2n ((tilesOf n).any fun y => (s.tile y).tripRun == 1))
    if 2 ≤ run then s.tripNow die false t else s

/-! ## What a tick boundary does to the rows (R274, R276) -/

/-- The readings of a tick end: a domain without one stands at level 3, a domain with every switch open takes no level
from its tiles, and a cool tick counts. -/
def Block.thermTickDom (s : Block) (n : Nat) : Block :=
  let die := n / 16
  let k := n % 16
  let th := s.thermS die
  let closed := (tilesOf n).any fun t => !(s.post t).open_
  let row := th.tile.getD k Row.reset
  let tm := th.tmax.getD k none
  let was := th.noSens.getD k false
  let none_ := closed && tm.isNone
  let row' := if !closed then Row.reset else match tm with
    | none => { row with cool := 0 }
    | some v => if 0 < row.level ∧ v + 16 ≤ s.tileCond row.level then { row with cool := row.cool + 1 }
        else { row with cool := 0 }
  let s := s.setRows die { th with
    tile := th.tile.set k row'
    tmax := th.tmax.set k none
    noSens := th.noSens.set k none_
    restoring := th.restoring.set k (closed && th.restoring.getD k false) }
  let s := if none_ && !was then s.relayFault die 2 2 n else if was && !none_ then s.relayFault die 2 2 n true else s
  let s := s.setFld (F.LG_DOM_STATE_no_sensor n) (b2n none_)
  s.setFld (F.LG_DOM_STATE_tmax n) (match tm with | some v => ofSigned 16 v | none => 0x8000)

/-- The Relay reads its bonded-memory sensors once a tick (R272, R273, R275).
Marks: DEDUCED, log entry 106. -/
def Block.bmemTick (s : Block) (die : Nat) : Block :=
  let q := s.relay die
  let th := s.thermS die
  match q.bmem.filterMap id with
  | [] => s.setRows die { th with bmemNone := true, bmem := { th.bmem with cool := 0 } }
  | x :: xs =>
    let v := xs.foldl max x
    let row := th.bmem
    let row' := row.read (s.bmemLevel v) true
    let row' := if row'.level = row.level ∧ 0 < row.level ∧ v + 16 ≤ s.bmemCond row.level
      then { row with cool := row.cool + 1 } else { row' with cool := 0 }
    let run := if (s.fld F.LG_TTHR1_EFF_bmem : Int) + 240 ≤ v then q.bmemTrip + 1 else 0
    let s := s.setRelay die { q with bmemTrip := min 2 run }
    let s := s.setRows die { th with bmemNone := false, bmem := row' }
    if 2 ≤ run then s.tripNow die true 0 else s

/-- A level-5 fall begins its restore, or ends at 4 once the VID stands at its setpoint (R281). -/
def Block.startRestore (s : Block) (n : Nat) : Block :=
  let th := s.thermS (n / 16)
  s.setRows (n / 16) { th with restoring := th.restoring.set (n % 16) true }

/-- The thermal level of a row falls by one (R274). Row 0 is the tiles of a domain, 1 the bonded memory of a die, 2 its
stacks.
Marks: DEDUCED, log entry 106. -/
def Block.rowFall (s : Block) (die k row : Nat) : Block :=
  let th := s.thermS die
  let hold := s.fld F.LG_CTRL_hold_ticks
  match row with
  | 0 =>
    let r := th.tile.getD k Row.reset
    if r.cool < hold ∨ r.level = 0 then s
    else if r.level = 5 then s.startRestore (16 * die + k)
    else s.setRows die { th with tile := th.tile.set k ⟨r.level - 1, 0⟩ }
  | 1 =>
    if th.bmem.cool < hold ∨ th.bmem.level = 0 then s
    else s.setRows die { th with bmem := ⟨th.bmem.level - 1, 0⟩ }
  | _ =>
    if th.stack.cool < hold ∨ th.stack.level = 0 then s
    else s.setRows die { th with stack := ⟨th.stack.level - 1, 0⟩ }

end Sys2Proof.Machine
end

