-- ==== Sys2Proof/Machine/PostOps.lean ====
section
/-! DEFINITION. The Tile Post: counters, digests, segments, boundaries and the Sheaf (03_activity_sensing.md). -/
namespace Sys2Proof.Machine
open Sys2Proof

/-- A Post runs: powered, out of reset and not in logic BIST. -/
def PostS.runs (p : PostS) : Bool := p.powered && !p.inReset && !p.lbist

/-! ## Digests (R117-R122) -/

/-- Element width in bits of an elem_width code (R119). -/
def elemBits (code : Nat) : Nat := [4, 8, 16, 32].getD (code % 4) 8

/-- Zero elements of a sample (R119). -/
def zeroElems (width : Nat) (negZero : Bool) (x : Nat) : Nat :=
  (List.range (64 / width)).foldl (fun z k =>
    let e := getBits x (width * k) width
    if e = 0 ∨ (negZero ∧ e = 2 ^ (width - 1)) then z + 1 else z) 0

/-- One sample of a channel: figures z and p, and the channel after it (R120). -/
def sampleCh (width : Nat) (negZero : Bool) (c : DigCh) (x : DWord) : Nat × Nat × DigCh :=
  let p := if c.fresh then 0 else popCount 64 (x ^^^ c.prev).toNat
  (zeroElems width negZero x.toNat, p, { c with prev := x, fresh := false })

/-- A bin gains one, saturating at 65,535 (R121). -/
def binInc (l : List Nat) (b : Nat) : List Nat := l.set b (satU 16 (l.getD b 0 + 1))

/-- Feed the valid beats of a stream to a channel: the first of each 2^shift is sampled (R118). -/
def feedCh (width shift : Nat) (negZero : Bool) (acc : DigCh × List Nat × List Nat × Nat × Nat) (x : DWord) :
    DigCh × List Nat × List Nat × Nat × Nat :=
  let (c, hz, ht, sz, sp) := acc
  let n := 64 / width
  let c' := { c with beats := (c.beats + 1) % 2 ^ shift }
  if c.beats = 0 then
    let (z, p, c'') := sampleCh width negZero c' x
    (c'', binInc hz (min (8 * z / n) 7), binInc ht (min (p / 8) 7), sz + z, sp + p)
  else (c', hz, ht, sz, sp)

/-- The largest increment of each counter in a Post cycle (Table 03-1). -/
def maxInc : List Nat :=
  [1, 1, 1, 1, 16, 8, 8, 2, 16, 16, 16, 4, 4, 4, 4, 2] ++ [16, 16, 4, 8, 8, 1, 2, 2, 4, 4, 16, 16, 1, 2, 1, 8]

/-- The residency state of a Post (R111, R367): the compute clock is gated while the tile runs no command and while its
Lantern is calibrated.
Marks: DESIGN CHOICE, log entry 116. -/
def Block.residency (s : Block) (t : Nat) : Nat :=
  let p := s.post t
  if p.running = 0 ∨ p.cal = .running then 1
  else match s.fld (F.POST_LANTERN_stretch t) with | 0 => 0 | 1 => 2 | _ => 3

/-- The state may have changed: the cycles that follow count in the present one (R367). -/
def Block.noteResid (s : Block) (t : Nat) : Block :=
  let p := s.post t
  let r := s.residency t
  if p.resid.getLast? = some r then s else s.setPost t { p with resid := p.resid ++ [r] }

/-- After a capture that changes the state itself, nothing has been counted in it yet. -/
def Block.startResid (s : Block) (t : Nat) : Block := s.setPost t { s.post t with resid := [s.residency t] }

/-- Post cycles of residency state `k` in an activity that passed through `states` (R111). -/
def residCycles (states cycles : List Nat) (k : Nat) : Nat :=
  sumN ((states.zip cycles).map fun x => if x.1 = k then x.2 else 0)

/-- The valid beats of a stream, at most one a Post cycle (R117, R118); codes 6 and 7 carry nothing.
Marks: DESIGN CHOICE, log entry 116. -/
def streamBeats (a : Activity) (stream cycles : Nat) : List DWord := (a.streams.getD stream []).take cycles

/-- Launches at earlier edges than the present one are counted (counter 28, R112, R113, R116). -/
def Block.foldLaunch (s : Block) (t : Nat) : Block :=
  let p := s.post t
  if 0 < p.launch.1 ∧ p.launch.2 < s.edge then
    s.setPost t { p with counts := p.counts.set 28 ((p.counts.getD 28 0 + p.launch.1) % 2 ^ 48), launch := (0, 0) }
  else s

/-- Count what happened since the last capture (R110-R113): the cycles in the states the Post passed through, the events
those cycles can hold, and the digest unit's counters. -/
def Block.countPost (s : Block) (t : Nat) (act : Activity) : Block :=
  let s := s.foldLaunch t
  let p := s.post t
  let n := sumN ((List.range 4).map (residCycles p.resid act.cycles))
  let (c0, hz0, ht0, z, g) := (streamBeats act (s.fld (F.POST_DIG_CFG_ch0_stream t)) n).foldl
    (feedCh (elemBits (s.fld (F.POST_DIG_CFG_ch0_elem_width t))) 4 (s.flag (F.POST_DIG_CFG_ch0_float_zero t)))
    (p.ch0, p.hist.getD 0 [], p.hist.getD 1 [], 0, 0)
  let (c1, hz1, ht1, _, _) := if s.flag (F.POST_DIG_CFG_ch1_en t) then
      (streamBeats act (s.fld (F.POST_DIG_CFG_ch1_stream t)) n).foldl (feedCh (elemBits (s.fld (F.POST_DIG_CFG_ch1_elem_width t)))
        (s.fld (F.POST_DIG_CFG_ch1_sample_shift t)) (s.flag (F.POST_DIG_CFG_ch1_float_zero t)))
        (p.ch1, p.hist.getD 2 [], p.hist.getD 3 [], 0, 0)
    else (p.ch1, p.hist.getD 2 [], p.hist.getD 3 [], 0, 0)
  let tog := p.togRem + g
  let inc (i : Nat) : Nat :=
    if i < 4 then residCycles p.resid act.cycles i
    else if i = 26 then z else if i = 27 then tog / 4 else if i = 28 then 0
    else min (act.counts.getD i 0) (maxInc.getD i 0 * n)
  s.setPost t { p with
    counts := (List.range 32).map fun i => (p.counts.getD i 0 + inc i) % 2 ^ 48
    togRem := tog % 4, ch0 := c0, ch1 := c1, hist := [hz0, ht0, hz1, ht1]
    resid := match p.resid.getLast? with | some r => [r] | none => [1] }

/-- A launch counts in the interval that begins at its edge: a capture one edge later includes it (R112, R113, R116). -/
def Block.countLaunch (s : Block) (t : Nat) : Block :=
  let s := s.foldLaunch t
  s.setPost t { s.post t with launch := ((s.post t).launch.1 + 1, s.edge) }

/-- A configuration word of the digest unit is stored (R120, R122): a channel whose configuration changes starts
afresh, and a window that changes starts its count of epochs.
Marks: DESIGN CHOICE, log entry 116. -/
def Block.storeDigest (s : Block) (t new : Nat) : Block :=
  let old := (s.reg (F.POST_DIG_CFG_window t).off).toNat
  let s := s.setReg (F.POST_DIG_CFG_window t).off (BitVec.ofNat 64 new)
  let p := s.post t
  let p := if getBits old 0 6 = getBits new 0 6 then p else { p with ch0 := DigCh.reset }
  let p := if getBits old 6 10 = getBits new 6 10 then p else { p with ch1 := DigCh.reset }
  let p := if getBits old 16 8 = getBits new 16 8 then p else { p with epochsLeft := max 1 (getBits new 16 8) }
  s.setPost t p

/-- The channel 0 configuration and its lock (Table 03-11), as firmware or the Relay gives them (R123, R530). -/
def Block.loadCh0 (s : Block) (t c : Nat) : Block :=
  let x := (s.reg (F.POST_DIG_CFG_window t).off).toNat
  s.storeDigest t (putBits (putBits x 0 6 c) 31 1 (getBits c 31 1))

/-- A record for VC3 enters a Relay, after the loss flit of what was dropped before it, which takes no place; a record that
finds too few of the 768 places is dropped whole (R670, R675).
Marks: DEDUCED, log entry 103. -/
def Block.relayTrace (s : Block) (die : Nat) (m : Vc3) (places : Nat) : Block :=
  let q := s.relay die
  if 768 < q.vc3Fill + places then (s.setRelay die { q with vc3Lost := q.vc3Lost + 1 }).cntDie die 6
  else
    let loss := if 0 < q.vc3Lost then [Vc3.loss (satU 16 q.vc3Lost)] else []
    s.setRelay die { q with vc3 := q.vc3 ++ loss ++ [m], vc3Fill := q.vc3Fill + places, vc3Lost := 0 }

/-- The ten flits of a digest record, by type (Table 16-11). -/
def DigestRec.flits (r : DigestRec) : List (Nat × DWord) :=
  let w (j : Nat) : Nat := r.hist.getD (2 * j) 0 + r.hist.getD (2 * j + 1) 0 * 65536
  (4, BitVec.ofNat 64 (packBits [(54, 10, r.tile), (28, 26, r.ft.toNat), (22, 6, r.ctx), (6, 16, r.tag)])) ::
  (5, BitVec.ofNat 64 (packBits [(48, 16, r.seq), (42, 6, r.cfg), (32, 10, r.cfg / 64), (24, 8, r.cfg / 65536)])) ::
  (List.range 8).map fun j => (6, BitVec.ofNat 64 (w (2 * j) + w (2 * j + 1) * 2 ^ 32))

/-- A boundary record stamped before `ft` has still to leave the Post (R103). -/
def Block.traceBefore (s : Block) (t : Nat) (ft : Ft) : Bool :=
  let p := s.post t
  (p.trace.any fun r => decide (r.ft < ft)) ||
    (s.flag (F.POST_CTRL_trace_en t) && p.items.any fun i => i.snaps.any fun x => decide (x.ft < ft))

/-- The Post's oldest digest record goes to its Relay, which forwards it only where it is selected (R675); its boundary
records of earlier stamps go first (R103). -/
def Block.sendDig (s : Block) (t : Nat) : Option Block :=
  match (s.post t).digs with
  | [] => none
  | r :: rest =>
    if !s.pnClear t 4 || s.traceBefore t r.ft then none
    else (s.upFlits t 4 r.flits).map fun s =>
      let s := s.setPost t { s.post t with digs := rest }
      if s.flag F.TTU_CTRL_dig_fwd ∧ bit (s.fld (F.TTU_DIG_MASK_map (t / 32))) (t % 32) ∧ !s.hopDrops t then
        s.relayTrace (dieOfTile t) (.digest r) 10
      else s

/-- Digest records go up while the chain takes them. -/
def Block.sendDigs (s : Block) (t : Nat) : Block := s.repeat (fun s => s.sendDig t) (s.post t).digs.length

/-- The end of a digest window: copy, clear, count, and queue the record (R122, R675). -/
def Block.digestEnd (s : Block) (t ctx tag : Nat) : Block :=
  let p := s.post t
  let bins := p.hist.flatten
  let done := (List.range 32).map fun i => bins.getD i 0
  let win := s.fld (F.POST_DIG_CFG_window t)
  let s := s.incWrap (F.POST_DIG_SEQ_seq t)
  let r : DigestRec := ⟨t, s.postStamp (dieOfTile t), if win = 0 then ctx else 0, if win = 0 then tag else 0,
    s.fld (F.POST_DIG_SEQ_seq t) % 65536, (s.reg (0x100400 + 0x1000 * t)).toNat, done⟩
  (s.setPost t { p with
    hist := List.replicate 4 (List.replicate 8 0), histDone := done, epochsLeft := max 1 win
    digs := p.digs ++ [r] }).sendDigs t

/-! ## Segments (R124-R132) -/

/-- CRC-16 of 32 weights, low byte first (R124). -/
def bankCrc (ws : List Int) : Nat :=
  crc16 (ws.flatMap fun w => let u := ofSigned 16 w; [u % 256, u / 256])

/-- The bank, its validity and the factor that govern the segment now open (R126, R129). -/
def Block.openBank (s : Block) (t : Nat) : Bool :=
  let p := s.post t
  if p.closing then p.tickBank else s.flag (F.POST_STATUS_bank_active t)
def Block.bankValid (s : Block) (t : Nat) (b : Bool) : Bool :=
  if b then s.flag (F.POST_STATUS_b_valid t) else s.flag (F.POST_STATUS_a_valid t)
def Block.bankOf (s : Block) (t : Nat) (b : Bool) : Bank := if b then (s.post t).bankB else (s.post t).bankA

/-- Differences of two captures, saturated (R130). -/
def deltas (now before : List Nat) : List Nat :=
  (List.range 32).map fun i => satU 16 ((now.getD i 0 + 2 ^ 48 - before.getD i 0) % 2 ^ 48)

/-- Weighted sum of a segment in a 40-bit signed accumulator (R130). -/
def segSum (ws : List Int) (ds : List Nat) : Int :=
  toSigned 40 (ofSigned 40 (sumI ((List.range 32).map fun i => ws.getD i 0 * (ds.getD i 0 : Nat))))

/-- Capture: close the open segment, or leave it open when four wait (R132). A latch always closes.
Marks: DESIGN CHOICE, log entry 135. -/
def Block.capture (s : Block) (t : Nat) (snaps : List Snap) (latch : Option Latch) : Block :=
  let p := s.post t
  let full := 4 ≤ p.items.length
  if full ∧ latch.isNone then
    let k := p.items.length - 1
    match p.items.getLast? with
    | some i =>
      (s.setPost t { p with items := p.items.set k { i with
        snaps := i.snaps ++ snaps.map fun x => { x with merged := true } } }).setFld (F.POST_STATUS_merge_seen t) 1
    | none => s
  else
    let kv := if p.closing then p.segKv else p.kv
    let ds := deltas p.counts p.segCounts
    let sum := segSum (s.bankOf t (s.openBank t)).weights ds
    let kacc := (List.range 32).map fun i => (p.kacc.getD i 0 + ds.getD i 0 * kv) % 2 ^ 40
    let p := { p with segCounts := p.counts, kacc := kacc }
    match decide full, p.items.getLast? with
    | true, some i =>
      let items := p.items.set (p.items.length - 1) { i with
        sum := i.sum + sum, snaps := i.snaps ++ snaps, latch := latch }
      (s.setPost t { p with items := items }).setFld (F.POST_STATUS_merge_seen t) 1
    | _, _ => s.setPost t { p with items := p.items ++ [⟨sum, kv, snaps, latch⟩] }

/-- Attach a boundary to the capture just taken at the same edge (R115). -/
def Block.shareCapture (s : Block) (t : Nat) (snap : Snap) : Block :=
  let p := s.post t
  match p.items.getLast? with
  | some i => s.setPost t { p with items := p.items.set (p.items.length - 1) { i with snaps := i.snaps ++ [snap] } }
  | none => s.setPost t { p with items := [⟨0, p.kv, [snap], none⟩] }

/-- A command boundary (R133, R134): `tag`, `ctx`, `cls` and `dflt` of the command that begins. -/
def Block.boundary (s : Block) (t tag ctx cls : Nat) (dflt atLatch : Bool) : Block :=
  let p := s.post t
  let snap : Snap := ⟨p.counts, s.postStamp (dieOfTile t), p.tag, p.ctx, tag, ctx, cls, dflt, false⟩
  let s := if s.fld (F.POST_DIG_CFG_window t) = 0 then s.digestEnd t p.ctx p.tag else s
  let s := if s.flag (F.POST_CTRL_snap_hold t) then s.incSat (F.POST_STATUS_snap_missed t) else s
  let s := if atLatch then s.shareCapture t snap else s.capture t [snap] none
  s.setPost t { s.post t with tag := tag, ctx := ctx, cls := cls, dflt := dflt }

/-! ## The Sheaf (R137, R141) -/

/-- The rounded share of Post cycles, out of `top` (R137). -/
def share (top part cycles : Nat) : Nat := min top (divRound (top * part) cycles)

/-- The word of a Sheaf (Table 03-3). -/
def sheafWord (t : Nat) (w : WSheaf) : DWord :=
  let x := packBits [(54, 10, t), (46, 8, w.tick), (30, 16, w.energy), (24, 6, share 63 w.run w.cycles),
    (20, 4, share 15 w.str w.cycles), (10, 10, w.tempQ), (6, 4, w.glints), (5, 1, b2n w.bank), (4, 1, b2n w.eSat),
    (3, 1, b2n w.tBad), (2, 1, b2n w.merged), (1, 1, b2n w.probation)]
  BitVec.ofNat 64 (putBits x 0 1 (b2n (parity 64 x)))

/-- Merge a newer Sheaf into the newest waiting one (R141). -/
def mergeSheaf (a b : WSheaf) : WSheaf :=
  { tick := b.tick, energy := satU 16 (a.energy + b.energy), run := a.run + b.run, str := a.str + b.str
    cycles := a.cycles + b.cycles, tempQ := b.tempQ, glints := min 15 (a.glints + b.glints), bank := b.bank
    eSat := a.eSat || b.eSat || decide (65535 < a.energy + b.energy), tBad := b.tBad, merged := true
    probation := a.probation || b.probation }

/-- Form the Sheaf of a latched tick once its segment is added (R137). -/
def Block.formSheaf (s : Block) (t : Nat) (l : Latch) : Block :=
  let p := s.post t
  let eacc := s.fld (F.POST_EACC_eacc_nj t)
  let e := (eacc + 2 ^ 64 - p.eaccSheaf) % 2 ^ 64
  let w : WSheaf := ⟨l.tick, if l.valid then satU 16 e else 0, l.run, l.str, l.cycles, l.tempQ, min 15 l.glints,
    l.bank, !l.valid || decide (65535 < e), l.tBad, false, decide (p.formed < 16)⟩
  let p := { p with eaccSheaf := eacc, formed := p.formed + 1 }
  match decide (4 ≤ p.sheafs.length), p.sheafs.getLast? with
  | true, some a =>
    (s.setPost t { p with sheafs := p.sheafs.set (p.sheafs.length - 1) (mergeSheaf a w) }).setFld
      (F.POST_STATUS_merge_seen t) 1
  | _, _ => s.setPost t { p with sheafs := p.sheafs ++ [w] }

/-- Load the snapshot registers of a boundary and form its trace record (R134, R136). -/
def Block.loadSnap (s : Block) (t : Nat) (x : Snap) : Block :=
  let p := s.post t
  let seq := (p.seq + 1) % 2 ^ 32
  let eacc := s.fld (F.POST_EACC_eacc_nj t)
  let s := s.setPost t { p with seq := seq }
  let s := if s.flag (F.POST_CTRL_snap_hold t) then s
    else
      let s := s.setPost t { s.post t with snapCounts := x.counts }
      let s := (s.setFld (F.POST_SNAP_FT_ft t) x.ft.toNat).setFld (F.POST_SNAP_EACC_eacc_nj t) eacc
      let s := (s.setFld (F.POST_SNAP_CMD_ctx t) x.ctx).setFld (F.POST_SNAP_CMD_tag t) x.tag
      s.setFld (F.POST_SNAP_SEQ_seq t) seq
  if s.flag (F.POST_CTRL_trace_en t) then
    let p := s.post t
    if p.trace.length < 8 then
      let r : TraceRec := ⟨t, x.ft, x.endCtx, x.endTag, x.ctx, x.tag, x.cls, x.dflt, x.merged, satU 8 p.traceLost,
        seq % 65536, eacc⟩
      s.setPost t { p with trace := p.trace ++ [r], traceLost := 0 }
    else
      (s.setPost t { p with traceLost := p.traceLost + 1 }).cntDie (dieOfTile t) 5
  else s

/-- The oldest waiting segment enters the accumulator (R130-R132). -/
def Block.addSegment (s : Block) (t : Nat) : Block :=
  let p := s.post t
  match p.items with
  | [] => s
  | i :: rest =>
    let e := (max 0 (sar (i.sum * i.kv) 14)).toNat
    let rem := p.rem + e
    let s := s.setPost t { p with items := rest, rem := rem % 16000 }
    let s := s.incWrap (F.POST_EACC_eacc_nj t) (rem / 16000)
    let s := s.forAll i.snaps fun s x => s.loadSnap t x
    match i.latch with
    | some l => s.formSheaf t l
    | none => s

/-! ## Reset and power (R726) -/

/-- A Post reset, paired with the hub slot (R530, R726): registers and counters at their reset values, calibration
due, and the channel 0 digest configuration loaded by the Relay.
Marks: DESIGN CHOICE, log entry 135. -/
def Block.postReset (s : Block) (t : Nat) : Block :=
  let p := s.post t
  let s := s.withdrawTile t
  let s := s.clearWin (0x100000 + 0x1000 * t) (0x101000 + 0x1000 * t)
  let s := s.setPost t { PostS.reset with
    powered := p.powered, segs := p.segs, open_ := p.open_, closePend := p.closePend, opening := p.opening, openAt := p.openAt
    pres := p.pres, pubs := p.pubs, cal := .pending, upFlag := true, kv := p.kv, segKv := p.kv }
  let s := s.setFld (F.POST_LANTERN_CAL_cal_busy t) 1
  let s := s.setFld (F.POST_LANTERN_armed t) (b2n p.powered)
  let rel := s.relay (dieOfTile t)
  let s := s.setFld (F.POST_STATUS_bank_active t) (b2n rel.bankSel)
  match rel.digCfg with
  | some c => s.loadCh0 t c
  | none => s

/-- The kv of a domain at a tick boundary (R129): V is the reference without boost. -/
def kvOf (mv : Nat) : Nat := satU 16 (divRound (16384 * mv * mv) 562500)

/-- A tick ends at a Post: the bank active during it is kept for the segment that closes at its latch, and for its Sheaf
(R126, R132, R137). -/
def Block.postEnds (s : Block) (t : Nat) : Block :=
  let p := s.post t
  if p.powered then s.setPost t { p with tickBank := s.flag (F.POST_STATUS_bank_active t), closing := true } else s

/-- The core domains in which some Post is powered. -/
def Block.poweredDoms (s : Block) : List Nat :=
  (((s.posts.map (·.1)).filter fun t => (s.post t).powered).map domOfTile).eraseDups

/-- The kv and tick order of the domain crosses the chain as a broadcast on PN2 (Table 03-5), where some Post is powered.
Without a credit there the Posts keep the factor they have.
Marks: DESIGN CHOICE, log entry 9. -/
def Block.orderSent (s : Block) (n kind v : Nat) : Option Block := s.chSend true n 15 2 (Config.flitType kind) (Config.flitBody kind n v)

/-- What a tick boundary gives a Post (R129, R132): the factor, the old one kept for the segment that closes. -/
def Block.postTick (s : Block) (t kv : Nat) : Block :=
  let p := s.post t
  if p.powered then s.setPost t { p with segKv := p.kv, kv := kv } else s

/-- A Post swaps to its valid inactive bank, or keeps its own and goes stale (R126). -/
def Block.postSwap (s : Block) (t : Nat) : Block :=
  if !(s.post t).powered then s
  else
    let b := s.flag (F.POST_STATUS_bank_active t)
    let was := s.flag (F.POST_STATUS_bank_stale t)
    if s.bankValid t (!b) then
      let s := (s.setFld (F.POST_STATUS_bank_active t) (b2n !b)).setFld (F.POST_STATUS_bank_stale t) 0
      if was then s.postFault t 9 3 true else s
    else
      let s := s.setFld (F.POST_STATUS_bank_stale t) 1
      if was then s else s.postFault t 9 3

/-- Write a bank from a publication, compute its CRC and check the one carried (R124, R125): false when it failed. -/
def Block.loadBank (s : Block) (t : Nat) (b : Bool) (ws : List Int) (crc : Nat) : Block × Bool :=
  let own := bankCrc ws
  let ok := own == crc
  let p := s.post t
  let s := if b then s.setPost t { p with bankB := ⟨ws, own⟩ } else s.setPost t { p with bankA := ⟨ws, own⟩ }
  let s := if b then s.setFld (F.POST_STATUS_b_valid t) (b2n ok) else s.setFld (F.POST_STATUS_a_valid t) (b2n ok)
  if ok then (s, true) else ((s.setFld (F.POST_STATUS_crc_err_seen t) 1).postFault t 9 1, false)

/-! ## PN0 flits upward (R305, R310, R311) -/

/-- The tile a reply goes to. -/
def Reply.tile : Reply → Nat
  | .grant t _ _ _ _ _ _ => t
  | .wait t _ _ _ _ => t
  | .revoke t _ _ _ => t
  | .refuse t _ _ _ => t

/-- The type and the body of a reply (R307, Table 07-2). -/
def Reply.flit : Reply → Nat × DWord
  | .grant _ tag ctx win src debit dflt => (1, withParity (packBits [(48, 16, tag), (42, 6, ctx), (34, 8, win), (32, 2, src),
      (31, 1, b2n dflt), (7, 24, satU 24 debit)]))
  | .wait _ tag ctx reason retry => (2, withParity (packBits [(48, 16, tag), (42, 6, ctx), (39, 3, reason), (29, 10, retry)]))
  | .revoke _ tag ctx win => (3, withParity (packBits [(48, 16, tag), (42, 6, ctx), (34, 8, win)]))
  | .refuse _ tag ctx reason => (4, withParity (packBits [(48, 16, tag), (42, 6, ctx), (39, 3, reason)]))

/-- The body of a PN0 flit upward: a request and a cancel (Table 07-1), or an idle notice (R311).
Marks: DESIGN CHOICE, log entry 116. -/
def UpFlit.word (f : UpFlit) : DWord :=
  if f.kind = 3 then withParity (packBits [(54, 10, f.tile), (42, 6, f.ctx)])
  else withParity (packBits [(54, 10, f.tile), (48, 6, f.ctx), (32, 16, f.tag), (20, 12, f.cls), (14, 6, f.lead)])

/-- A PN0 flit crosses the chain, when it takes one and the tick has a place for it (R305). -/
def Block.crossUp (s : Block) (f : UpFlit) : Option Block :=
  let p := s.post f.tile
  let n := domOfTile f.tile
  if p.pn0 < 8 then
    (s.upFlit f.tile 0 f.kind f.word).map fun s =>
      let s := s.setPost f.tile { s.post f.tile with pn0 := p.pn0 + 1 }
      if s.hopDrops f.tile then s else s.setChain n { s.chain n with up := (s.chain n).up ++ [(f, s.now)] }
  else none

/-- Send a PN0 flit; a ninth of a tick waits for the next, and a flit waits behind one that waits (R305).
Marks: DESIGN CHOICE, log entry 9. -/
def Block.sendUp (s : Block) (f : UpFlit) : Block :=
  let p := s.post f.tile
  let wait := s.setPost f.tile { p with upWait := p.upWait ++ [f] }
  if p.upWait.isEmpty then (s.crossUp f).getD wait else wait

/-- PN0 flits that wait in a Post go up, in order, while they can. -/
def Block.sendWaiting (s : Block) (t : Nat) : Block :=
  s.repeat (fun s => match (s.post t).upWait with
    | [] => none
    | f :: rest => (s.crossUp f).map fun s => s.setPost t { s.post t with upWait := rest }) (s.post t).upWait.length

/-- An idle notice names the context of the command that ended (R311). -/
def Block.idleNotice (s : Block) (t ctx : Nat) : Block := s.sendUp ⟨3, t, ctx, 0, 0, 0⟩

/-- A report to the command processor on TP_RESP: refuse reasons 0-3, 4 lapse, 5 revoke (log entry 10).
Marks: DEDUCED, log entry 10. -/
def Block.tpResp (s : Block) (t code tag : Nat) : Block :=
  let p := s.post t
  s.setPost t { p with resp := p.resp ++ [(code, tag)] }

/-- The gate stands open while some granted window holds it open (R308). -/
def Block.showGate (s : Block) (t : Nat) : Block :=
  let p := s.post t
  s.setPost t { p with gate := p.grants.any (·.released) && p.cal != .running }

/-! ## The Lantern's stretch (R363) -/

/-- The stretcher state: the deepest request. -/
def Block.showStretch (s : Block) (t : Nat) : Block :=
  let p := s.post t
  let own := if p.deepReq then 2 else if p.primary then 1 else 0
  (s.setFld (F.POST_LANTERN_stretch t) (max own p.lgStretch)).noteResid t

end Sys2Proof.Machine
end

