-- ==== Sys2Proof/Machine/EaOps.lean ====
section
/-! DEFINITION. The Estimator Array: linear terms, leakage, the correction network, attribution and publication
(04_power_estimation.md). -/
namespace Sys2Proof.Machine
open Sys2Proof

/-! ## Sheaf fields (Table 03-3) -/

namespace Sh
def tile (w : Nat) : Nat := getBits w 54 10
def seq (w : Nat) : Nat := getBits w 46 8
def energy (w : Nat) : Nat := getBits w 30 16
def active (w : Nat) : Nat := getBits w 24 6
def stretch (w : Nat) : Nat := getBits w 20 4
def tempQ (w : Nat) : Nat := getBits w 10 10
def glints (w : Nat) : Nat := getBits w 6 4
def eSat (w : Nat) : Bool := bit w 4
def tBad (w : Nat) : Bool := bit w 3
def merged (w : Nat) : Bool := bit w 2
def probation (w : Nat) : Bool := bit w 1
/-- The reading in 1/16 degree (R138). -/
def temp (w : Nat) : Int := 4 * (tempQ w : Int) - 640
/-- Case 2 of Table 04-1 takes it. -/
def good (w : Nat) : Bool := !eSat w && !merged w && !probation w
end Sh

/-! ## Captures (R160) -/

/-- Voltage in force of a domain at a boundary, mV (R129). -/
def Block.inForceMv (s : Block) (d : Nat) : Nat := (s.vdom d).refQ / 4096

/-- The map of tiles whose switch is closed and that are not isolated (R164, R528): an isolated tile takes no leakage and
counts as not powered, whatever its switch.
Marks: DESIGN CHOICE, log entry 125. -/
def Block.closedMap (s : Block) : Nat :=
  (List.range 1024).foldl (fun m t => if !(s.post t).open_ && !(s.tile t).isolated then setBit m t true else m) 0

/-- The scales of a tick, kept from the tick in which they changed (R673).
Marks: DEDUCED, log entry 103. -/
def TtuS.keepScales (x : TtuS) (k : Nat) (l : List Nat) : TtuS :=
  if x.scales.head?.map (·.2) = some l then x else { x with scales := (k, l) :: x.scales.take 255 }

/-- The scale of a domain in a tick. -/
def TtuS.scaleAt (x : TtuS) (k d : Nat) : Nat :=
  ((x.scales.find? fun p => decide (p.1 ≤ k)).map fun p => p.2.getD d 16384).getD 16384

/-- Capture the data in force for the tick that begins now; the last three captures serve (R160, R192). -/
def Block.eaCapture (s : Block) : Block :=
  let c : EaCap := ⟨s.tick, (List.range 72).map s.inForceMv, s.closedMap,
    (List.range 72).map fun d => s.fld (F.EA_DOM_SCALE_scale d),
    (List.range 72).map fun d => s.fldI (F.EA_DOM_LOFF_loff d), s.flag F.EA_STATUS_bank_active,
    (s.reg 0x4000).toNat, (s.reg F.EA_SUBST_CFG_default_nj.off).toNat, s.fld F.EA_STATUS_data_src == 0, s.silo.tileCtx⟩
  { s with ea := { s.ea with caps := (c :: s.ea.caps).take 4 }, ttu := s.ttu.keepScales s.tick c.scale }

/-! ## Linear terms (R164-R168) -/

/-- The Sheaf of tick `k` from tile `t` that was in time. -/
def Block.eaRx (s : Block) (k t : Nat) : Option Nat :=
  match (s.eaTile t).rx with
  | some (k', w) => if k' = k then some w.toNat else none
  | none => none

/-- The valid term of a tile under case 2. -/
def Block.eaValid (s : Block) (c : EaCap) (t : Nat) : Option Nat :=
  if bit c.closed t then (s.eaRx c.tick t).filter Sh.good else none

/-- A field of EA_SUBST_CFG as it stood when the tick began (R160). -/
def EaCap.substFld (c : EaCap) (f : Fld) : Nat := getBits c.subst f.lo f.width

/-- A figure of tick `k'` is recent enough for the captured tick (R166). -/
def EaCap.fresh (c : EaCap) (k' : Nat) : Bool := decide (c.tick ≤ k' + 16 * c.substFld F.EA_SUBST_CFG_age_limit)

/-- The substitute of a tile, nJ (R166). -/
def Block.eaSubst (s : Block) (c : EaCap) (t : Nat) : Nat :=
  let peers := ((tilesOf (domOfTile t)).filter (· != t)).filterMap fun u => (s.eaValid c u).map Sh.energy
  let own := match (s.eaTile t).lin with
    | some (e, k') => if c.fresh k' then some e else none
    | none => none
  match own, peers with
  | none, [] => c.substFld F.EA_SUBST_CFG_default_nj
  | some e, [] => e
  | none, l => sumN l / l.length
  | some e, l => max e (sumN l / l.length)

/-- Linear term of a tile in nJ, and whether it is substituted (R164). -/
def Block.eaLin (s : Block) (c : EaCap) (t : Nat) : Nat × Bool :=
  if !bit c.closed t then (0, false)
  else match s.eaValid c t with
    | some w => (Sh.energy w, false)
    | none => (s.eaSubst c t, true)

/-- The active_64 input of a tile (R168, R175). -/
def Block.eaActive (s : Block) (c : EaCap) (t : Nat) : Nat :=
  if !bit c.closed t then 0
  else match s.eaValid c t with
    | some w => Sh.active w
    | none =>
      let own := match (s.eaTile t).act with
        | some (a, k') => if c.fresh k' then some a else none
        | none => none
      match own with
      | some a => a
      | none =>
        let l := ((tilesOf (domOfTile t)).filter (· != t)).filterMap fun u => (s.eaValid c u).map Sh.active
        if l.isEmpty then 63 else sumN l / l.length

/-! ## Leakage (R169-R174) -/

/-- The mean of readings, to the nearest 1/16 degree, halves up (R173). -/
def meanTemp (l : List Int) : Int := (2 * sumI l + l.length).fdiv (2 * l.length)

/-- The valid temperature of a tile in the tick: from a Sheaf in time, not merged, not t_bad, of a sensor that is not
suspect (R173, R443). -/
def Block.eaTemp (s : Block) (k t : Nat) : Option Int :=
  if (s.tile t).suspect then none
  else match s.eaRx k t with
    | some w => if Sh.merged w || Sh.tBad w then none else some (Sh.temp w)
    | none => none

/-- The temperature of a tile's term (R172, R173). -/
def Block.eaTileTemp (s : Block) (k t : Nat) : Int :=
  match s.eaTemp k t with
  | some v => v
  | none =>
    let p := t % 16
    let near := (if 0 < p then (s.eaTemp k (t - 1)).toList else []) ++
      (if p < 15 then (s.eaTemp k (t + 1)).toList else [])
    if !near.isEmpty then meanTemp near
    else
      let dom := (tilesOf (domOfTile t)).filterMap (s.eaTemp k)
      match dom with
      | x :: xs => xs.foldl max x
      | [] =>
        match ((List.range 256).map (256 * dieOfTile t + ·)).filterMap (s.eaTemp k) with
        | x :: xs => xs.foldl max x
        | [] => 1600

/-- The bank a capture names. -/
def Block.eaBank (s : Block) (b : Bool) : EaBank := if b then s.ea.bankB else s.ea.bankA

/-- A leakage entry. -/
def EaBank.entry (b : EaBank) (k row col : Nat) : Nat :=
  let i := 176 * k + 11 * row + col
  match b.leak with
  | some l => l.getD i 0
  | none => (Config.romLeak i).toNat

/-- The entry a term uses: the nearest valid one of its row where its own has met an uncorrectable error, the lower
column of two (R200, log entry 15); a row without a valid one gives a free value.
Marks: DEDUCED, log entry 15. -/
def EaBank.entryOf (b : EaBank) (bad : List Nat) (k row col : Nat) : Nat :=
  let ok (c : Nat) : Bool := !bad.contains (176 * k + 11 * row + c)
  match ((List.range 11).flatMap fun n => [col - n, min 10 (col + n)]).find? ok with
  | some c => b.entry k row c
  | none => (Config.badLeakRow (16 * k + row)).toNat

/-- Interpolated leakage of a kind at a temperature and voltage (R171).
Marks: DEDUCED, log entry 15. -/
def EaBank.leak16 (b : EaBank) (bad : List Nat) (k : Nat) (temp : Int) (mv factor : Nat) : Nat :=
  let tq := (clampI 0 1920 temp).toNat
  let row := tq / 128
  let fr := tq % 128
  let rowHi := min (row + 1) 15
  let vq := clampN 500 1000 mv
  let col := (vq - 500) / 50
  let fc := (vq - 500) % 50
  let colHi := min (col + 1) 10
  let x := b.entryOf bad k row col * (50 - fc) + b.entryOf bad k row colHi * fc
  let y := b.entryOf bad k rowHi col * (50 - fc) + b.entryOf bad k rowHi colHi * fc
  ((x * (128 - fr) + y * fr) / 6400) * factor / 16384

/-- Leakage factor `i` under a bank: a bundle's, else the fused one (R170). -/
def Block.leakFactor (s : Block) (b : EaBank) (i : Nat) : Nat :=
  match b.factors with
  | some l => l.getD i 0
  | none => Tab.get (fun _ => 16384) s.shadow.leak i

/-- Leakage term of a tile (R169, R174). -/
def Block.eaTileLeak (s : Block) (c : EaCap) (t : Nat) : Nat :=
  if !bit c.closed t ∨ !bit c.ctrl 1 then 0
  else (s.eaBank c.bankB).leak16 s.ea.badLeak 0 (s.eaTileTemp c.tick t) (c.mv.getD (domOfTile t) 0)
    (s.leakFactor (s.eaBank c.bankB) t)

/-- Latest valid bonded-memory readings of a die at the Hub. -/
def Block.bmemHub (s : Block) (die : Nat) : List Int :=
  (List.range 64).filterMap fun k => Tab.get (fun _ => none) s.ea.bmem (64 * die + k)

/-- Latest valid tile readings of a die at the Hub: those of the last Sheafs that were in time, merged or not.
Marks: DESIGN CHOICE, log entry 125. -/
def Block.tileTemps (s : Block) (die : Nat) : List Int :=
  ((List.range 256).map (256 * die + ·)).filterMap fun t =>
    if (s.tile t).suspect then none else (s.eaTile t).temp

/-- Leakage term of an array or uncore domain, and whether its temperature is a stand-in (R172, R173). -/
def Block.eaDomLeak (s : Block) (c : EaCap) (d : Nat) : Nat × Bool :=
  let die := dieOfDom d
  let kind := if d < 68 then 1 else 2
  let l := if kind = 1 then s.bmemHub die else s.tileTemps die
  let temp := if l.isEmpty then 1600 else meanTemp l
  let v := if !bit c.ctrl 1 then 0
    else (s.eaBank c.bankB).leak16 s.ea.badLeak kind temp (c.mv.getD d 0) (s.leakFactor (s.eaBank c.bankB) (1024 + (d - 64)))
  (v, l.isEmpty)

/-! ## The correction network (R175-R180) -/

/-- A saturating 16-bit addition, and whether it saturated. -/
def sat16 (x : Int) : Int × Bool := (satS 16 x, satS 16 x != x)

/-- Accumulate products into a 16-bit sum (R176, R178). -/
def accum (b : Int) (sh : Nat) (l : List (Int × Int)) : Int × Bool :=
  l.foldl (fun acc p => let r := sat16 (acc.1 + sar (p.1 * p.2) sh); (r.1, acc.2 || r.2)) (b, false)

/-- The activation (R177). -/
def Net.act (n : Net) (h : Int) : Int :=
  let m (i : Nat) : Int := n.m.getD i 0
  let k (i : Nat) : Int := max 0 (h - n.k.getD i 0)
  let u := m 0 * h + (m 1 - m 0) * k 0 + (m 2 - m 1) * k 1 + (m 3 - m 2) * k 2
  satS 8 (sar (satS 16 (n.y0 + sar u 6)) n.ash)

/-- The output of a network for its inputs: corr16, and whether an addition saturated (R176-R178). -/
def Net.eval (n : Net) (x : List Nat) (kv : Nat) : Int × Bool :=
  let hs := (List.range 16).map fun j =>
    accum (n.b1.getD j 0) n.psh1 ((List.range 32).map fun i => (n.w1.getD (32 * j + i) 0, (x.getD i 0 : Int)))
  let o := accum n.b2 n.psh2 ((hs.zipIdx).map fun h => (n.w2.getD h.2 0, n.act h.1.1))
  (sar (sar (o.1 * n.gain) 8 * kv) 14, o.2 || hs.any (·.2))

/-- The inputs of a domain's network (R175). -/
def Block.eaInputs (s : Block) (c : EaCap) (d shift : Nat) : List Nat :=
  let cap (x : Nat) : Nat := min 127 (x >>> shift)
  if d < 64 then
    (tilesOf d).map (fun t => cap (s.eaLin c t).1) ++ (tilesOf d).map (s.eaActive c)
  else
    let doms := (List.range 16).map (16 * dieOfDom d + ·)
    doms.map (fun n => cap (sumN ((tilesOf n).map fun t => (s.eaLin c t).1))) ++ doms.map fun n =>
      let l := (tilesOf n).filter (bit c.closed)
      if l.isEmpty then 0 else sumN (l.map (s.eaActive c)) / l.length

/-- The network of a domain, when its bank holds a valid one (R180). -/
def Block.eaNet (s : Block) (c : EaCap) (d : Nat) : Option Net :=
  if !bit c.ctrl 0 ∨ s.ea.bad.contains d then none
  else match (s.eaBank c.bankB).nets with
    | some l => l.getD d none
    | none => none

/-- The correction of a domain, whether it saturated, and whether a network gave it. -/
def Block.eaCorr (s : Block) (c : EaCap) (d : Nat) : Int × Bool × Bool :=
  match s.eaNet c d with
  | some n => let r := n.eval (s.eaInputs c d n.inShift) (kvOf (c.mv.getD d 0)); (r.1, r.2, true)
  | none => (0, false, false)

/-! ## Domain figures (R161, R182, R205) -/

/-- M16 of a measurement record (R202).
Marks: DEDUCED, log entry 25. -/
def Meas.m16 (m : Meas) : Nat := m.v16 * m.i16 * 64 / 1000

/-- The valid record of a domain for a tick (R187).
Marks: DEDUCED, log entry 25. -/
def Block.eaMeas (s : Block) (k d : Nat) : Option Nat :=
  match Tab.get (fun _ => none) s.ea.meas d with
  | some m => if m.tick = k ∧ m.valid then some m.m16 else none
  | none => none

/-- The split of a domain estimate among its tiles (R182). -/
def splitDomain (e16 scale : Nat) (lin leak : List Nat) (closed : List Bool) : List Int × List Int :=
  let s16 := sumN lin
  let n := (closed.filter id).length
  if n = 0 then (List.replicate 16 0, List.replicate 16 0)
  else
    let res : Int := (e16 : Int) - (s16 * scale / 16384 : Nat) - (sumN leak : Nat)
    let share := (List.range 16).map fun p =>
      if 0 < s16 then divZ (res * (lin.getD p 0 : Nat)) s16
      else if closed.getD p false then divZ res n else 0
    let a := (List.range 16).map fun p =>
      ((lin.getD p 0 * scale / 16384 : Nat) : Int) + (leak.getD p 0 : Nat) + share.getD p 0
    let best := (List.range 16).foldl (fun b p =>
      if 0 < s16 then (if lin.getD b 0 < lin.getD p 0 then p else b)
      else if !closed.getD b false && closed.getD p false then p else b) 0
    (share, a.set best ((e16 : Int) - (sumI a - a.getD best 0)))

/-- The figures of one domain for a tick. -/
def Block.eaDomain (s : Block) (c : EaCap) (d : Nat) : EaDom :=
  let scale := c.scale.getD d 16384
  let loff := c.loff.getD d 0
  let corr := s.eaCorr c d
  if d < 64 then
    let ts := tilesOf d
    let lin := ts.map fun t => 16 * (s.eaLin c t).1
    let leak := ts.map (s.eaTileLeak c)
    let dyn := (max 0 ((sumN lin : Int) + corr.1)).toNat
    let e := (max 0 (((dyn * scale / 16384 : Nat) : Int) + (sumN leak : Nat) + loff)).toNat
    let att := splitDomain e scale lin leak (ts.map (bit c.closed))
    let sub := ts.filter fun t => (s.eaLin c t).2
    let q := if !corr.2.2 ∨ c.rom then 3 else if 2 ≤ sub.length then 2 else sub.length
    ⟨e, corr.1, sumN leak, att.1, leak, att.2, sub, q, corr.2.1, s.eaMeas c.tick d⟩
  else
    let leak := s.eaDomLeak c d
    let dyn := (max 0 corr.1).toNat
    let e := (max 0 (((dyn * scale / 16384 : Nat) : Int) + (leak.1 : Nat) + loff)).toNat
    let q := if !corr.2.2 ∨ c.rom then 3 else if leak.2 then 2 else 0
    ⟨e, corr.1, leak.1, [], [], [], [], q, corr.2.1, s.eaMeas c.tick d⟩

/-! ## Evaluation and publication (R190, R191) -/

/-- Freeze the inputs of the tick that ended one tick before this boundary, and form its figures (R190). -/
def Block.eaEvaluate (s : Block) : Block :=
  let k := s.tick - 2
  match s.ea.caps.find? (·.tick == k) with
  | none => s
  | some c =>
    let r : EaRes := ⟨k, (List.range 72).map (s.eaDomain c)⟩
    -- the tick's valid terms become the last valid ones (R166, R168)
    let s := s.forAll (List.range 1024) fun s t =>
      match s.eaValid c t with
      | some w => s.setEaTile t { s.eaTile t with lin := some (Sh.energy w, k), act := some (Sh.active w, k) }
      | none => s
    { s with ea := { s.ea with evalTick := some k, staged := some r, bad := [], badLeak := [] } }

/-- Power of a figure in mW (R162). -/
def mwOf (e16 : Nat) : Nat := e16 * 1000 / 16384

/-- Publish the figures of one domain (R163, R211, R212). -/
def Block.publishDom (s : Block) (d : Nat) (x : EaDom) : Block :=
  let s := s.setSat (F.EA_DOM_EST_est_mw d) (mwOf x.e16)
  let tot := Tab.get zeroN s.ea.rem d + x.e16
  let s := { s with ea := { s.ea with rem := Tab.set zeroN s.ea.rem d (tot % 16) } }
  let s := s.incWrap (F.EA_DOM_EACC_eacc_nj d) (tot / 16)
  let s := s.cntDom d 1 (tot / 16)
  let s := match x.meas with
    | some m => s.withRem (4 * d) m 16 fun s n => s.cntDom d 0 n
    | none => s
  let s := s.setFld (F.EA_DOM_INFO_quality d) x.quality
  let s := s.setFld (F.EA_DOM_INFO_net_sat d) (b2n x.sat)
  let s := s.setFld (F.EA_DOM_INFO_meas_subst d) (b2n x.meas.isNone)
  let s := s.setFld (F.EA_DOM_INFO_subst d) (min 15 x.subst.length)
  if x.sat then (s.setFld F.EA_STATUS_sat_seen 1).raise 4 1 d else s

/-- Charge a tile's figure to the context it has, and to the TTU's count (R186, R339, Table 16-3). -/
def Block.chargeTile (s : Block) (t c : Nat) (a : Int) : Block :=
  let s := if c = 0 then s
    else
      let tot : Int := ((s.silo.rem.getD c 0 : Nat) : Int) + a
      let n := tot.fdiv 16
      let s := s.setFld (F.SILO_CTX_EACC_eacc_nj c) (ofSigned 64 ((s.fld (F.SILO_CTX_EACC_eacc_nj c) : Int) + n))
      { s with silo := { s.silo with
          rem := s.silo.rem.set c (tot.emod 16).toNat
          charged := s.silo.charged.set c ((s.silo.charged.getD c 0) + n) } }
  let key := 1024 + t
  let tot : Int := ((Tab.get zeroN s.ttu.rem key : Nat) : Int) + a
  let s := { s with ttu := { s.ttu with rem := Tab.set zeroN s.ttu.rem key (tot.emod 16).toNat } }
  s.cntTile t 1 (ofSigned 64 (tot.fdiv 16))

/-- Add a tick to the sums of its epoch that Winnow and the residual use (Table 05-2, R202, R204).
Marks: DESIGN CHOICE, log entry 134. -/
def Block.sumEpoch (s : Block) (k d : Nat) (x : EaDom) : Block :=
  let key := 72 * (k / 16 % 4) + d
  let zero : WSums := WSums.zero
  let w := Tab.get (fun _ => zero) s.wce.sums key
  let w := if w.epoch = k / 16 then w else zero
  let out := d < 64 && (s.isoDom d || (tilesOf d).any s.isoTile || s.vstate d == Vs.failed)
  let w := { w with
    epoch := k / 16
    m16 := w.m16 + x.meas.getD 0
    l16 := w.l16 + x.leak
    c16 := w.c16 + x.corr
    e16 := w.e16 + x.e16
    ticks := w.ticks + 1
    subst := w.subst || x.meas.isNone
    bad := w.bad || decide (2 ≤ x.quality) || out }
  { s with wce := { s.wce with sums := Tab.set (fun _ => zero) s.wce.sums key w } }

/-- Add a figure to the sum of the thermal step (R186). -/
def Block.addStep (s : Block) (i : Nat) (a : Int) : Block :=
  let v := Tab.get zeroI s.ea.stepSum i + a
  { s with ea := { s.ea with stepSum := Tab.set zeroI s.ea.stepSum i v } }

/-- An epoch without 16 evaluated ticks has no residual (R204).
Marks: DEDUCED, log entry 26. -/
def Block.noResidual (s : Block) (d : Nat) : Block :=
  (s.setFld (F.EA_DOM_INFO_resid_q d) 0).setFld (F.EA_DOM_INFO_resid_valid d) 0

/-- The residual of an epoch, 0.25% units, once its last tick is published; without measured energy it is a free value
(R202-R204, log entry 1). A valid one of 4% or more counts in the risk interval (R534).
Marks: DEDUCED, log entry 26. -/
def Block.residual (s : Block) (k d : Nat) : Block :=
  let w := Tab.get (fun _ => WSums.zero) s.wce.sums (72 * (k / 16 % 4) + d)
  if k % 16 ≠ 15 then s
  else if w.epoch ≠ k / 16 ∨ w.ticks ≠ 16 then s.noResidual d
  else
    let f := s.free
    let m : Int := w.m16
    let q := if w.m16 = 0 then toSigned 8 f.1.toNat else (800 * ((w.e16 : Int) - m) + m).fdiv (2 * m)
    let q := clampI (-127) 127 q
    let s := if w.m16 = 0 then f.2 else s
    let valid := decide ((if d < 64 then 4000 else 10000) * 262144 ≤ w.m16 * 1000) && !w.subst
    let s := (s.setFld (F.EA_DOM_INFO_resid_q d) (ofSigned 8 q)).setFld (F.EA_DOM_INFO_resid_valid d) (b2n valid)
    if valid && decide (16 ≤ q.natAbs) then { s with fc := { s.fc with riskN := s.fc.riskN + 1 } } else s

/-- The first figure of another thermal step closes the sums of the one before (R186). -/
def Block.openStep (s : Block) (k : Nat) : Block :=
  if s.ea.stepAt = k / 128 then s
  else { s with ea := { s.ea with lastStep := s.ea.stepSum, stepSum := [], stepAt := k / 128 } }

/-- Power of regulator zone `z` in a tick, 1/2,048 mW: what the inputs of its two dies draw beyond what their rails
deliver, not below 0 (R451).
Marks: DEDUCED, log entry 35. -/
def Block.zonePower (s : Block) (r : EaRes) (z : Nat) : Nat :=
  let dies := match s.ttu.figs.find? (·.tick == r.tick) with | some f => f.dies | none => []
  let pin : Nat := (dies.getD (2 * z) 0 + dies.getD (2 * z + 1) 0) * 2048
  let out := sumN (((List.range 72).filter fun d => dieOfDom d / 2 == z).map fun d =>
    match Tab.get (fun _ => none) s.ea.meas d with
    | some m => if m.tick = r.tick ∧ m.valid then m.v16 * m.i16 * 8
        else ((r.doms[d]?).map (·.e16)).getD 0 * 125
    | none => ((r.doms[d]?).map (·.e16)).getD 0 * 125)
  pin - out

/-- The zone powers of a tick the EA does not evaluate, in Deep (R456, Table 18-4).
Marks: DEDUCED, log entry 35. -/
def Block.deepPower (s : Block) (k : Nat) : Block :=
  s.when s.inDeep fun s => (s.openStep k).forAll [0, 1] fun s z => s.addStep (1032 + z) (s.zonePower ⟨k, []⟩ z)

/-- Publish the figures of a tick on one edge (R186, R191). -/
def Block.publishEa (s : Block) : Block :=
  match s.ea.staged with
  | none => s
  | some r =>
    let k := r.tick
    let cap := (s.ea.caps.find? (·.tick == k)).map (·.ctrl)
    let ctx := ((s.ea.caps.find? (·.tick == k)).map (·.ctx)).getD []
    let estEn := bit (cap.getD 7) 2
    let s := s.setFld F.EA_LAST_TICK_ft ((k + 1) * 1024)
    let newEpoch := s.ea.last.map (·.tick / 16) != some (k / 16)
    let s := s.openStep k
    let s := if newEpoch then { s with silo := { s.silo with
      chargedLast := s.silo.charged, charged := List.replicate 64 0 } } else s
    let subst := r.doms.flatMap (·.subst)
    let s := s.setFld F.EA_STATUS_subst_tiles subst.length
    let s := s.forAll (List.range 32) fun s j =>
      s.setFld (F.EA_SUBST_MAP_map j) ((subst.filter (· / 32 == j)).foldl (fun m t => setBit m (t % 32) true) 0)
    let s := s.forAll r.doms.zipIdx fun s p =>
      let d := p.2
      let x := p.1
      let s := ((s.publishDom d x).sumEpoch k d x).residual k d
      let s := if 64 ≤ d then
          s.addStep (1024 + (d - 64)) x.e16
        else s
      s.forAll x.a16.zipIdx fun s q =>
        let t := 16 * d + q.2
        let s := if estEn then s.setSat (F.EA_TILE_EST_est_mw t) (mwOf (max 0 q.1).toNat) else s
        (s.addStep t q.1).chargeTile t (Tab.get zeroN ctx t) q.1
    let s := s.forAll [0, 1] fun s z => s.addStep (1032 + z) (s.zonePower r z)
    { s with ea := { s.ea with last := some r, staged := none } }

/-! ## A Sheaf at the Hub (R53, R165, R167) -/

/-- A re-admitting tile counts its good Sheafs (Table 12-8 step 7). -/
def Block.countGood (s : Block) (t : Nat) (good : Bool) : Block :=
  { s with fc := { s.fc with readmits := s.fc.readmits.map fun r =>
      if r.tile == t ∧ r.step = 7 then { r with good := if good then min 16 (r.good + 1) else 0 } else r } }

/-- A Sheaf reaches the Hub: matched to its tick, in time or late, and counted. -/
def Block.sheafAtHub (s : Block) (e : FifoE) : Block :=
  let t := e.tile
  let w := e.word.toNat
  let k := e.tick
  let late := decide ((k + 2) * 1024 < s.now) ||
    (match s.ea.evalTick with | some k' => decide (k ≤ k') | none => false)
  let s := ((s.cntTile t 0 (Sh.energy w)).cntTile t 2 (Sh.active w)).cntTile t 3 (Sh.glints w)
  let s := s.countGood t (!late && !Sh.eSat w && !Sh.merged w)
  let x := s.eaTile t
  let x := { x with valid := if Sh.tBad w then x.valid else some (s.tick / 128, Sh.temp w) }
  let s := s.setEaTile t x
  if late then
    let s := s.setFld (F.HUB_SB_STATUS_late_seen (dieOfTile t)) 1
    let s := (s.cntDie (dieOfTile t) 3).raise 11 2 t
    if Sh.good w then s.setEaTile t { x with lin := some (Sh.energy w, k), act := some (Sh.active w, k) } else s
  else
    s.setEaTile t { x with rx := some (k, e.word), temp := if Sh.tBad w then none else some (Sh.temp w) }

/-- The hub slot of a tile is cleared with its Post (R530). -/
def Block.clearSlot (s : Block) (t : Nat) : Block :=
  let die := dieOfTile t
  let was := (s.tile t).suspect
  let s := s.setTile t { RelTile.reset with isolated := (s.tile t).isolated }
  let s := s.setEaTile t EaTile.reset
  let s := { s with ttu := { s.ttu with rem := Tab.erase s.ttu.rem (1024 + t) } }
  let s := s.setSlice die { s.slice die with grants := (s.slice die).grants.filter (·.tile != t) }
  let s := s.setMapBit (F.TME_SUSPECT_map (t / 32)) (t % 32) false
  let s := if was then (s.setFld F.TME_STATUS_n_suspect (s.fld F.TME_STATUS_n_suspect - 1)).unraise 2 1 t else s
  let n := domOfTile t
  s.setFld (F.LG_DOM_STATE_trip_pending n) (b2n ((tilesOf n).any fun y => (s.tile y).tripRun == 1))

end Sys2Proof.Machine
end

