-- ==== Sys2Proof/Machine/Post.lean ====
section
/-! DEFINITION. The commands of the Tile Posts, their chains and the Relay's Sheaf path (03_activity_sensing.md,
05_live_calibration.md R218-R221, R242). -/
namespace Sys2Proof.Machine
open Sys2Proof

/-! ## The tick latch (R114, R137, R439) -/

/-- The Post's thermal reading of the tick that ends (R439, R441): `none` is a conversion error. -/
def Block.takeReading (s : Block) (t : Nat) (reading : Option Int) : Block :=
  let trimBad := s.shadow.trimBad.contains t
  let ok := match reading with
    | some r => decide (-640 ≤ r) && decide (r ≤ 2400) && !trimBad
    | none => false
  let s := if !ok && !trimBad then (s.setFld (F.POST_TSENS_conv_err_seen t) 1).postFault t 2 0 else s
  let v := if ok then reading else none
  let s := s.setFld (F.POST_TSENS_temp t) (match v with | some r => ofSigned 16 r | none => 0x8000)
  let s := s.setFld (F.POST_TSENS_valid t) (b2n v.isSome)
  s.setPost t { s.post t with tempRead := v }

/-- temp_q of a reading (Table 03-3). -/
def tempQOf (r : Int) : Nat := (clampI 0 1023 ((r + 640).fdiv 4)).toNat

/-- The Lantern's run of latches with an active request (R500). -/
def Block.stuckLatch (s : Block) (t : Nat) : Block :=
  let p := s.post t
  if p.primary || p.deepReq then s.setPost t { p with stuck := p.stuck + 1 }
  else
    let s := s.setPost t { p with stuck := 0 }
    if 256 ≤ p.stuck then s.postFault t 10 1 true else s

/-- Flits that waited for the next tick go up, at most eight (R305). -/
def Block.releaseUp (s : Block) (t : Nat) : Block := (s.setPost t { s.post t with pn0 := 0 }).sendWaiting t

/-- The tick latch of a Post: one capture, the readings and counts of the tick, and what an epoch adds. -/
def Block.tickLatch (s : Block) (t : Nat) (act : Activity) (reading : Option Int) : Block :=
  let s := (s.countPost t act).takeReading t reading
  let p := s.post t
  let k := s.tick - 1
  let d := fun i => (p.counts.getD i 0 + 2 ^ 48 - p.latchCounts.getD i 0) % 2 ^ 48
  let bank := s.openBank t
  let l : Latch := ⟨k, d 0 + d 2 + d 3, d 2 + d 3, d 0 + d 1 + d 2 + d 3, p.glints,
    (match p.tempRead with | some r => tempQOf r | none => 0), p.tempRead.isNone, bank, s.bankValid t bank⟩
  let early := decide (p.formed + (p.items.filter fun i => i.latch.isSome).length < 16)
  let s := s.capture t [] (some l)
  let p := s.post t
  let sum := if 0 < p.glints then some (k, min 15 p.glints, p.firstOff, p.deep) else p.summary
  let p := { p with
    latchCounts := p.counts, closing := false, glints := 0, firstOff := 0, deep := false, faultsSent := 0
    summary := sum, probFlag := p.probFlag || early }
  let ends := s.time.epochEnd
  let p := if ends then { p with
      kcap := p.kacc, kacc := List.replicate 32 0, reg := some (k / 16, p.probFlag, p.upFlag), probFlag := false
      upFlag := false } else p
  let s := s.setPost t p
  let s := if ends ∧ s.fld (F.POST_DIG_CFG_window t) ≠ 0 then
      if p.epochsLeft ≤ 1 then s.digestEnd t p.ctx p.tag
      else s.setPost t { p with epochsLeft := p.epochsLeft - 1 }
    else s
  let s := if s.flag (F.POST_CTRL_snap_hold t) then
      s.setPost t { s.post t with holdTicks := (s.post t).holdTicks + 1 } else s
  ((s.stuckLatch t).releaseUp t).sendDigs t

def execPostTickLatch (tile : Tile) (act : Activity) (reading : Option Int) (s : State) :
    Host.Outcome State Fault Refusal :=
  s.on fun s => s.when ((s.post tile.val).runs && (s.post tile.val).closing) fun s => s.tickLatch tile.val act reading

/-! ## Command boundaries (R133) -/

/-- A launch under a granted window whose gate is released and stands open, before the end of its third window (R304, R308,
R361). `atLatch`: the edge is that of the tick latch
just taken, and the capture is shared (R115). -/
def execCommandLaunch (tile : Tile) (tag : Half) (act : Activity) (atLatch : Bool) (now : Ft) (s : State) :
    Host.Outcome State Fault Refusal :=
  s.on fun s =>
    let s := s.advance now
    let t := tile.val
    let p := s.post t
    match p.runs && p.gate, p.grants.find? fun g => g.released && g.tag == tag.toNat && decide (s.now / 32 < g.win + 3) with
    | true, some g =>
      let s := if atLatch then s else s.countPost t act
      let s := (s.boundary t g.tag g.ctx g.cls g.dflt atLatch).countLaunch t
      let p := s.post t
      ((s.setPost t { p with running := p.running + 1, grants := p.grants.filter (· != g) }).showGate t).startResid t
    | _, _ => s

/-- A completion: only one that leaves no command running makes a boundary and an idle notice (R133, R311). -/
def execCommandCompletion (tile : Tile) (act : Activity) (atLatch : Bool) (now : Ft) (s : State) :
    Host.Outcome State Fault Refusal :=
  s.on fun s =>
    let s := s.advance now
    let t := tile.val
    let p := s.post t
    s.when (p.runs && decide (0 < p.running)) fun s =>
      if 1 < p.running then s.setPost t { p with running := p.running - 1 }
      else
        let s := if atLatch then s else s.countPost t act
        let s := s.boundary t 0 0 0 false atLatch
        ((s.setPost t { s.post t with running := 0 }).startResid t).idleNotice t p.ctx

/-- A closed segment enters the accumulator (R130-R137). -/
def execSegmentAdd (tile : Tile) (s : State) : Host.Outcome State Fault Refusal :=
  s.on fun s => s.when (s.post tile.val).runs fun s => (s.addSegment tile.val).sendDigs tile.val

/-- snap_hold clears itself 1,024 ticks after it was set (R152). -/
def execSnapHoldExpiry (tile : Tile) (s : State) : Host.Outcome State Fault Refusal :=
  s.on fun s =>
    let t := tile.val
    s.when (s.flag (F.POST_CTRL_snap_hold t) && decide (1024 ≤ (s.post t).holdTicks)) fun s =>
      (s.setFld (F.POST_CTRL_snap_hold t) 0).setPost t { s.post t with holdTicks := 0 }

/-! ## Weight publications (R125, R242, Table 12-8 step 6) -/

/-- Send a publication to a Post. -/
def Block.sendPub (s : Block) (t : Nat) (p : Pub) : Block :=
  s.setPost t { s.post t with pubs := (s.post t).pubs ++ [p] }

/-- The restore publication of a Post that powered up or was reset, then the released image that waits (R242).
Marks: DEDUCED, log entry 105. -/
def Block.restorePub (s : Block) (t : Nat) : Block :=
  let n := domOfTile t
  let s := match s.wce.inForce with
    | some l => (match l[n]? with | some i => s.sendPub t ⟨none, i.weights, i.crc, false, false⟩ | none => s)
    | none => s
  match s.wce.released with
  | some (l, _) =>
    (match l[n]? with
      | some i => s.sendPub t ⟨some (!(s.relay (dieOfTile t)).bankSel), i.weights, i.crc, false, false⟩
      | none => s)
  | none => s

/-- A restore publication during a re-admission: three failures of a bank end it (R531); a success starts step 7.
Marks: DEDUCED, log entry 105. -/
def Block.readmitPub (s : Block) (t : Nat) (pub : Pub) (ok : Bool) : Block :=
  match s.fc.readmits.find? (·.tile == t) with
  | none => s
  | some r =>
    let put (f : Readmit → Readmit) : Block :=
      { s with fc := { s.fc with readmits := s.fc.readmits.map fun x => if x.tile == t then f x else x } }
    if r.step ≠ 6 ∨ pub.bank.isSome then s
    else if ok then put fun x => { x with step := 7, good := 0, ticks := 0 }
    else if 2 ≤ r.crcFails then s.dropReadmit t 0 2
    else (put fun x => { x with crcFails := x.crcFails + 1 }).sendPub t pub

/-- A publication arrives at a Post; `flip` is what the transport changed in its weights. -/
def Block.publication (s : Block) (t : Nat) (pub : Pub) (flip : List Half) : Block :=
  let ws := (List.range 32).map fun i =>
    toSigned 16 ((ofSigned 16 (pub.weights.getD i 0)) ^^^ (flip.getD i 0).toNat)
  let active := s.flag (F.POST_STATUS_bank_active t)
  match pub.bank with
  | some b => if b == active then s.postFault t 9 2 else (s.loadBank t b ws pub.crc).1
  | none =>
    if s.bankValid t active then (s.loadBank t (!active) ws pub.crc).1
    else
      let a := s.loadBank t false ws pub.crc
      let b := a.1.loadBank t true ws pub.crc
      b.1.readmitPub t pub (a.2 && b.2)

/-- Replies of the slice wait for a chain whose Posts can take them (R145: PN0 before PN3). -/
def Block.replyWaits (s : Block) (n : Nat) : Bool :=
  (s.slice (n / 16)).replies.any fun r => domOfTile r.tile == n && (s.post r.tile).runs

/-- The flits of a tile's oldest publication cross the link on VC1 and the chain on PN3, behind what waits on PN0: one
for a bank is broadcast on the chain, one for a restore goes to its Post (R125, R239, R242). -/
def Block.carryPub (s : Block) (t : Nat) (p : Pub) : Option Block :=
  let n := domOfTile t
  if p.sent then some s
  else if s.replyWaits n then none
  else
    let flits := (p.bodies n).zip (8 :: List.replicate 8 9)
    ((s.linkPub t p).bind fun s => flits.foldl (fun s f => s.bind fun s =>
      s.chSend true n (if p.bank.isSome then 15 else t % 16) 3 f.2 f.1) (some s)).map fun s =>
        if p.bank.isSome then s.markPub t { p with linked := true } fun x => { x with sent := true } else s

def execWeightPublication (tile : Tile) (flip : List Half) (now : Ft) (s : State) : Host.Outcome State Fault Refusal :=
  s.on fun s =>
    let s := s.advance now
    let t := tile.val
    match (s.post t).runs, (s.post t).pubs with
    | true, pub :: _ => (match s.carryPub t pub with
      | some s => (s.setPost t { s.post t with pubs := (s.post t).pubs.drop 1 }).publication t pub flip
      | none => s)
    | _, _ => s

/-! ## Power-up (R354, R726) -/

/-- A Post comes up with a Post reset, paired with its hub slot. -/
def Block.postUp (s : Block) (t : Nat) : Block :=
  let n := domOfTile t
  let s := s.setPost t { s.post t with powered := true, open_ := false, segs := 15, closePend := false, opening := false }
  let s := ((s.clearSlot t).postReset t).restorePub t
  { s with wce := { s.wce with switched := s.wce.switched ++ [(s.tick / 16, n)] } }

/-- A tile may be powered: its domain runs, it is not isolated, and its switch is closed already or the VID stands at
a target that includes its floor, with no change of the PLLs' frequency under way (R354). -/
def Block.mayPower (s : Block) (t : Nat) : Bool :=
  let p := s.post t
  let n := domOfTile t
  !p.powered && !(s.tile t).isolated && s.vstate n == Vs.run &&
    (!p.open_ || (p.closePend && s.vidSettled n && (s.margin n).pll.lock.isNone))

def execPostPowerUp (tile : Tile) (s : State) : Host.Outcome State Fault Refusal :=
  s.on fun s => s.when (s.mayPower tile.val) fun s => s.postUp tile.val

/-! ## A Sheaf at the Relay (R140, R148, R272) -/

/-- The checks of R140: the tick a Sheaf word describes, when it passes. -/
def Block.sheafCheck (s : Block) (t w : Nat) : Option Nat :=
  let cur := s.tick - 1
  let back := (cur + 256 - Sh.seq w) % 256
  if !parity 64 w ∧ Sh.tile w = t ∧ back < 64 ∧ back ≤ cur ∧ 0 < s.tick then some (cur - back) else none

/-- The word of a FIFO entry merged from two (R148). -/
def mergeFifo (a b : FifoE) : FifoE :=
  let x := a.word.toNat
  let y := b.word.toNat
  let n := a.weight + b.weight
  let e := Sh.energy x + Sh.energy y
  let act := a.act + b.act
  let str := a.str + b.str
  let w := packBits [(54, 10, a.tile), (46, 8, Sh.seq y), (30, 16, satU 16 e), (24, 6, min 63 (divRound act n)),
    (20, 4, min 15 (divRound str n)), (10, 10, Sh.tempQ y), (6, 4, min 15 (Sh.glints x + Sh.glints y)),
    (5, 1, getBits y 5 1), (4, 1, b2n (Sh.eSat x || Sh.eSat y || decide (65535 < e))), (3, 1, getBits y 3 1), (2, 1, 1),
    (1, 1, b2n (Sh.probation x || Sh.probation y))]
  ⟨a.tile, BitVec.ofNat 64 (putBits w 0 1 (b2n (parity 64 w))), b.tick, n, act, str⟩

/-- Put an entry into a FIFO that holds at most one entry a tile. -/
def fifoMerge (l : List FifoE) (e : FifoE) : List FifoE :=
  if l.any (·.tile == e.tile) then l.map fun x => if x.tile == e.tile then mergeFifo x e else x else l ++ [e]

/-- A Sheaf leaves its Post: discarded at its hop (R524) or by the Relay, or read, kept and queued. -/
def Block.sheafAtRelay (s : Block) (t w : Nat) : Block :=
  let die := dieOfTile t
  if s.hopDrops t then s
  else match s.sheafCheck t w with
  | none =>
    let s := (s.incSat (F.POST_STATUS_sheaf_discards t)).relayFault die 9 0 t
    (s.cntDie die 4).countGood t false
  | some k =>
    let x := s.tile t
    let weight := if !Sh.merged w then 1 else match x.lastTick with | some k' => max 1 (k - k') | none => 1
    let e : FifoE := ⟨t, BitVec.ofNat 64 w, k, weight, Sh.active w * weight, Sh.stretch w * weight⟩
    let s := s.setTile t { x with lastSheaf := some (BitVec.ofNat 64 w), lastTick := some k, silent := 0, seen := true }
    let q := s.relay die
    let s := s.setRelay die { q with fifo := if q.merging then fifoMerge q.fifo e else q.fifo ++ [e] }
    if x.isolated then s else s.tileReading t (if Sh.tBad w then none else some (Sh.temp w))

/-- Sheafs in the PN2 buffers of the hops go into the FIFO, at most `n`, the oldest first, while it has room (R148). -/
def Block.unpark (s : Block) (d : Nat) : Nat → Block
  | 0 => s
  | n + 1 =>
    let q := s.relay d
    match q.merging || decide (q.fifo.length < 512), q.parked with
    | true, (t, w) :: rest => ((s.setRelay d { q with parked := rest }).sheafAtRelay t w.toNat).unpark d n
    | _, _ => s

/-- A Sheaf of tile `t` can leave its Post: the Relay takes Sheafs from the chains, or the nearest hop of the chain with
room among its 16 buffers is not beyond the Post (R148, Table 03-5). -/
def Block.sheafRoom (s : Block) (t : Nat) : Bool :=
  let q := s.relay (dieOfTile t)
  q.merging || decide (q.fifo.length < 512) ||
    decide ((q.parked.filter fun x => domOfTile x.1 == domOfTile t).length / 16 ≤ t % 16)

/-- A Sheaf that has left its Post is discarded at its hop (R524), or goes on behind those in the hops. -/
def Block.hopSheaf (s : Block) (t : Nat) (w : DWord) : Block :=
  let d := dieOfTile t
  if s.hopDrops t then s
  else (s.setRelay d { s.relay d with parked := (s.relay d).parked ++ [(t, w)] }).unpark d ((s.relay d).parked.length + 1)

/-- The oldest waiting Sheaf of a Post goes up its chain, behind what its Post has to send on PN1 (R145), and reaches its
Relay; `flip` is what the transport changed. A full FIFO withholds credit while the link is up or retraining, and the Sheaf
waits in a hop's buffer (R148). -/
def execSheafAtRelay (tile : Tile) (flip : DWord) (now : Ft) (s : State) : Host.Outcome State Fault Refusal :=
  s.on fun s =>
    let s := s.advance now
    let t := tile.val
    let p := s.post t
    match p.runs && s.sheafRoom t && s.pnClear t 2, p.sheafs with
    | true, x :: rest => (match s.upFlit t 2 1 (sheafWord t x) with
      | some s =>
        let w := sheafWord t x
        let s := (s.setPost t { s.post t with sheafs := rest }).setFld (F.POST_SHEAF_LAST_sheaf t) w.toNat
        let s := s.setFld (F.POST_STATUS_valid_sheafs t) (min 16 (s.fld (F.POST_STATUS_valid_sheafs t) + 1))
        (s.hopSheaf t (w ^^^ flip)).sendDigs t
      | none => s)
    | _, _ => s

/-! ## The chain's transport (R146, R500) -/

/-- A flit fails its CRC at a hop: kept by its sender, and the receiver's next flit carries nak. PN4 has no flits
downward. -/
def execChainCrcError (hop : Hop) (channel : Fin 5) (body : DWord) (now : Ft) (s : State) :
    Host.Outcome State Fault Refusal :=
  s.on fun s =>
    let s := s.advance now
    let n := hop.dom.val
    match !(hop.down && channel.val == 4), s.chLost n ⟨hop.down, hop.hop.val, channel.val, body, true⟩ with
    | true, some s => (s.cntDie (n / 16) 7).relayFault (n / 16) 12 0 n
    | _, _ => s

/-- A nak makes the sender at a hop resend every unacknowledged flit of the channel, oldest first; what waited for the
credits goes on. -/
def execChainNak (hop : Hop) (channel : Fin 5) (s : State) : Host.Outcome State Fault Refusal :=
  s.on fun s =>
    let n := hop.dom.val
    s.when ((s.chain n).nak.contains (hop.down, hop.hop.val)) fun s =>
      (s.chNak n hop.down hop.hop.val channel.val).forAll (tilesOf n) fun s t => s.sendWaiting t

/-- A Post with a closed switch has sent no good Sheaf for 64 ticks (R500). -/
def execPostSilent (tile : Tile) (s : State) : Host.Outcome State Fault Refusal :=
  s.on fun s =>
    let t := tile.val
    s.when (decide (64 ≤ (s.tile t).silent) && !(s.post t).open_) fun s => s.relayFault (dieOfTile t) 9 6 t

/-- A chain port has been quiet for 16 ticks while some Post of the chain is powered (R500). -/
def execChainStalled (dom : CoreDom) (s : State) : Host.Outcome State Fault Refusal :=
  s.on fun s =>
    let n := dom.val
    s.when (decide (16 ≤ (s.chain n).quiet) && (tilesOf n).any fun t => (s.post t).powered) fun s =>
      s.relayFault (n / 16) 12 1 n

/-- A Post detects a fault, or sends the oldest it holds (R502-R504). -/
def execPostFault (tile : Tile) (f : Option FaultIn) (now : Ft) (s : State) : Host.Outcome State Fault Refusal :=
  s.on fun s =>
    let s := s.advance now
    let t := tile.val
    s.when (s.post t).runs fun s => match f with
      | some x => s.postFault t x.group.val x.source.val x.ended
      | none => s.postSendFault t

/-! ## Regressors (R218-R221) -/

/-- A value as the 16-bit format carries it (R219). -/
def regCode (v : Nat) : Nat :=
  match (List.range 16).find? fun e => decide (divRound v (2 ^ e) ≤ 4095) with
  | some e => divRound v (2 ^ e) * 2 ^ e
  | none => 134184960

/-- A captured accumulator as K (R218). -/
def regK (acc : Nat) : Nat := divRound acc 16384

/-- The code of a value in the 16-bit format (R219). -/
def regFmt (v : Nat) : Nat :=
  match (List.range 16).find? fun e => decide (divRound v (2 ^ e) ≤ 4095) with
  | some e => 4096 * e + divRound v (2 ^ e)
  | none => 0xFFFF

/-- Eight bodies of 32 regressors, four a flit (R220). -/
def regBodies (l : List Nat) : List DWord :=
  (List.range 8).map fun k => BitVec.ofNat 64 (packBits ((List.range 4).map fun q => (16 * q, 16, regFmt (l.getD (4 * k + q) 0))))

/-- The nine flits of a Post's record (Table 05-4). -/
def postRegFlits (t epoch : Nat) (prob up : Bool) (l : List Nat) : List (Nat × DWord) :=
  (4, BitVec.ofNat 64 (packBits [(54, 10, t), (46, 8, epoch), (45, 1, b2n prob), (44, 1, b2n up)])) ::
    (regBodies l).map fun b => (5, b)

/-- The record of a Post reaches its Relay within the four ticks that follow its epoch, at offsets 512-895 ns and behind
the Sheafs that wait (R220, R221). -/
def execPostRegressorRecord (tile : Tile) (s : State) : Host.Outcome State Fault Refusal :=
  s.on fun s =>
    let t := tile.val
    let p := s.post t
    let n := domOfTile t
    let c := s.chain n
    let off := s.now % 1024
    match p.runs && p.sheafs.isEmpty && s.pnClear t 2 && decide (512 ≤ off) && decide (off ≤ 895), p.reg with
    | true, some (ep, prob, up) =>
      if c.due.isSome ∧ c.regEpoch = ep ∧ s.tick < 16 * (ep + 1) + 4 then
        let ks := (List.range 32).map fun i => regK (p.kcap.getD i 0)
        match s.upFlits t 2 (postRegFlits t ep prob up ks) with
        | some s =>
          let c := s.chain n
          let s := s.setPost t { s.post t with reg := none }
          if s.hopDrops t then s else s.setChain n { c with
            sums := (List.range 32).map fun i => (c.sums.getD i 0 + regCode (ks.getD i 0)) % 2 ^ 32
            mask := setBit c.mask (t % 16) true
            probation := c.probation || prob, poweredUp := c.poweredUp || up }
        | none => s
      else s
    | _, _ => s

/-- The record of a chain as it stands. -/
def ChainS.record (c : ChainS) (poweredMap : Nat) : DomRec :=
  ⟨c.regEpoch, c.sums.map regCode, c.mask, poweredMap &&& c.mask != poweredMap, c.probation, c.poweredUp⟩

/-- The nine flits of a domain's record (Table 05-5). -/
def DomRec.flits (r : DomRec) (n : Nat) : List (Nat × DWord) :=
  (0x12, BitVec.ofNat 64 (packBits [(56, 8, n), (48, 8, r.epoch), (32, 16, r.mask), (31, 1, b2n r.incomplete),
    (30, 1, b2n r.probation), (29, 1, b2n r.poweredUp)])) :: (regBodies r.sums).map fun b => (0x13, b)

/-- A domain record reaches the Hub, from the tick that begins 4 + j ticks after its epoch (R221). -/
def execDomainRegressorRecord (dom : CoreDom) (s : State) : Host.Outcome State Fault Refusal :=
  s.on fun s =>
    let n := dom.val
    let c := s.chain n
    let put (s : Block) (r : DomRec) : Block := (s.sbLows (n / 16) 2 (srcRelay (n / 16)) (r.flits n)).elim s fun s =>
      let c := s.chain n
      let s := s.setChain n (if c.ready.isSome then { c with ready := none } else { c with due := none })
      { s with wce := { s.wce with recs := Tab.set (fun _ => none) s.wce.recs (64 * (r.epoch % 4) + n) (some r) } }
    match c.ready, c.due with
    | some r, _ => if 16 * (r.epoch + 1) + 4 + n % 16 ≤ s.tick then put s r else s
    | none, some m => if 16 * (c.regEpoch + 1) + 4 + n % 16 ≤ s.tick then put s (c.record m) else s
    | none, none => s

end Sys2Proof.Machine
end

