-- ==== Sys2Proof/Machine/Margin.lean ====
section
/-! DEFINITION. The commands of the Lanterns, the stretchers and the margin logic (08_droop_and_margin.md). -/
namespace Sys2Proof.Machine
open Sys2Proof

/-! ## Detections and stretches (R359-R368) -/

/-- A sample below a detect level. `deep`: below the deep level too; `again`: the previous edge was a detection. -/
def Block.detect (s : Block) (t : Nat) (deep again : Bool) : Block :=
  let p := s.post t
  s.when p.powered fun s =>
    let glint := !again
    let quarter := s.flag (F.POST_LANTERN_div t)
    let p' := { p with
      primary := true
      deepReq := p.deepReq || deep || quarter
      byDeep := !quarter && (if p.deepReq then p.byDeep else deep)
      after4 := false
      deep := p.deep || deep
      glints := if glint then p.glints + 1 else p.glints
      firstOff := if glint && p.glints == 0 then s.now / 4 * 4 % 1024 else p.firstOff }
    let s := s.setPost t p'
    (if glint then s.incWrap (F.POST_GLINT_TOTAL_count t) else s).showStretch t

/-- The Lantern samples `mv`, its trim applied, against the chain's detect levels (R357, R359). -/
def execLanternDetection (tile : Tile) (mv : Fin 2048) (again : Bool) (now : Ft) (s : State) :
    Host.Outcome State Fault Refusal :=
  s.on fun s =>
    let s := s.advance now
    let l := (s.chain (domOfTile tile.val)).levels
    s.when (decide (mv.val < l.1)) fun s => s.detect tile.val (decide (mv.val < l.2)) again

/-- The detect level a Post's request is judged against: the deep one for a 1/4 request that a deep detection made alone
(R366). -/
def Block.releaseLevel (s : Block) (t : Nat) : Nat :=
  let p := s.post t
  let l := (s.chain (domOfTile t)).levels
  if p.deepReq && p.byDeep then l.2 else l.1

/-- The release edge of a request, `edges` Post edges after the supply read `mv`, 5 mV above its level or more: 1/4
relaxes to 1/2, which ends str_hold edges after that release edge whatever the supply reads, and a 1/2 request ends
(R366). An injected stimulus holds the comparator below for its time (Table 12-6). -/
def execLanternRelease (sample : Recovery) (s : State) : Host.Outcome State Fault Refusal :=
  s.on fun s =>
    let t := sample.tile.val
    let p := s.post t
    s.when (p.powered && (p.primary || p.deepReq) &&
        ((p.after4 && !p.deepReq) || decide (s.releaseLevel t + 5 ≤ sample.mv.val)) &&
        decide (p.strHold ≤ sample.edges) && (s.stim 0 t).all fun m => decide (m.2 ≤ s.now)) fun s =>
      (s.setPost t (if p.deepReq then { p with deepReq := false, primary := true, after4 := true }
        else { p with primary := false, after4 := false })).showStretch t

/-- A request has been active at 256 consecutive latches (R500). -/
def execLanternStuck (tile : Tile) (s : State) : Host.Outcome State Fault Refusal :=
  s.on fun s =>
    let t := tile.val
    s.when ((s.post t).powered && decide (256 ≤ (s.post t).stuck)) fun s =>
      s.injecting (s.stim 0 t).isSome fun s => s.postFault t 10 1

/-- The stretch the domain's level orders reaches a Post on PN1; a switch about to open keeps 1/4 (R279, R364, Table
12-7).
Marks: DESIGN CHOICE, log entry 116. -/
def execStretchOrder (tile : Tile) (s : State) : Host.Outcome State Fault Refusal :=
  s.on fun s =>
    let t := tile.val
    let p := s.post t
    s.when (p.powered && !s.replyWaits (domOfTile t)) fun s =>
      let l := if p.opening then 2 else levelStretch (s.sdom (domOfTile t)).nextLevel.value
      match s.postDownFlit t 1 1 (withParity (packBits [(62, 2, l)])) with
      | some s => (s.setPost t { s.post t with lgStretch := l }).showStretch t
      | none => s

/-! ## Glints (R369, R370, R373) -/

/-- The body of a Glint summary (Table 08-3): tile, tick, count, offset of the first Glint, deep. -/
def glintSummaryWord (t k count off : Nat) (deep : Bool) : DWord :=
  withParity (packBits [(54, 10, t), (46, 8, k), (42, 4, min 15 count), (32, 10, off), (31, 1, b2n deep)])

/-- The Relay takes a summary: it counts in the epoch its tick belongs to and in the domain's Glint record, and may start
a Glint exit. What an injected detection leads to is marked, and its stimulus ends with its summary (Table 12-6). -/
def Block.takeSummary (s : Block) (n : Nat) (w : DWord) : Block :=
  let x := w.toNat
  let stim := s.stim 0 (getBits x 54 10)
  let s := if stim.any fun m => decide (m.2 ≤ s.now) then s.setStim 0 (getBits x 54 10) none else s
  let pos := getBits x 54 10 % 16
  let k := expandStamp 8 s.tick (getBits x 46 8)
  let count := getBits x 42 4
  let s := if (s.chain n).glintTick = k then s else s.closeGlints n
  let c := s.chain n
  let s := s.setChain n { c with glints := c.glints.set pos (min 15 (c.glints.getD pos 0 + count)), glintTick := k }
  if (k + 1) * 1024 ≤ s.tick / 16 * 16384 then s
  else
    let s := s.setSat (F.LG_MARGIN_GLINT_cur n) (s.fld (F.LG_MARGIN_GLINT_cur n) + count)
    let mode := s.glintMode n
    let top := s.mfld (dieOfDom n) (if mode = 2 then F.LG_MARGIN_CFG_glint_max_ant else F.LG_MARGIN_CFG_glint_max_adp)
    if mode ≠ 0 ∧ top < s.fld (F.LG_MARGIN_GLINT_cur n) then
      s.injecting stim.isSome fun s => s.marginExit n 1 true true
    else s

/-- A Post's summary reaches the Relay. -/
def execGlintSummary (tile : Tile) (now : Ft) (s : State) : Host.Outcome State Fault Refusal :=
  s.on fun s =>
    let s := s.advance now
    let t := tile.val
    match (s.post t).summary with
    | none => s
    | some (k, count, off, deep) =>
      let w := glintSummaryWord t k count off deep
      match s.upFlit t 1 1 w with
      | some s =>
        let s := s.setPost t { s.post t with summary := none }
        if s.hopDrops t then s else s.takeSummary (domOfTile t) w
      | none => s

/-- The domain's oldest Glint record reaches the Hub, for telemetry and the risk score: counts saturate at 3 a tile, at
most 16 records a tick (R69, R70, R370). -/
def execGlintRecord (dom : CoreDom) (now : Ft) (s : State) : Host.Outcome State Fault Refusal :=
  s.on fun s =>
    let s := s.advance now
    let n := dom.val
    let mine (f : SbFlit) : Bool := f.type == 3 && getBits f.body.toNat 12 4 == n % 16
    s.when (s.flag (F.HUB_SB_STATUS_link_up (n / 16))) fun s =>
      let s := if (s.chain n).glintDue.isEmpty then s.closeGlints n else s
      let s := if (s.offWire (n / 16) mine).isSome then s else (s.putGlint n).getD s
      match s.offWire (n / 16) mine with
      | none => s
      | some (f, _, s) =>
        let total := sumN ((List.range 16).map fun p => getBits f.body.toNat (16 + 2 * p) 2)
        let s := s.cntDom n 2 total
        { s with fc := { s.fc with riskG := s.fc.riskG + total } }

/-! ## Orders, slews and holds (R374, R375) -/

/-- The Relay's last margin order crosses the chain, as a broadcast on PN1. -/
def Block.carryOrder (s : Block) (n : Nat) : Option Block :=
  let m := s.margin n
  if m.ordSent then some s
  else if s.replyWaits n then none
  else (s.chSend true n 15 1 2 m.order).map fun s => s.setMargin n { m with ordSent := true }

/-- A Post applies a margin order (Table 08-7). -/
def Block.takeOrder (s : Block) (t : Nat) (w : Nat) : Block :=
  let s := (s.setFld (F.POST_LANTERN_thr t) (getBits w 60 4)).setFld (F.POST_LANTERN_deep t) (getBits w 58 2)
  (s.setFld (F.POST_LANTERN_div t) (getBits w 57 1)).setPost t { s.post t with strHold := getBits w 48 9 }

/-- A margin order reaches a Post. -/
def execMarginOrder (tile : Tile) (s : State) : Host.Outcome State Fault Refusal :=
  s.on fun s =>
    let t := tile.val
    s.when (s.post t).powered fun s => match s.carryOrder (domOfTile t) with
      | some s => s.takeOrder t (s.margin (domOfTile t)).order.toNat
      | none => s

/-- No sooner than 256 ns after the order, the VID starts down. -/
def execMarginTightenSlew (dom : CoreDom) (now : Ft) (s : State) : Host.Outcome State Fault Refusal :=
  s.on fun s =>
    let s := s.advance now
    let n := dom.val
    let m := s.margin n
    s.when (s.fld (F.LG_MARGIN_MODE_trans n) == 1 && m.waitSlew && decide (m.orderAt.toNat + 256 ≤ s.now)) fun s =>
      let s := s.setMargin n { m with waitSlew := false, pen := s.penOf n m.toMode }
      (s.retarget n 0 (s.domRate n)).transitionReady n

/-- The hold has run out: the stored request is acted on at the next epoch boundary (R372, R375). -/
def execMarginHoldEnd (dom : CoreDom) (s : State) : Host.Outcome State Fault Refusal :=
  s.on fun s =>
    let n := dom.val
    let m := s.margin n
    s.when (s.flag (F.LG_MARGIN_MODE_held n) && m.hold == 0 && m.holdNext == 0 &&
        s.fld (F.LG_MARGIN_MODE_trans n) == 0) fun s =>
      (s.setFld (F.LG_MARGIN_MODE_held n) 0).setFld (F.LG_MARGIN_MODE_hold_left n) 0

/-- The PLLs of a domain report lock at a new frequency: after a lowering the VID may slew down (R354). -/
def Block.pllLock (s : Block) (n : Nat) : Block :=
  match (s.margin n).pll with
  | .locking f =>
    let s := s.setFld (F.LG_MARGIN_FREQ_f_now n) f
    (s.setMargin n { s.margin n with fVid := f, pll := .idle }).retarget n 0 (s.domRate n)
  | .raising f (some g) =>
    (s.setFld (F.LG_MARGIN_FREQ_f_now n) g).setMargin n { s.margin n with pll := .raising f none }
  | _ => s

/-! ## Calibration (R361, R362) -/

/-- A calibration is requested: it waits for an idle edge with cal_busy at 1, and cal_req reads 1 until it ends (R28).
Marks: DEDUCED, log entry 121. -/
def Block.calReq (s : Block) (t : Nat) : Block :=
  let p := s.post t
  s.when (p.powered && p.cal == .idle) fun s =>
    ((s.setPost t { p with cal := .pending }).setFld (F.POST_LANTERN_CAL_cal_busy t) 1).setFld
      (F.POST_LANTERN_CAL_cal_req t) 1

def execCalReq (tile : Tile) (s : State) : Host.Outcome State Fault Refusal :=
  s.on fun s => s.when (s.linkUp (dieOfTile tile.val)) fun s => s.calReq tile.val

/-- The first idle edge: the compute clock is gated and the launch gate held closed. -/
def execLanternCalStart (tile : Tile) (s : State) : Host.Outcome State Fault Refusal :=
  s.on fun s =>
    let t := tile.val
    let p := s.post t
    s.when (p.runs && p.cal == .pending && p.running == 0) fun s =>
      ((s.setPost t { p with cal := .running }).showGate t).noteResid t

/-- A re-admission goes from its calibration to its restore publication (Table 12-8). -/
def Block.readmitCal (s : Block) (t : Nat) : Block :=
  if s.fc.readmits.any (fun r => r.tile == t && r.step == 5) then
    let l := s.fc.readmits.map fun (r : Readmit) => if r.tile == t then { r with step := 6 } else r
    let s := { s with fc := { s.fc with readmits := l } }
    s.restorePub t
  else s

/-- The sweep found `level` mV. -/
def execLanternCalEnd (tile : Tile) (level : Fin 2048) (s : State) : Host.Outcome State Fault Refusal :=
  s.on fun s =>
    let t := tile.val
    let n := domOfTile t
    let p := s.post t
    s.when (p.runs && p.cal == .running) fun s =>
      let s := (s.setPost t { p with cal := .idle }).setFld (F.POST_LANTERN_CAL_cal_busy t) 0
      let s := ((s.setFld (F.POST_LANTERN_CAL_cal_req t) 0).showGate t).noteResid t
      let trim : Int := (level.val : Int) - s.fld (F.VRC_DOM_REF_vmean_mv n)
      let s := if trim.natAbs ≤ 31 then
          let s := s.setFldS (F.POST_LANTERN_CAL_trim t) trim
          let s := s.setFld (F.POST_LANTERN_CAL_cal_valid t) 1
          match p.tempRead with
          | some r => s.setFld (F.POST_LANTERN_CAL_cal_temp t) (ofSigned 16 r)
          | none => let f := s.free; f.2.setFld (F.POST_LANTERN_CAL_cal_temp t) (f.1.toNat % 65536)
        else
          let was := s.flag (F.POST_LANTERN_CAL_cal_valid t)
          let s := (s.setFld (F.POST_LANTERN_CAL_cal_valid t) 0).setFld (F.POST_LANTERN_CAL_cal_fail t) 1
          let s := (s.setFld F.LG_MARGIN_STATUS_cal_fail_seen 1).postFault t 9 4
          if was ∧ !p.open_ then s.marginExit n 6 true true else s
      s.readmitCal t

end Sys2Proof.Machine
end

