-- ==== Sys2Proof/Machine/Silo.lean ====
section
/-! DEFINITION. Launch admission: requests and the gate at the Posts, decisions in the slices, credit and the pool in
the hub (07_launch_admission.md). -/
namespace Sys2Proof.Machine
open Sys2Proof

/-! ## Requests at a Post (R305, R312, R328) -/

/-- The Post sends requests upward (R305, R361, R737).
Marks: DEDUCED, log entry 110. -/
def Block.canTake (s : Block) (t : Nat) : Bool :=
  let p := s.post t
  p.runs && p.cal != .running && decide (p.reqs.length < 2) && s.flag (F.POST_LANTERN_CAL_cal_valid t) &&
    s.bankValid t (s.flag (F.POST_STATUS_bank_active t))

/-- The flit of a request (Table 07-1). -/
def Req.flit (r : Req) (kind t : Nat) : UpFlit := ⟨kind, t, r.ctx, r.tag, r.cls, r.lead⟩

/-- The first request that waits on P1 is taken, when it can be. -/
def Block.takeReq (s : Block) (t : Nat) : Block :=
  match s.canTake t, (s.post t).pres with
  | true, r :: rest =>
    let s := s.setPost t { s.post t with pres := rest, reqs := (s.post t).reqs ++ [{ r with age := 0, resends := 0 }] }
    s.sendUp (r.flit 1 t)
  | _, _ => s

/-- Take what P1 holds, up to two requests.
Marks: DEDUCED, log entry 110. -/
def Block.pumpReqs (s : Block) (t : Nat) : Block := (s.takeReq t).takeReq t

/-- The command processor presents a request (R305). -/
def execTpRequest (tile : Tile) (ctx : Ctx) (tag : Half) (cls : Fin 4096) (lead : Fin 64) (now : Ft) (s : State) :
    Host.Outcome State Fault Refusal :=
  s.on fun s =>
    let s := s.advance now
    let t := tile.val
    let p := s.post t
    (s.setPost t { p with pres := p.pres ++ [⟨tag.toNat, ctx.val, cls.val, lead.val, 0, 0, none⟩] }).pumpReqs t

/-- Replace the outstanding request with a tag. -/
def Block.mapReq (s : Block) (t tag : Nat) (f : Req → Req) : Block :=
  let p := s.post t
  s.setPost t { p with reqs := p.reqs.map fun r => if r.tag == tag then f r else r }

/-- An outstanding request ends. -/
def Block.endReq (s : Block) (t tag : Nat) : Block :=
  let p := s.post t
  s.setPost t { p with reqs := p.reqs.filter (·.tag != tag) }

/-- The retry delay of a wait has passed (R328). -/
def execRequestRetry (tile : Tile) (tag : Half) (s : State) : Host.Outcome State Fault Refusal :=
  s.on fun s =>
    let t := tile.val
    match (s.post t).runs, (s.post t).reqs.find? fun r => r.tag == tag.toNat && r.retry == some 0 with
    | true, some r =>
      (s.mapReq t r.tag fun r => { r with age := 0, resends := 0, retry := none }).sendUp (r.flit 1 t)
    | _, _ => s

/-- 64 windows without a reply: resent three times, then refused with LOST (R312). -/
def execRequestResend (tile : Tile) (tag : Half) (s : State) : Host.Outcome State Fault Refusal :=
  s.on fun s =>
    let t := tile.val
    match (s.post t).runs, (s.post t).reqs.find? fun r => r.tag == tag.toNat && r.retry.isNone && decide (64 ≤ r.age) with
    | true, some r =>
      if r.resends < 3 then
        (s.mapReq t r.tag fun r => { r with age := 0, resends := r.resends + 1 }).sendUp (r.flit 1 t)
      else (((s.endReq t r.tag).tpResp t 3 r.tag).postFault t 9 5).pumpReqs t
    | _, _ => s

/-- The command processor withdraws a request: a cancel goes up while its gate has not been released (R310).
Marks: DEDUCED, log entry 49. -/
def execRequestWithdraw (tile : Tile) (tag : Half) (now : Ft) (s : State) : Host.Outcome State Fault Refusal :=
  s.on fun s =>
    let s := s.advance now
    let t := tile.val
    let tg := tag.toNat
    let p := s.post t
    match p.runs, p.reqs.find? (·.tag == tg), p.grants.find? (fun g => g.tag == tg && !g.released && !g.void) with
    | true, some r, _ => ((s.endReq t tg).sendUp (r.flit 2 t)).pumpReqs t
    | true, none, some g =>
      let l := p.grants.map fun (x : PGrant) => if x == g then { x with void := true } else x
      (s.setPost t { p with grants := l }).sendUp ⟨2, t, g.ctx, tg, g.cls, 0⟩
    | _, _, _ => s.setPost t { p with pres := p.pres.filter (·.tag != tg) }

/-! ## The gate (R308, R309) -/

/-- A granted window has begun. -/
def execGateRelease (tile : Tile) (now : Ft) (s : State) : Host.Outcome State Fault Refusal :=
  s.on fun s =>
    let s := s.advance now
    let t := tile.val
    let p := s.post t
    s.when (p.runs && p.cal != .running) fun s =>
      let w := s.window
      let l := p.grants.map fun (g : PGrant) =>
        if !g.void && decide (g.win ≤ w) && decide (w < g.win + 3) then { g with released := true } else g
      (s.setPost t { p with grants := l }).showGate t

/-- A grant lapses at the Post: reported, and an idle notice sent while the tile runs no command.
Marks: DEDUCED, log entry 49. -/
def Block.lapse (s : Block) (t tag ctx : Nat) (void : Bool) : Block :=
  let s := if void then s else s.tpResp t 4 tag
  if (s.post t).running = 0 then s.idleNotice t ctx else s

/-- The third window of a grant has ended unused. -/
def execGrantLapse (tile : Tile) (now : Ft) (s : State) : Host.Outcome State Fault Refusal :=
  s.on fun s =>
    let s := s.advance now
    let t := tile.val
    let p := s.post t
    match p.runs, p.grants.find? fun g => decide (g.win + 3 ≤ s.window) with
    | true, some g =>
      ((s.setPost t { p with grants := p.grants.filter (· != g) }).lapse t g.tag g.ctx g.void).showGate t
    | _, _ => s

/-! ## Replies at a Post (R307, R309, R326) -/

/-- Take the oldest reply on its way to a tile; its flit crosses the chain on PN0 (R307). -/
def Block.popReply (s : Block) (t : Nat) : Option (Reply × Block) :=
  let x := s.slice (dieOfTile t)
  match x.replies.find? (·.tile == t) with
  | some r => ((s.setSlice (dieOfTile t) { x with replies := x.replies.erase r }).postDownFlit t 0 r.flit.1 r.flit.2).map
      fun s => (r, s)
  | none => none

/-- The window a reply names, expanded against the Post's own (R309). -/
def expandWin (cur low : Nat) : Nat := cur + 80 - (cur + 80 + 256 - low % 256) % 256

/-- A grant reaches the Post. -/
def execGrant (tile : Tile) (now : Ft) (s : State) : Host.Outcome State Fault Refusal :=
  s.on fun s =>
    let s := s.advance now
    let t := tile.val
    match (s.post t).runs, s.popReply t with
    | true, some (.grant _ tag ctx win _ _ dflt, s') =>
      let w := expandWin s.window win
      let req := (s.post t).reqs.find? (·.tag == tag)
      let s := s'.endReq t tag
      let void := req.isNone
      if w + 3 ≤ s.window then (s.lapse t tag ctx void).pumpReqs t
      else
        let p := s.post t
        let cls := match req with | some r => r.cls | none => 0
        (s.setPost t { p with grants := p.grants ++ [⟨tag, ctx, cls, w, dflt, false, void⟩] }).pumpReqs t
    | _, _ => s

/-- A wait reaches the Post: the request stays outstanding and its delay begins (R328). -/
def execWait (tile : Tile) (now : Ft) (s : State) : Host.Outcome State Fault Refusal :=
  s.on fun s =>
    let s := s.advance now
    let t := tile.val
    match (s.post t).runs, s.popReply t with
    | true, some (.wait _ tag _ _ retry, s') => s'.mapReq t tag fun r => { r with age := 0, retry := some retry }
    | _, _ => s

/-- A revoke that comes before the window's first edge holds the gate; a later one changes nothing (R326). -/
def execRevoke (tile : Tile) (now : Ft) (s : State) : Host.Outcome State Fault Refusal :=
  s.on fun s =>
    let s := s.advance now
    let t := tile.val
    match (s.post t).runs, s.popReply t with
    | true, some (.revoke _ tag _ win, s') =>
      let p := s'.post t
      match p.grants.find? fun g => g.tag == tag && !g.released && g.win % 256 == win % 256 && decide (s.now < g.win * 32) with
      | some g =>
        let s := s'.setPost t { p with grants := p.grants.filter (· != g) }
        if g.void then s else s.tpResp t 5 tag
      | none => s'
    | _, _ => s

/-- A refusal ends the request and is reported (R313). -/
def execRefuse (tile : Tile) (now : Ft) (s : State) : Host.Outcome State Fault Refusal :=
  s.on fun s =>
    let s := s.advance now
    let t := tile.val
    match (s.post t).runs, s.popReply t with
    | true, some (.refuse _ tag _ reason, s') =>
      if (s'.post t).reqs.any (·.tag == tag) then ((s'.endReq t tag).tpResp t reason tag).pumpReqs t else s'
    | _, _ => s

/-! ## The slice (R306, R310-R313, R320-R322) -/

/-- Take the oldest flit of a chain port, when it is tile `t`'s and of a kind (R320). -/
def Block.popUp (s : Block) (t kind : Nat) : Option (UpFlit × Block) :=
  let n := domOfTile t
  let c := s.chain n
  match c.up with
  | (f, _) :: rest => if f.tile = t ∧ f.kind = kind then some (f, s.setChain n { c with up := rest }) else none
  | [] => none

/-- A lower-numbered chain of the die is first: its oldest flit asks for the same context and came in the same engines
cycle (R320).
Marks: DEDUCED, log entry 122. -/
def Block.lowerFirst (s : Block) (n : Nat) : Bool :=
  match (s.chain n).up with
  | (f, at_) :: _ => f.kind == 1 && (List.range (n % 16)).any fun k =>
      match (s.chain (n / 16 * 16 + k)).up with
      | (g, b) :: _ => g.kind == 1 && g.ctx == f.ctx && b == at_
      | [] => false
  | [] => false

/-- A ramp fits at a window under a cap (R322). -/
def SiloDom.fits (x : SiloDom) (w lim : Nat) (st : List Nat) : Bool :=
  st.zipIdx.all fun p => decide (x.booked (w + p.2) + p.1 ≤ lim)

/-- An overstepping ramp fits into an empty stretch (R322). -/
def SiloDom.fitsEmpty (x : SiloDom) (w lim : Nat) (st : List Nat) : Bool :=
  (st.any fun v => decide (lim < v)) && (List.range 8).all fun j => x.booked (w + j) == 0

/-- Windows to the next epoch boundary. -/
def toEpoch (w : Nat) : Nat := 512 - w % 512

/-- A wait is answered and counted (R328, Table 07-12, Table 16-4). -/
def Block.sendWait (s : Block) (t tag ctx reason retry : Nat) : Block :=
  let s := (s.reply (dieOfTile t) (.wait t tag ctx reason retry)).waitNoted t tag ctx reason
  { s with silo := { s.silo with waits := s.silo.waits.set ctx (s.silo.waits.getD ctx 0 + 1) } }

/-- A refusal is answered and counted. -/
def Block.sendRefuse (s : Block) (t tag ctx reason : Nat) : Block :=
  let d := dieOfTile t
  let s := ((s.reply d (.refuse t tag ctx reason)).cntPkg 12).waitEnds t tag
  s.setSlice d { s.slice d with refused := (s.slice d).refused + 1 }

/-- A CREDIT wait counts the class energy of a request once an epoch (R332). -/
def Block.creditWait (s : Block) (t tag ctx deb : Nat) : Block :=
  let d := dieOfTile t
  let s := (s.sendWait t tag ctx 0 (toEpoch s.window + t % 16)).cntPkg 14
  let x := s.slice d
  if x.counted.contains (t, tag) then s
  else s.setSlice d { x with counted := x.counted ++ [(t, tag)], waited := x.waited.set ctx (x.waited.getD ctx 0 + deb) }

/-- A grant books, debits, counts and is answered (R321). -/
def Block.makeGrant (s : Block) (t tag ctx w slip src deb : Nat) (st : List Nat) (dflt step : Bool) : Block :=
  let d := dieOfTile t
  let n := domOfTile t
  let x := (s.sdom n).addRamp w st
  let s := s.setSdom n { x with grants := x.grants + 1, maxSlip := max x.maxSlip slip }
  let c := if src = 1 then 0 else ctx
  let s := s.setCredit d c (s.credit d c - deb)
  let ration := s.fld F.SILO_STATUS_mode = 1 || s.flag (F.SILO_SLICE_STATUS_ration d)
  let src := if src = 0 && ration then 2 else src
  let g : Grant := ⟨t, ctx, tag, w, src, dflt, deb, st, false⟩
  let sl := s.slice d
  let deb' := sl.debited.set ctx (sl.debited.getD ctx 0 + deb)
  let s := s.setSlice d { sl with
    grants := sl.grants ++ [g]
    granted := sl.granted + 1
    debited := if src = 1 then deb'.set 0 (deb'.getD 0 0 + deb) else deb' }
  let s := (if step then s.setFld F.SILO_STATUS_overstep_seen 1 else s).waitEnds t tag
  (s.reply d (.grant t tag ctx w src (satU 24 deb) dflt)).cntPkg 11

/-- The decision of a request that is not a resend of an outstanding grant (R313, R321). -/
def Block.decideReq (s : Block) (t ctx tag cls lead : Nat) : Block :=
  let d := dieOfTile t
  let n := domOfTile t
  let wd := s.window
  let ent := s.classFor d ctx cls
  let s := if (s.slice d).badCls.contains cls then s.relayFault d 20 2 d else s
  if ctx ≠ s.tileCtx t ∨ ctx = 0 ∨ s.ctxState d ctx = 0 then s.sendRefuse t tag ctx 0
  else if (s.tile t).isolated then s.sendRefuse t tag ctx 1
  else if !ent.1.defined then s.sendRefuse t tag ctx 2
  else
    let x := s.sdom n
    let lvl := s.fld (F.SILO_DOM_LIM_level n)
    let deb := ent.1.energy * x.kvt / 16384
    let copy := s.ctxSecuring d ctx && ent.1.kind == 2
    let st := ent.1.ramp.map fun r => r * x.kf / 16384
    if (s.slice d).stopped ∨ (s.slice d).gs ∨ s.lg.tripped then s.sendWait t tag ctx 3 32
    else if s.ctxState d ctx = 2 then s.sendWait t tag ctx 4 512
    else if 2 ≤ lvl ∧ !copy then s.sendWait t tag ctx 2 8
    else
      let src := if lvl < 2 ∧ 0 < s.credit d ctx then some 0
        else if copy ∧ 0 < s.credit d 0 then some 1 else none
      match src with
      | none => s.creditWait t tag ctx deb
      | some src =>
        let pace := decide (1 ≤ lvl)
        let lim := max 8 ((if pace then x.step / 2 else x.step) * 8)
        let w0 := wd + max 2 lead
        match ((List.range 16).map (w0 + ·)).find? fun w =>
            !(pace && decide (w % 2 = 1)) && (x.fits w lim st || x.fitsEmpty w lim st) with
        | none =>
          let s := s.setSdom n { x with limitWaits := x.limitWaits + 1 }
          (s.sendWait t tag ctx 1 8).cntPkg 13
        | some w => s.makeGrant t tag ctx w (w - w0) src deb st ent.2 (!x.fits w lim st)

/-- A request reaches its slice; `flip` is what the transport changed in its body (R306, R312). -/
def execLaunchRequest (tile : Tile) (flip : DWord) (now : Ft) (s : State) : Host.Outcome State Fault Refusal :=
  s.on fun s =>
    let s := s.advance now
    let t := tile.val
    let d := dieOfTile t
    match s.lowerFirst (domOfTile t), s.popUp t 1 with
    | true, _ | _, none => s
    | false, some (f, s) =>
      let w := (f.word ^^^ flip).toNat
      if parity 64 w ∨ getBits w 54 10 ≠ t then
        (s.incSat (F.POST_STATUS_sheaf_discards t)).relayFault d 9 0 t
      else
        let tag := getBits w 32 16
        let ctx := getBits w 48 6
        match (s.slice d).grants.find? fun g => g.tile == t && g.tag == tag && s.outstanding g with
        | some g => s.reply d (.grant t tag g.ctx g.win g.src (satU 24 g.debit) g.dflt)
        | none => s.decideReq t ctx tag (getBits w 20 12) (getBits w 14 6)

/-- A cancel the slice decides before the granted window begins unbooks and refunds (R310). -/
def execCancel (tile : Tile) (now : Ft) (s : State) : Host.Outcome State Fault Refusal :=
  s.on fun s =>
    let s := s.advance now
    let t := tile.val
    match s.popUp t 2 with
    | none => s
    | some (f, s) =>
      let s := s.waitEnds t f.tag
      match (s.slice (dieOfTile t)).grants.find? fun g =>
          g.tile == t && g.tag == f.tag && decide (s.now < g.win * 32) with
      | some g => s.refund g
      | none => s

/-- An idle notice ends the tile's busy count for the context it names (R311). -/
def execIdleNotice (tile : Tile) (s : State) : Host.Outcome State Fault Refusal :=
  s.on fun s =>
    let t := tile.val
    let d := dieOfTile t
    match s.popUp t 3 with
    | none => s
    | some (f, s) =>
      let x := s.slice d
      let l := x.grants.map fun (g : Grant) =>
        if g.tile == t && g.ctx == f.ctx && decide (g.win ≤ s.window) then { g with done := true } else g
      (s.setSlice d { x with grants := l.filter fun g => !g.done || s.outstanding g }).showBusy f.ctx

/-! ## The limiter window (R323, R325, R327, R378) -/

/-- Pre-boost of a core domain for the window that begins (R378, R379). -/
def Block.preboost (s : Block) (n : Nat) : Block :=
  let v := s.vdom n
  let on := (s.margin n).setting == 2 && s.flag (F.SILO_DOM_LIM_preboost_en n)
  if !on then
    if v.boost = 0 ∧ v.boostTgts.isEmpty then s
    else (s.setVdom n { v with boost := 0, boostTgts := [] }).setFld (F.LG_MARGIN_DOM_boost_mv n) 0
  else
    let tgt := min (s.mfld (dieOfDom n) F.LG_PB_CFG_pb_max_mv) (s.bookedAhead n * s.mfld (dieOfDom n) F.LG_PB_CFG_pb_gain / 256)
    let l := (tgt :: v.boostTgts).take (max 1 (s.mfld (dieOfDom n) F.LG_PB_CFG_pb_hold))
    let b := min (maxN l) (s.vidCeil n - v.refQ / 4096)
    (s.setVdom n { v with boost := b, boostTgts := l }).setFld (F.LG_MARGIN_DOM_boost_mv n) b

/-- What a window boundary does in the slice part of one core domain: the calendar, the cap, the level, and the
revocations of a rise (R323, R325, R326). -/
def Block.windowDom (s : Block) (n last w : Nat) : Block :=
  let x := s.sdom n
  let x := (List.range (min 128 (w - last))).foldl (fun x i => x.setBook (w - 1 - i) 0) x
  let s := s.setSdom n { x with step := x.nextStep.due (32 * w) }
  let l := x.nextLevel.due (32 * w)
  let rise := 2 ≤ l ∧ s.fld (F.SILO_DOM_LIM_level n) < 2
  let s := s.setFld (F.SILO_DOM_LIM_level n) l
  (if rise then s.revokeFrom n w else s).preboost n

/-- Requests of a Post age by windows, and waits run down (R312, R328). -/
def ageReqs (k : Nat) (l : List Req) : List Req :=
  l.map fun r => match r.retry with
    | some x => { r with retry := some (x - k) }
    | none => { r with age := r.age + k }

/-- The drain stop of a breakpoint ends at a window boundary (R578). -/
def Block.showDrain (s : Block) : Block := s.setFld F.FWC_DBG_STATUS_drain_active (b2n s.silo.drainStop)

/-- The stop of a slice follows the reasons for it, and grants that are over leave (R326, R327, R737). A drain stop revokes
only the grants whose windows have not begun (R578).
Marks: DEDUCED, log entry 49. -/
def Block.windowDie (w : Nat) (s : Block) (d : Nat) : Block :=
  let was := (s.slice d).gs
  let stop := s.silo.stopNext.due (32 * w)
  let s := s.setSlice d { s.slice d with gs := stop != 0 }
  let s := if stop = 1 then s.revokeAll d
    else if stop = 2 ∧ !was then s.revokeWhere d fun g => decide (w < g.win)
    else s
  let x := s.slice d
  s.setSlice d { x with grants := x.grants.filter fun g => !g.done || s.outstanding g }

/-- The requests of a Post grow older by `n` windows (R312). -/
def Block.windowPost (n : Nat) (s : Block) (t : Nat) : Block :=
  (s.setPost t { s.post t with reqs := ageReqs n (s.post t).reqs }).pumpReqs t

/-- Each 32 ns window, once. -/
def execLimiterWindow (now : Ft) (s : State) : Host.Outcome State Fault Refusal :=
  s.on fun s =>
    let s := s.advance now
    let w := s.window
    let last := s.silo.lastWin
    s.when (decide (last < w)) fun s =>
      let s := { s with silo := { s.silo with lastWin := w } }
      let s := s.forAll (List.range 64) fun s n => s.windowDom n last w
      let s := s.forAll (List.range 4) (Block.windowDie w)
      let s := s.forAll (s.posts.map (·.1)) (Block.windowPost (w - last))
      (s.forAll ((List.range 63).map (· + 1)) fun s c => s.showBusy c).showDrain

/-! ## Class tables (R318) -/

/-- Every slice has verified its copy of a loaded table. -/
def execClassTableVerified (s : State) : Host.Outcome State Fault Refusal :=
  s.on fun s => s.when s.silo.loading fun s =>
    { (s.setFld F.SILO_STATUS_inactive_valid 1) with silo := { s.silo with loading := false } }

/-! ## The pool (R296, R297, R333-R337, R342) -/

/-- Number of an epoch's beginning boundary. -/
def Block.epoch (s : Block) : Nat := s.tick / 16

/-- Tiles of ACTIVE state-securing contexts on a die, from the registers as they stand (R336).
Marks: DEDUCED, log entry 46. -/
def Block.regTileCtx (s : Block) (t : Nat) : Nat := getBits (s.reg (0xA800 + 4 * (t / 4))).toNat (8 * (t % 4)) 6
def Block.securingTiles (s : Block) (d : Nat) : Nat :=
  ((List.range 256).filter fun i =>
    let c := s.regTileCtx (256 * d + i)
    c != 0 && s.fld (F.SILO_CTX_CFG_state c) == 1 && s.flag (F.SILO_CTX_CFG_state_securing c)).length

/-- The reserve the pool leaves aside (R336). -/
def Block.reserveMw (s : Block) : Nat :=
  if sumN ((List.range 4).map s.securingTiles) = 0 then 0 else s.fld F.SILO_RESERVE_reserve_mw

/-- Sums of an epoch for a domain, when they are held. -/
def Block.epochSums (s : Block) (ep d : Nat) : Option WSums :=
  let w := Tab.get (fun _ => WSums.zero) s.wce.sums (72 * (ep % 4) + d)
  if w.epoch = ep ∧ 0 < w.ticks then some w else none

/-- Mean measured power of the array and uncore domains over the last complete epoch, and the stack power (R296).
Marks: DESIGN CHOICE, log entry 136. -/
def Block.nonCoreMw (s : Block) : Nat :=
  let doms := sumN ((List.range 8).map fun i =>
    match s.epochSums (s.epoch - 1) (64 + i) with
    | some w => w.m16 * 1000 / (16384 * w.ticks)
    | none => 0)
  doms + s.lg.stackNow

/-- The pool of R296.
Marks: DESIGN CHOICE, log entry 136. -/
def Block.poolOf (s : Block) : Nat :=
  let thr := min (min (s.fld (F.LG_LIM_EFF_thr 0)) (s.fld (F.LG_LIM_EFF_thr 1)))
    (clampI 300000 (min 1100000 (s.fld (F.LFC_CEIL_value 0))) (s.fld (F.LG_LIM_EFF_thr 2) + s.lg.adj)).toNat
  thr * 97 / 100 - s.nonCoreMw - s.reserveMw

/-- The pool is written with its epoch: in time, or later than its deadline (R333). The 32 bits of the register name the
epoch nearest to the present one.
Marks: DEDUCED, log entry 122. -/
def Block.postPool (s : Block) (pool ep : Nat) : Block :=
  let s := (s.setFld F.SILO_POOL_pool_mw pool).setFld F.SILO_POOL_EPOCH_epoch ep
  let ahead := toSigned 32 ((ep + 2 ^ 32 - s.epoch % 2 ^ 32) % 2 ^ 32)
  if ahead ≤ 0 ∨ (ahead = 1 ∧ (10240 < s.now % 16384 ∨ s.silo.divided = some s.epoch)) then
    (s.setFld F.SILO_STATUS_pool_late_seen 1).raise 20 0 0
  else
    let e := s.epoch + ahead.toNat
    { s with silo := { s.silo with posted := (s.silo.posted.filter fun x => x.1 != e) ++ [(e, pool)] } }

/-- The pool posted for an epoch. -/
def Block.poolFor (s : Block) (e : Nat) : Option Nat := (s.silo.posted.find? fun x => x.1 == e).map (·.2)

/-- Core 1 computes the pool and posts it for the next epoch, while its tasks run (Table 13-5). -/
def execPoolPost (now : Ft) (s : State) : Host.Outcome State Fault Refusal :=
  s.on fun s =>
    let s := s.advance now
    s.when (s.coreRuns 1) fun s => s.postPool s.poolOf (s.epoch + 1)

/-- Two 32-bit entries make the body of a flit of types 0x14 and 0x15, the first in the low word.
Marks: DESIGN CHOICE, log entry 116. -/
def pairBody (a b : Nat) : DWord := BitVec.ofNat 64 (a % 2 ^ 32 + b % 2 ^ 32 * 2 ^ 32)

/-- The entry of a context in a credit report (R332). -/
def reportEntry (c deb waited : Nat) : Nat := packBits [(26, 6, c), (10, 16, deb), (0, 10, waited)]

/-- The hub takes two entries of a die's report; the last completes it (R332, R335). -/
def SiloHub.takeReport (x : SiloHub) (d : Nat) (w : DWord) : SiloHub :=
  let e (i : Nat) : Nat × Nat := (getBits w.toNat (32 * i + 10) 16, getBits w.toNat (32 * i) 10)
  let l := (if getBits w.toNat 26 6 = 0 then [] else x.coming.getD d []) ++ [e 0, e 1]
  if 64 ≤ l.length then
    { x with reports := x.reports.set d (some (l.map (·.1), l.map (·.2))), coming := x.coming.set d [] }
  else { x with coming := x.coming.set d l }

/-- The next credit-report flit of a slice reaches the hub, four in each of eight ticks (R332). -/
def execCreditReport (die : Die) (s : State) : Host.Outcome State Fault Refusal :=
  s.on fun s =>
    let d := die.val
    let x := s.slice d
    match x.report with
    | some (deb, waited, _) =>
      let k := x.sent
      let e (c : Nat) : Nat := reportEntry c (deb.getD c 0) (waited.getD c 0)
      let w := pairBody (e (2 * k)) (e (2 * k + 1))
      if s.now < s.time.epoch * 16384 + k / 4 * 1024 then s
      else match s.sbLow d 2 0x14 (srcRelay d) w with
        | some s =>
          let s := s.setSlice d { s.slice d with
            sent := k + 1, report := if 31 ≤ k then none else (s.slice d).report }
          { s with silo := s.silo.takeReport d w }
        | none => s
    | none => s

/-- Debited and waited energy of a context on a die as the hub holds it, nJ. -/
def Block.repDebited (s : Block) (d c : Nat) : Nat :=
  match s.silo.reports.getD d none with | some r => 256 * r.1.getD c 0 | none => 0
def Block.repWaited (s : Block) (d c : Nat) : Nat :=
  match s.silo.reports.getD d none with | some r => 4096 * r.2.getD c 0 | none => 0

/-- Demand of a context in mW (R334). -/
def Block.demand (s : Block) (c : Nat) : Nat :=
  sumN ((List.range 4).map fun d => s.repDebited d c + s.repWaited d c) * 1000 / 16384 * 5 / 4

/-- The contexts that are ACTIVE in the registers. -/
def Block.activeCtxs (s : Block) : List Nat :=
  ((List.range 63).map (· + 1)).filter fun c => s.fld (F.SILO_CTX_CFG_state c) == 1

/-- Meet the minima in descending priority (R297): shares, the rest of the pool, and the first priority not met. -/
def giveMinima (ctxs : List (Nat × Nat × Nat)) (pool : Nat) : List (Nat × Nat) × Nat × Option Nat :=
  (List.range 8).foldl (fun acc i =>
    let pr := 7 - i
    let grp := ctxs.filter fun x => x.2.1 == pr
    let sum := sumN (grp.map (·.2.2))
    match acc.2.2 with
    | some p => (acc.1 ++ grp.map (fun x => (x.1, 0)), acc.2.1, some p)
    | none =>
      if sum ≤ acc.2.1 then (acc.1 ++ grp.map (fun x => (x.1, x.2.2)), acc.2.1 - sum, none)
      else (acc.1 ++ grp.map (fun x => (x.1, x.2.2 * acc.2.1 / sum)), 0, some pr)) ([], pool, none)

/-- One round of the water fill (R334): entries are context, share, cap, weight, capped. -/
def fillRound (l : List (Nat × Nat × Nat × Nat × Bool)) (rem : Nat) : List (Nat × Nat × Nat × Nat × Bool) × Nat :=
  let wsum := sumN (l.map fun x => if x.2.2.2.2 then 0 else x.2.2.2.1)
  if wsum = 0 ∨ rem = 0 then (l, rem)
  else
    let add (x : Nat × Nat × Nat × Nat × Bool) : Nat × Bool :=
      if x.2.2.2.2 then (0, true)
      else
        let a := rem * x.2.2.2.1 / wsum
        if x.2.2.1 ≤ x.2.1 + a then (x.2.2.1 - x.2.1, true) else (a, false)
    (l.map (fun x => (x.1, x.2.1 + (add x).1, x.2.2.1, x.2.2.2.1, (add x).2)), rem - sumN (l.map fun x => (add x).1))

/-- The shares of a pool (R297, R334), and the first priority not met.
Marks: DEDUCED, log entry 46. -/
def Block.divide (s : Block) (pool : Nat) : List Nat × Option Nat :=
  let act := s.activeCtxs
  let mn (c : Nat) := s.fld (F.SILO_CTX_MIN_min_mw c)
  let g := giveMinima (act.map fun c => (c, s.fld (F.SILO_CTX_CFG_priority c), mn c)) pool
  let l := act.map fun c =>
    (c, ((g.1.find? fun p => p.1 == c).map (·.2)).getD 0,
      min (s.fld (F.SILO_CTX_MAX_max_mw c)) (max (mn c) (s.demand c)), s.fld (F.SILO_CTX_CFG_weight c), false)
  let r := (List.range 8).foldl (fun acc _ => fillRound acc.1 acc.2) (l, g.2.1)
  ((List.range 64).map fun c => ((r.1.find? fun x => x.1 == c).map (·.2.1)).getD 0, g.2.2)

/-- The first index of the greatest entry. -/
def argMax (l : List Nat) : Nat := (List.range l.length).foldl (fun b i => if l.getD b 0 < l.getD i 0 then i else b) 0

/-- Split a total by parts, rounded down, the remainder to the greatest part (R335). -/
def splitBy (tot : Nat) (parts : List Nat) : List Nat :=
  let sum := sumN parts
  if sum = 0 then parts.map fun _ => 0
  else
    let l := parts.map fun p => tot * p / sum
    l.set (argMax parts) (l.getD (argMax parts) 0 + (tot - sumN l))

/-- Split a context's total among the dies (R335). -/
def Block.splitDies (s : Block) (c tot : Nat) : List Nat :=
  let dem := (List.range 4).map fun d => s.repDebited d c + s.repWaited d c
  let tiles := (List.range 4).map fun d => ((List.range 256).filter fun i => s.regTileCtx (256 * d + i) == c).length
  if 0 < sumN dem then splitBy tot dem else splitBy tot tiles

/-- A delegation as its flit carries it, in nJ (R337). -/
def quantDeleg (n : Nat) : Nat := min (n / 16) (2 ^ 26 - 1) * 16

/-- The context records and the tile map as the registers stand (R338, R340).
Marks: DEDUCED, log entry 46. -/
def Block.regCfg (s : Block) : Tab Nat × Tab Nat :=
  ((List.range 64).foldl (fun t c => Tab.set (fun _ => 1) t c (if c = 0 then 1 else (s.reg (0xA100 + 4 * c)).toNat)) [],
    (List.range 1024).foldl (fun t i => Tab.set zeroN t i (s.regTileCtx i)) [])

/-- The delegations of four dies from per-context totals and the reserves. -/
def Block.delegations (s : Block) (tot : List Nat) (res : List Nat) : List (Option (List Nat)) :=
  let parts := (List.range 64).map fun c => if c = 0 then res else s.splitDies c (tot.getD c 0)
  (List.range 4).map fun d => some ((List.range 64).map fun c => quantDeleg ((parts.getD c []).getD d 0))

/-- A budget shortfall is written to the event ring (R297). -/
def Block.shortfall (s : Block) (pool : Nat) (first : Option Nat) : Block :=
  match first with
  | none => s
  | some p =>
    let mins := s.activeCtxs.map fun c => s.fld (F.SILO_CTX_MIN_min_mw c)
    let hit := (s.activeCtxs.filter fun c => decide (s.fld (F.SILO_CTX_CFG_priority c) ≤ p)).length
    s.event 0x06 (BitVec.ofNat 64 (s.epoch * 16384)) (leBytes 4 pool ++ leBytes 4 (sumN mins) ++ leBytes 1 p ++ leBytes 1 hit)

/-- The division at E + 10,240 ns, once an epoch: normal, ration or boot (R334-R336, R342, R344). -/
def execPoolDivision (now : Ft) (s : State) : Host.Outcome State Fault Refusal :=
  s.on fun s =>
    let s := s.advance now
    s.when (s.silo.divided != some s.epoch && decide (10240 ≤ s.now % 16384) && !s.inDeep) fun s =>
      let cfg := s.regCfg
      let res := (List.range 4).map fun d =>
        let n := sumN ((List.range 4).map s.securingTiles)
        if n = 0 then 0 else s.fld F.SILO_RESERVE_reserve_mw * 16384 / 1000 * s.securingTiles d / n
      let s := { s with silo := { s.silo with divided := some s.epoch, cfgNext := some cfg } }
      let s := s.forAll (List.range 4) fun s d => s.setSlice d { s.slice d with half := none }
      match s.poolFor (s.epoch + 1), s.flag F.SILO_CTRL_ration_force with
      | some pool, false =>
        let (sh, first) := s.divide pool
        let a := sh.map fun x => x * 16384 / 1000
        let tot := (List.range 64).map fun c =>
          let deb := sumN ((List.range 4).map fun d => s.repDebited d c)
          let err : Int := s.silo.chargedLast.getD c 0 - deb
          (clampI 0 (2 * a.getD c 0 : Nat) ((a.getD c 0 : Nat) - err)).toNat
        let out := s.delegations tot res
        let s := s.shortfall pool first
        { s with silo := { s.silo with
          shares := some sh, lastA := a, lastR := res, normal := true, nextMode := 0, out := out } }
      | _, _ =>
        if s.silo.normal then
          let tot := (List.range 64).map fun c => if s.activeCtxs.contains c then s.silo.lastA.getD c 0 else 0
          let out := s.delegations tot s.silo.lastR
          { s with silo := { s.silo with shares := none, nextMode := 1, out := out } }
        else
          let out := (List.range 4).map fun _ => some (List.replicate 64 0)
          { s with silo := { s.silo with shares := none, nextMode := 2, out := out } }

/-- The entry of a context in a delegation flit, and the nJ it stands for (R337). -/
def delegEntry (c nj : Nat) : Nat := packBits [(26, 6, c), (0, 26, nj / 16)]
def delegOf (w : DWord) : List Nat := [16 * getBits w.toNat 0 26, 16 * getBits w.toNat 32 26]

/-- Sixteen delegation flits of the epoch, a half of the set, reach a slice; the second half completes it (R337, R343).
Marks: DEDUCED, log entry 122. -/
def execDelegationReceived (die : Die) (s : State) : Host.Outcome State Fault Refusal :=
  s.on fun s =>
    let d := die.val
    match s.silo.out.getD d none with
    | some l =>
      let h := if (s.slice d).half.isSome then 1 else 0
      let e (c : Nat) : Nat := delegEntry c (l.getD c 0)
      let bodies := (List.range 16).map fun k => pairBody (e (32 * h + 2 * k)) (e (32 * h + 2 * k + 1))
      if s.silo.divided = some s.epoch ∧ s.now % 16384 < 12288 + 1024 * h then s
      else match s.sendDown d (bodies.map fun b => (0x15, b)) with
        | some s =>
          let got := bodies.flatMap delegOf
          match (s.slice d).half with
          | none => s.setSlice d { s.slice d with half := some got }
          | some a =>
            let s := { s with silo := { s.silo with out := s.silo.out.set d none } }
            s.setSlice d { s.slice d with next := some (a ++ got), half := none }
        | none => s
    | none => s

end Sys2Proof.Machine
end

