-- ==== Sys2Proof/Machine/Guard.lean ====
section
/-! DEFINITION. The Limit Guard: measured power, averages, thresholds, the level ladder and its actions
(06_limits_and_budgets.md). -/
namespace Sys2Proof.Machine
open Sys2Proof

/-! ## Input sense (R258, R402) -/

/-- v_in of a record as the slice takes it, in 1/16 mV (R402). -/
def vin16Of (valid : Bool) (v : Nat) : Nat := if valid then 16 * clampN 1500 2000 v else 28800

/-- A die's record as its body says it (Table 06-1), the tick expanded (R102). -/
def Block.inRecOf (s : Block) (w : Nat) : InRec :=
  ⟨expandStamp 8 s.tick (getBits w 56 8), getBits w 40 16, getBits w 24 16, 4 * getBits w 2 22, !parity 64 w && bit w 1⟩

/-- The LG takes a record that reaches the Hub in time (R258, R283). -/
def Block.inputAtHub (s : Block) (d w : Nat) : Block :=
  let r := s.inRecOf w
  if s.now ≤ (r.tick + 2) * 1024 then { s with lg := { s.lg with recs := s.lg.recs.set d (some r) } } else s

/-- A Relay sends the oldest input-sense record it holds, type 0x10 on VC0, at most one a tick (R69, R258).
Marks: DEDUCED, log entry 118. -/
def Block.flushInput (s : Block) (d : Nat) : Block :=
  match (s.relay d).inHeld with
  | w :: rest =>
    if (s.link d).inputSent then s
    else match s.sbUp d 0 0x10 (srcRelay d) w with
      | some (_, s) => ((s.setRelay d { s.relay d with inHeld := rest }).setLink d
          { s.link d with inputSent := true }).inputAtHub d w.toNat
      | none => s
  | [] => s

/-- A Relay's input-sense record of the tick goes to the Hub behind those held while the link trained (R73).
Marks: DEDUCED, log entry 118. -/
def Block.sendInput (s : Block) (d : Nat) (w : DWord) : Block :=
  if (s.link d).state = .down then s
  else (s.setRelay d { s.relay d with inHeld := (s.relay d).inHeld ++ [w] }).flushInput d

/-- A die's record is registered in its Relay, whose slice takes v_in from it, and goes to the LG. -/
def execInputSenseRecord (die : Die) (record : DWord) (now : Ft) (s : State) : Host.Outcome State Fault Refusal :=
  s.on fun s =>
    let s := s.advance now
    let d := die.val
    let r := s.inRecOf record.toNat
    (s.setVslice d { s.vslice d with vin16 := (s.vslice d).vin16.put (vin16Of r.valid r.vIn) s.edge, inTick := some r.tick }).sendInput d record

/-- A slice takes an input of 1,800 mV (R402). -/
def Block.noVin (s : Block) (d : Nat) : Block :=
  s.setVslice d { s.vslice d with vin16 := (s.vslice d).vin16.put 28800 s.edge }

/-- A slice without a record of the tick before last has an input of 1,800 mV (R402). -/
def Block.vinTick (s : Block) : Block :=
  s.forAll (List.range 4) fun s d =>
    match (s.vslice d).inTick with
    | some k => if k + 1 < s.tick - 1 then s.noVin d else s
    | none => s.noVin d

/-! ## Thresholds (R261, R265, R266, R271, R294) -/

/-- C_P, mW. -/
def Block.cP (s : Block) : Nat := s.fld (F.LFC_CEIL_value 0)

/-- Top of the range of L1-L4 (Table 06-2); index 0 is L1. -/
def Block.limTop (s : Block) (n : Nat) : Nat :=
  match n with
  | 0 => s.cP * 16 / 1600
  | 3 => min 1100000 s.cP
  | _ => s.cP

/-- The three requests of L1-L4 (R266).
Marks: DEDUCED, log entry 41. -/
def Block.limSlots (s : Block) (n : Nat) : List Nat :=
  (List.range 3).map fun m => if n = 0 then s.fld (F.LG_LIM1_thr m) else s.fld (F.LG_LIM_thr (n - 1) m)

/-- The effective threshold before L5 (R266). -/
def Block.limEff (s : Block) (n : Nat) : Nat := (s.limSlots n).foldl min (s.limTop n)

def limField (n : Nat) : Fld := if n = 0 then F.LG_LIM1_EFF_thr else F.LG_LIM_EFF_thr (n - 1)

/-- Winner codes of the slots firmware, host, management (Table 16-7). -/
def slotMaster (m : Nat) : Nat := [4, 2, 1].getD m 4

/-- The master that won an effective value, and the masters that lost (R294). -/
def slotWinner (slots : List Nat) (eff : Nat) : Nat × Nat :=
  let win := if slots.getD 2 0 = eff then 1 else if slots.getD 1 0 = eff then 2 else if slots.getD 0 0 = eff then 4 else 0
  (win, ([0, 1, 2].filter fun m => decide (eff < slots.getD m 0)).foldl (fun b m => setBit b (slotMaster m) true) 0)

/-- An effective threshold takes its value at a tick boundary, with the entry of a change (R269, R294).
Marks: DEDUCED, log entry 39. -/
def Block.setEff (s : Block) (f : Fld) (code : Nat) (slots : List Nat) (eff : Nat) : Block :=
  let old := s.fld f
  if eff = old then s
  else
    let w := slotWinner slots eff
    (s.setting code 0 0 w.1 w.2 old eff s.ft).setFld f eff

/-- Thermal thresholds: throttle, control, trip, bmem, stack as slots and effective values (R271). -/
def Block.thermEff (s : Block) : List (Fld × List Nat × Nat) :=
  let r (f : Nat → Fld) : List Nat := (List.range 3).map fun m => s.fld (f m)
  let mn (l : List Nat) : Nat := minN 0 l
  let th := r F.LG_TTHR0_throttle
  let co := r F.LG_TTHR0_control
  let tr := r F.LG_TTHR1_trip
  let bm := r F.LG_TTHR1_bmem
  let st := r F.LG_TTHR2_stack
  let trip := min (mn tr) (s.fld (F.LFC_CEIL_value 2))
  let control := min (mn co) (trip - 160)
  [(F.LG_TTHR0_EFF_throttle, th, min (mn th) control), (F.LG_TTHR0_EFF_control, co, control),
    (F.LG_TTHR1_EFF_trip, tr, trip), (F.LG_TTHR1_EFF_bmem, bm, mn bm), (F.LG_TTHR2_EFF_stack, st, mn st)]

/-- The L4 threshold with L5 (R265). -/
def Block.thr4 (s : Block) : Nat :=
  (clampI 300000 (min 1100000 s.cP : Nat) (s.fld (F.LG_LIM_EFF_thr 2) + s.lg.adj)).toNat

/-- Effective L1-L4 as they stand.
Marks: DEDUCED, log entry 38. -/
def Block.thrNow (s : Block) : List Nat :=
  [s.fld F.LG_LIM1_EFF_thr, s.fld (F.LG_LIM_EFF_thr 0), s.fld (F.LG_LIM_EFF_thr 1), s.thr4]

/-- Keep the thresholds of the tick that begins (R263).
Marks: DEDUCED, log entry 38. -/
def Block.keepThr (s : Block) : Block :=
  let l := (s.tick, s.thrNow) :: s.lg.thrs.filter (·.1 != s.tick)
  { s with lg := { s.lg with thrs := l.take 4 } }

/-- Change the L5 adjustment in force, with its entry; winner 0 LG, 3 the peers (R294). -/
def Block.setAdj (s : Block) (adj : Int) (winner : Nat) : Block :=
  if adj = s.lg.adj then s
  else
    let s := s.setting 5 0 0 winner 0 (ofSigned 32 s.lg.adj) (ofSigned 32 adj) s.ft
    { s with lg := { s.lg with adj := adj } }

/-- The LG clears the adjustment. -/
def Block.clearAdj (s : Block) : Block := (s.setFld F.LG_L5_ADJ_adj_mw 0).setAdj 0 0

/-- A clearing under R484 is reported (R494). -/
def Block.noteCleared (s : Block) (amount : Nat) : Block :=
  ((s.setFld F.HIU_LEND_STATUS_cleared_seen 1).lendEntry 2 0 0 amount).raise 21 2 0

/-- What a tick boundary does to the L5 adjustment: a write takes effect, and outside LOCKED a positive one is cleared
(R269, R484, R494).
Marks: DEDUCED, log entry 42. -/
def Block.l5Tick (s : Block) : Block :=
  let a := s.fldI F.LG_L5_ADJ_adj_mw
  if 0 < a ∧ s.timeState ≠ 1 then
    s.clearAdj.noteCleared a.toNat
  else s.setAdj a 3

/-- Requests of L1-L5 and of the thermal thresholds take effect (R269). -/
def Block.limitTick (s : Block) : Block :=
  let s := s.forAll (List.range 4) fun s n => s.setEff (limField n) (n + 1) (s.limSlots n) (s.limEff n)
  let s := s.forAll s.thermEff.zipIdx fun s p => s.setEff p.1.1 (0x10 + p.2) p.1.2.1 p.1.2.2
  s.l5Tick.keepThr

/-- The L5 adjustment expires (R265, R483, R484): a positive one at the boundary of LG_L5_EXPIRY, a negative one a tick
later and only at a boundary counted in LOCKED, which is reported where the CTU held it back (R494). A write registered in the tick that ends at the boundary stands.
A global stop leaves the clearing to the LG (Table 16-15).
Marks: DEDUCED, log entry 42. -/
def execL5Expiry (now : Ft) (s : State) : Host.Outcome State Fault Refusal :=
  s.live fun s =>
    let s := s.advance now
    let b := s.tick
    let e := s.fld F.LG_L5_EXPIRY_tick
    let at_ := if 0 < s.lg.adj then e else e + 1
    let written := s.lg.adjWrite == some (b - 1) && decide (at_ = b)
    s.when (s.lg.adj != 0 && decide (at_ ≤ b) && !written && (decide (0 < s.lg.adj) || s.timeState == 1)) fun s =>
      if s.frozen then { s.setFld F.LG_L5_ADJ_adj_mw 0 with lg := { s.lg with adj := 0 } }
      else
        let put := s.clearAdj.keepThr
        (if s.lg.adj < 0 ∧ at_ < b then put.noteCleared s.lg.adj.natAbs else put).settle

/-! ## Package power (R257-R260) -/

/-- Input power and current of a die for a tick, and whether it is held (R259, R74).
Marks: DEDUCED, log entry 37. -/
def Block.dieInput (s : Block) (d k : Nat) : Nat × Nat × Bool :=
  let r := match s.lg.recs.getD d none with
    | some r => if r.tick = k ∧ r.valid ∧ s.flag (F.HUB_SB_STATUS_link_up d) then some r else none
    | none => none
  match r with
  | some r => (r.p, r.iIn, false)
  | none =>
    let h := (s.link d).inputs.filterMap id
    if h.isEmpty then (s.cP / 4, s.cP * 16 / 1600 / 4, true)
    else (maxN (h.map (·.2)), maxN (h.map (·.1)), true)

/-- Keep what a die reported in the tick, nothing while its link trains; the history of a link that is down stands (R74).
Marks: DEDUCED, log entry 37. -/
def Block.keepInput (s : Block) (d k : Nat) : Block :=
  if (s.link d).state = .down then s
  else
    let r := match s.lg.recs.getD d none with
      | some r => if r.tick = k ∧ r.valid then some (r.iIn, r.p) else none
      | none => none
    s.setLink d { s.link d with inputs := (r :: (s.link d).inputs).take 8 }

def Block.stackPresent (s : Block) (k : Nat) : Bool := s.flag (F.SSU_STK_present k)

/-- Power of a stack, and whether it is the fallback (R260).
Marks: DEDUCED, log entry 37. -/
def Block.stackPower (s : Block) (k : Nat) : Nat × Bool :=
  if !s.stackPresent k then (0, false)
  else if s.lg.stackRead.contains k ∧ s.fld (F.SSU_STK_P_p_age k) ≤ s.fld F.LG_STACK_CFG_age_limit then
    (s.fld (F.SSU_STK_P_p_mw k), false)
  else (s.fld F.LG_STACK_CFG_fallback_mw, true)

/-! ## Averages and the ladder (R263, R280) -/

/-- The shifts of the averages. -/
def avgShift (n : Nat) : Nat := [13, 20, 23].getD n 13

/-- Advance the averages by one tick of power `p`. -/
def stepAvg (acc : List Nat) (p : Nat) : List Nat :=
  (List.range 3).map fun n => (acc.getD n 0 - (acc.getD n 0 >>> avgShift n) + p) % 2 ^ 64

/-- Skipped ticks advance the averages with the last power held (R89).
Marks: DEDUCED, log entry 19. -/
def Block.skipAvg (s : Block) (n : Nat) : Block :=
  { s with lg := { s.lg with acc := (List.range n).foldl (fun a _ => stepAvg a s.lg.lastP) s.lg.acc } }

/-- rho of an average (R263, R280). -/
def rhoAvg (acc thr p n : Nat) : Nat :=
  let avg := acc >>> avgShift n
  let allow : Int := (avg : Int) + ((thr : Int) - avg) * (2 ^ avgShift n : Nat)
  if allow ≤ 0 then 65535 else min 65535 (p * 16384 / allow.toNat)

/-- The level a tick above 1.0 asks for (R280). -/
def Block.ladder (s : Block) (dom excess : Nat) : Nat :=
  let t := if dom = 1 then (if 3 ≤ excess then 4 else 3) else 2
  let t := if s.fld F.LG_CTRL_esc_str2 ≤ excess then max t 3 else t
  let t := if s.fld F.LG_CTRL_esc_str4 ≤ excess then max t 4 else t
  if s.fld F.LG_CTRL_esc_vid ≤ excess then 5 else t

/-- The level HOT_N requires (R278). -/
def Block.hotLevel (s : Block) : Nat := if s.lg.hot then s.fld F.LG_CTRL_hot_level else 0

/-- Show the domain levels at the Hub (R282). -/
def Block.showLevels (s : Block) : Block :=
  let base := max (s.fld F.LG_STATUS_level) s.hotLevel
  s.forAll (List.range 64) fun s n =>
    s.setFld (F.LG_DOM_STATE_level n) (max base (s.fld (F.LG_DOM_STATE_therm_level n)))

/-- The cooling request follows the first row of Table 10-6 that applies (R465, R467). -/
def Block.coolUpdate (s : Block) : Block :=
  let lg := s.lg.tripped || ((List.range 64).any fun n => s.fld (F.LG_DOM_STATE_therm_level n) != 0) ||
    (List.range 24).any fun k => s.flag (F.SSU_STK_throt k)
  let put (src req dem : Nat) : Block :=
    ((s.setFld F.TME_COOL_source src).setFld F.TME_COOL_cool_req req).setFld F.TME_COOL_demand_pct dem
  if lg then put 1 1 100
  else if s.fld F.TME_COOL_override = 1 then put 3 1 100
  else if s.flag F.TME_STATUS_fc_stale ∨ !s.flag F.TME_STATUS_warm then put 2 1 100
  else put 0 (b2n s.tme.fcReq) s.tme.fcDem

/-- Queue an LG action to every Relay when it differs from the last one sent (R283). -/
def Block.sendAction (s : Block) : Block :=
  let a : LgAct := ⟨s.fld F.LG_STATUS_level, s.hotLevel, s.lg.restoring⟩
  let s := s.showLevels
  if a = s.lg.sent then s
  else
    let s := { s with lg := { s.lg with sent := a } }
    s.forAll (List.range 4) fun s d => s.setRelay d { s.relay d with lgActs := (s.relay d).lgActs ++ [a] }

/-- A core domain drives, and its VID stands at the lowest value level 5 permits (R279, R285). -/
def Block.vidLowest (s : Block) (n : Nat) : Bool :=
  !(s.vstate n == Vs.run || s.vstate n == Vs.soft) ||
    ((s.vdom n).lgCap.isSome && decide (s.fld (F.VRC_DOM_VID_vid_in_force n) ≤ s.capFloor n))

/-! ## Stacks (R273, R276, R448) -/

/-- Temperature of a stack as Table 06-5 compares it: one too old counts as at the threshold (R276). -/
def Block.stackTemp (s : Block) (k : Nat) : Int :=
  if s.fld (F.SSU_STK_temp k) = 0x8000 ∨ s.fld F.LG_STACK_CFG_age_limit < s.fld (F.SSU_STK_age k) then
    s.fld F.LG_TTHR2_EFF_stack
  else s.fldI (F.SSU_STK_temp k)

/-- STK_THROT of a stack in a tick. -/
def Block.stackThrot (s : Block) (k : Nat) : Block :=
  let t := s.stackTemp k
  let thr : Int := (s.fld F.LG_TTHR2_EFF_stack : Nat) - 32
  let on := s.flag (F.SSU_STK_throt k)
  let cool := if on ∧ t + 16 ≤ thr then s.lg.stackCool.getD k 0 + 1 else 0
  let keep := if thr ≤ t then true else on && decide (cool < s.fld F.LG_CTRL_hold_ticks)
  let s := { s with lg := { s.lg with stackCool := s.lg.stackCool.set k cool } }
  s.setFld (F.SSU_STK_throt k) (b2n (s.stackPresent k && keep))

/-- The stack row of a die in a tick.
Marks: DEDUCED, log entry 106. -/
def Block.stackTick (s : Block) (die : Nat) : Block :=
  let l := ((List.range 6).map (6 * die + ·)).filter s.stackPresent
  let th := s.thermS die
  match l.map s.stackTemp with
  | [] => s.setRows die { th with stack := Row.reset }
  | x :: xs =>
    let v := xs.foldl max x
    let row := th.stack
    let row' := row.read (s.stackLevel v) true
    let row' := if row'.level = row.level ∧ 0 < row.level ∧ v + 16 ≤ s.stackCond row.level
      then { row with cool := row.cool + 1 } else { row' with cool := 0 }
    s.setRows die { th with stack := row' }

/-! ## The evaluation (R280, R283) -/

/-- The figures of tick `k`: package power, stack power and input current, with the hold and fallback marks.
Marks: DEDUCED, log entry 38. -/
def Block.lgInputs (s : Block) (k : Nat) : (Nat × Nat × Nat) × Block :=
  let dies := (List.range 4).map fun d => s.dieInput d k
  let stk := (List.range 24).map s.stackPower
  let sp := sumN (stk.map (·.1))
  let p := sumN (dies.map (·.1)) + sp
  let i := sumN (dies.map (·.2.1))
  let s := s.forAll dies.zipIdx fun s x => (s.follow 1 2 x.2 x.1.2.2).keepInput x.2 k
  let s := s.forAll stk.zipIdx fun s x => s.follow 1 3 x.2 x.1.2
  let s := s.setFld F.LG_STATUS_die_hold (b2n (dies.any (·.2.2)))
  let s := s.setFld F.LG_STATUS_hot (b2n s.lg.hot)
  let s := s.setFld F.LG_STATUS_stack_fallback (b2n (stk.any (·.2)))
  let s := (s.setSat F.LG_PKG_P_p_mw p).setSat F.LG_PKG_I_i_16 i
  let s := { s with lg := { s.lg with lastP := p, stackNow := sp } }
  let fig : LgFig := ⟨k, p, i, s.fld F.LG_STATUS_level, sp, dies.map (·.1), [], []⟩
  let s := { s with ttu := { s.ttu with figs := fig :: s.ttu.figs.take 7 } }
  let s := s.withRem 5000 (p * 1024) 1000 fun s n => s.cntPkg 9 n
  ((p, sp, i), s.withRem 5001 (sp * 1024) 1000 fun s n => s.cntPkg 10 n)

/-- Set the package level from the figures of a tick (R263, R280, R281, R285).
Marks: DEDUCED, log entry 38. -/
def Block.lgLadder (s : Block) (k p i : Nat) : Block :=
  let acc := stepAvg s.lg.acc p
  let thr := ((s.lg.thrs.find? (·.1 == k)).map (·.2)).getD s.thrNow
  let rhos := (i * 16384 / max 1 (thr.getD 0 0)) :: (List.range 3).map fun n =>
    rhoAvg (acc.getD n 0) (thr.getD (n + 1) 0) p n
  let rho := maxN rhos
  let dom := 1 + (rhos.findIdx (· == rho))
  let d : Nat := if rho ≤ 15892 then 0 else if rho ≤ 16384 then 1 else 2
  let lvl := s.fld F.LG_STATUS_level
  let excess := if d = 2 then min (s.lg.excess + 1) 255 else 0
  let under := if d ≠ 2 ∧ rho ≤ 14746 then min (s.lg.under + 1) 255 else 0
  let t := if d = 2 then s.ladder dom excess else d
  let s := { s with lg := { s.lg with
    acc := acc, excess := excess, under := under, restoring := s.lg.restoring && decide (t < 5) } }
  let s := s.forAll (List.range 3) fun s n => s.setSat (F.LG_AVG_avg_mw n) (acc.getD n 0 >>> avgShift n)
  let s := s.setFld F.LG_STATUS_level (max lvl t)
  let s := (s.setSat F.LG_STATUS_rho rho).setFld F.LG_STATUS_dom (if d = 0 then 0 else dom)
  let s := { s with ttu := { s.ttu with figs := s.ttu.figs.map fun (f : LgFig) => if f.tick = k then
    { f with level := max lvl t, avgs := (List.range 3).map (fun n => acc.getD n 0 >>> avgShift n), thrs := thr } else f } }
  let low := max lvl t = 5 && decide (16384 < rho) && (List.range 64).all s.vidLowest
  { s with lg := { s.lg with
    lowRun := if !low then 0 else if s.lg.lowRun = 65 then 65 else min 64 (s.lg.lowRun + 1) } }

/-- The LG acts on the tick that ended one tick before this boundary, once, in every power state (R264, R283).
Marks: DESIGN CHOICE, log entry 7. -/
def execLgEvaluation (now : Ft) (s : State) : Host.Outcome State Fault Refusal :=
  s.on fun s =>
    let s := s.advance now
    let k := s.tick - 2
    s.when (decide (2 ≤ s.tick) && s.lg.evalTick != some k) fun s =>
      let (f, s) := s.lgInputs k
      let s := { s with lg := { s.lg with evalTick := some k } }
      let s := s.deepPower k
      let s := s.lgLadder k f.1 f.2.2
      let s := s.forAll (List.range 24) fun s n => s.stackThrot n
      let s := s.forAll (List.range 4) fun s d => s.stackTick d
      let l := s.fld F.LG_STATUS_level
      let s := s.cntPkg (l + 1)
      s.sendAction.coolUpdate

/-- After hold_ticks ticks at or below 0.90 the level falls by one; level 5 begins its restore (R280, R281). -/
def execLgLevelStepDown (s : State) : Host.Outcome State Fault Refusal :=
  s.on fun s =>
    let l := s.fld F.LG_STATUS_level
    s.when (decide (s.fld F.LG_CTRL_hold_ticks ≤ s.lg.under) && decide (0 < l)) fun s =>
      let s := if l = 5 then { s with lg := { s.lg with under := 0, restoring := true } }
        else ({ s with lg := { s.lg with under := 0 } }).setFld F.LG_STATUS_level (l - 1)
      s.sendAction

/-- A core domain's VID has come back: it drives nothing, another cause holds its cap, or its reference stands at a
target without a cap (R281). -/
def Block.vidRestored (s : Block) (n : Nat) : Bool :=
  !(s.vstate n == Vs.run || s.vstate n == Vs.soft) || s.capHeld n || ((s.vdom n).lgCap.isNone && s.vidSettled n)

/-- Level 5 becomes 4 once every affected VID stands at its setpoint: the package's, or the tile row of a domain
(R274, R281). -/
def execLevel5RestoreComplete (dom : Option CoreDom) (s : State) : Host.Outcome State Fault Refusal :=
  s.on fun s =>
    match dom with
    | none =>
      s.when (s.fld F.LG_STATUS_level == 5 && s.lg.restoring &&
          ((List.range 4).all fun d => !s.flag (F.HUB_SB_STATUS_link_up d) || (s.relay d).act.restoring) &&
          (List.range 64).all s.vidRestored) fun s =>
        ((({ s with lg := { s.lg with restoring := false } }).setFld F.LG_STATUS_level 4)).sendAction
    | some n =>
      let th := s.thermS (n.val / 16)
      let k := n.val % 16
      s.when (th.restoring.getD k false && s.vidRestored n.val) fun s =>
        s.setRows (n.val / 16) { th with
          tile := th.tile.set k ⟨4, 0⟩, restoring := th.restoring.set k false }

/-- 64 ticks at level 5 with the lowest VIDs and rho above 1.0 (R285). -/
def execUnachievableLimit (s : State) : Host.Outcome State Fault Refusal :=
  s.on fun s => s.when (s.lg.lowRun == 64) fun s =>
    let s := { s with lg := { s.lg with lowRun := 65 } }
    (s.setFld F.LG_STATUS_unachievable_seen 1).raise 1 0 0

/-! ## At the Relays (R274, R277, R278, R325) -/

/-- The oldest LG action reaches a Relay. -/
def execLgActionAtRelay (die : Die) (s : State) : Host.Outcome State Fault Refusal :=
  s.on fun s =>
    let d := die.val
    match (s.relay d).lgActs with
    | a :: rest => match s.takeDown d 0x20 a.word with
      | some (_, s) =>
        let s := s.setRelay d { s.relay d with lgActs := rest, act := a }
        s.forAll (List.range 16) fun s k => s.applyLevel (16 * d + k)
      | none => s
    | [] => s

/-- A thermal level falls by one: row 0 the tiles of core domain `dom` of the die, 1 its bonded memory, 2 its stacks. -/
def execThermalLevelFall (die : Die) (dom : Fin 16) (row : Fin 3) (s : State) : Host.Outcome State Fault Refusal :=
  s.on fun s => s.rowFall die.val dom.val row.val

/-- The Hub takes a thermal state record from its body (R275, R277): the levels, and a trip.
Marks: DESIGN CHOICE, log entry 119. -/
def Block.thermAtHub (s : Block) (d w : Nat) (bmem : Bool) : Block :=
  let s := s.forAll (List.range 16) fun s k => s.setFld (F.LG_DOM_STATE_therm_level (16 * d + k)) (getBits w (16 + 3 * k) 3)
  let s := s.showLevels.coolUpdate
  let t := 256 * d + getBits w 5 8
  if !bit w 4 then s
  else if bmem then s.raise 0 1 d
  else s.injecting (s.stim 1 t).isSome fun s => s.raise 0 0 t

/-- A thermal state record reaches the Hub.
Marks: DESIGN CHOICE, log entry 119. -/
def execThermalStateRecord (die : Die) (now : Ft) (s : State) : Host.Outcome State Fault Refusal :=
  s.on fun s =>
    let s := s.advance now
    let d := die.val
    s.when (s.flag (F.HUB_SB_STATUS_link_up d)) fun s =>
      match s.nextOff d 0x11 8 with
      | some (f, bmem, s) => s.thermAtHub d f.body.toNat bmem
      | none => s

/-- HOT_N is asserted or deasserted (R278). -/
def execHotNChange (asserted : Bool) (now : Ft) (s : State) : Host.Outcome State Fault Refusal :=
  s.on fun s =>
    let s := s.advance now
    let s := { s with lg := { s.lg with hot := asserted } }
    ((s.setFld F.LG_STATUS_hot (b2n asserted)).follow 1 4 0 asserted).sendAction

end Sys2Proof.Machine
end

