-- ==== Sys2Proof/Machine/Time.lean ====
section
/-! DEFINITION. The CTU's time: markers, offsets, corrections and time states (02_fabric_time_and_ticks.md). -/
namespace Sys2Proof.Machine
open Sys2Proof

/-- Change the time state (R84, R91): the bit, the TIME entry and source 13.1.
Marks: DEDUCED, log entry 17. -/
def Block.setTimeState (s : Block) (new : Nat) (offset : Int) : Block :=
  let old := s.timeState
  if old = new then s
  else
    let s := (s.setFld F.CTU_FT_STATUS_state new).setFld F.CTU_FT_STATUS_state_changed 1
    let n := s.time.count.toNat / 1024
    let s : Block := { s with time := { s.time with ticking := true, goodRun := 0, offsets := [] } }
    -- the units in progress began before the block's time did
    let s : Block := if old = 0 then { s with time := { s.time with last := n, epoch := n / 16, step := n / 128 } } else s
    let s := if old = 0 then s.strobe else s
    let s := s.timeEntry old new 0 offset 0
    if old = 1 then s.raise 13 1 0
    else if new = 1 then (s.setFld F.HUB_BOOT_STATUS_time_locked 1).unraise 13 1 0 else s

/-- A marker is missing or fails its check (R84, R105, R828). -/
def Block.markerMissed (s : Block) : Block :=
  let s := s.incSat F.CTU_FT_STATUS_markers_missed
  let s := { s with time := { s.time with goodRun := 0, offsets := [] } }
  if s.timeState = 1 ∧ 4 ≤ s.fld F.CTU_FT_STATUS_markers_missed then
    s.setTimeState 2 (s.fldI F.CTU_FT_OFFSET_offset_ns)
  else s

/-- Start the correction of Table 02-2, when none is in progress (R88).
Marks: DEDUCED, log entry 18. -/
def Block.correct (s : Block) (o : Int) : Block :=
  match s.time.corr with
  | .none =>
    if -4 ≤ o ∧ o ≤ 4 then s
    else if o < -1024 then { s with time := { s.time with corr := .step o } }
    else
      let c : Corr := if 0 < o then .hold else .advance
      let s := { s with time := { s.time with corr := c } }
      (s.setFld F.CTU_FT_STATUS_slewing 1).timeEntry s.timeState s.timeState 2 o 0
  | _ => s

/-- A marker within 4 ns ends a slew, and the mark of a step that has taken place (R88).
Marks: DEDUCED, log entry 18. -/
def Block.endCorr (s : Block) (o : Int) : Block :=
  if o < -4 ∨ 4 < o then s
  else match s.time.corr with
    | .step _ => s
    | _ => ({ s with time := { s.time with corr := .none } }).setFld F.CTU_FT_STATUS_slewing 0

/-- The offsets of three consecutive valid markers lie within 4 ns of their mean (R87). -/
def nearMean (l : List Int) : Bool :=
  l.length == 3 && l.all fun x => decide ((3 * x - sumI l).natAbs ≤ 12)

/-- A marker that passes R807, with the offset it shows (R84-R88). -/
def Block.goodMarker (s : Block) (o : Int) : Block :=
  let s := (s.setFldS F.CTU_FT_OFFSET_offset_ns o).endCorr o
  if s.timeState = 1 then
    if o < -8 ∨ 8 < o then s.markerMissed
    else
      let s := { s with time := { s.time with offsets := (o :: s.time.offsets).take 3 } }
      (s.setFld F.CTU_FT_STATUS_markers_missed 0).correct o
  else
    let s := s.setFld F.CTU_FT_STATUS_markers_missed 0
    let l := (o :: s.time.offsets).take 3
    let run := if -4 ≤ o ∧ o ≤ 4 then s.time.goodRun + 1 else 0
    let s := { s with time := { s.time with offsets := l, goodRun := min 3 run } }
    let s := if s.timeState ≠ 0 ∧ nearMean l then s.correct (divZ (sumI l) 3) else s
    if 3 ≤ run then s.setTimeState 1 o else s

/-- A strobe restarts the marker timer, whatever it carries (R828). -/
def Block.strobeSeen (s : Block) : Block := { s with time := { s.time with strobed := true, timer := 0 } }

/-- The first valid marker of ACQUIRING loads the count (R85). -/
def Block.loadMarker (s : Block) (m : Ft) : Block := { s with time := { s.time with count := m, loaded := true } }

/-- A strobe on P3: `marker` and `par` are what it carries (`par`: the parity is right), `gap` the ns since the last
strobe. The marker that loads the count in ACQUIRING is the first of the three of Table 02-1.
Marks: DEDUCED, log entry 17. -/
def execFabMarkStrobe (marker : Ft) (par : Bool) (gap : Nat) (now : Ft) (s : State) :
    Host.Outcome State Fault Refusal :=
  s.on fun s =>
    let s := s.advance now
    let close := s.time.strobed && decide (gap ≤ 1024)
    let s := s.strobeSeen
    if !par ∨ marker.toNat % 65536 ≠ 0 ∨ close then s.markerMissed
    else if s.timeState = 0 ∧ !s.time.loaded then (s.loadMarker marker).goodMarker 0
    else s.goodMarker ((s.time.count.toNat : Int) - marker.toNat)

/-- What the marker timer counts to: the period of the markers and 2,048 ns of tolerance (R828). -/
def markerLimit : Nat := 65536 + 2048

/-- The marker timer starts again when it has reached its limit (R828). -/
def Block.restartTimer (s : Block) : Block :=
  { s with time := { s.time with timer := s.time.timer - markerLimit } }

/-- The marker timer has reached 67,584 ns without a strobe (R828). -/
def execMarkerMissing (now : Ft) (s : State) : Host.Outcome State Fault Refusal :=
  s.on fun s =>
    let s := s.advance now
    s.when (decide (markerLimit ≤ s.time.timer)) fun s => s.restartTimer.markerMissed

/-- 10 ms in ACQUIRING without a valid marker: FREE, counting from 0 (R84). One valid marker rules it out until the next
reset.
Marks: DESIGN CHOICE, log entry 5; DEDUCED, log entry 17. -/
def execAcquiringTimeout (s : State) : Host.Outcome State Fault Refusal :=
  s.on fun s =>
    s.when (s.timeState == 0 && !s.time.loaded && decide (10000000 ≤ s.time.count.toNat)) fun s =>
      ({ s with time := { s.time with count := 0 } }).setTimeState 3 0

end Sys2Proof.Machine
end

