-- ==== Sys2Proof/Machine/Vrc.lean ====
section
/-! DEFINITION. The regulator's commands: the PWM period, phase limits, start and stop, protection and the timebase
(09_regulator_control.md). -/
namespace Sys2Proof.Machine
open Sys2Proof

/-! ## The PWM period (R388-R413) -/

/-- What the period that ends leaves on the phases: truncation flags, ages of trips, waits (R406, R407). -/
def Block.periodPhases (s : Block) (d : Nat) : Block :=
  let on := s.phasesOn d
  let all := !on.isEmpty && on.all fun p => (s.vph p).lim
  let any := (phasesOf d).any fun p => (s.vph p).lim
  let v := s.vdom d
  let s := s.setVdom d { v with limRun := if all then v.limRun + 1 else 0, ilimLast := any }
  let s := s.setFld (F.VRC_DOM_STATUS_ilim_active d) (b2n any)
  s.forAll (phasesOf d) fun s p =>
    let x := s.vph p
    let trips := (x.trips.map (· + 1)).filter (· < 131072)
    let s := s.setFld (F.VRC_PH_STATUS_ilim p) (b2n x.lim)
    let s := s.setFld (F.VRC_PH_STATUS_trips p) (min 4 trips.length)
    s.setVph p { x with lim := false, trips := trips, wait := x.wait - 1 }

/-- The period boundary: committed coefficients, the target in force and the reference (R395, R397, R401). The first
period of SOFTSTART keeps the reference it was entered with (R415, the worked example of C40). A global stop holds the
reference and the command in force (Table 16-15). A commit registered at the boundary's own edge waits for the next (R48).
Marks: DEDUCED, log entry 51. -/
def Block.periodBoundary (s : Block) (d : Nat) : Block :=
  let v := s.vdom d
  let s := if v.commitAt.any (· < s.edge) then s.setVdom d { v with
      commitAt := none
      coef := (List.range 4).map fun j => (s.reg (0x500020 + 0x40 * d + 4 * j)).toNat } else s
  let s := if s.frozen then s else s.takeTarget d
  let v := s.vdom d
  let st := s.vstate d
  let t := s.fld (F.VRC_DOM_VID_vid_in_force d) * 4096
  let ref := if s.frozen then v.refQ
    else if st = Vs.soft then (if v.ssRun = 0 then v.refQ else moveRef v.refQ t (s.fld (F.VRC_DOM_SLEW_ss_rate d)))
    else if st = Vs.run then moveRef v.refQ t v.rate
    else if st = Vs.stopping then moveRef v.refQ (100 * 4096) (s.fld (F.VRC_DOM_SLEW_ss_rate d))
    else v.refQ
  let mv : Int := (ref : Int) - v.refQ
  let s := s.setVdom d { v with
    perAt := s.edge, refQ := ref, moving := mv, stillRun := if mv = 0 then v.stillRun + 1 else 0, tSlew := v.tSlew || mv != 0
    ssRun := if st = Vs.soft then v.ssRun + 1 else v.ssRun
    runRun := if st = Vs.run then v.runRun + 1 else 0
    hiccup := v.hiccup - 1, shedWait := v.shedWait - 1, stopFrom := none, shortNow := false
    ovpAges := (v.ovpAges.map (· + 1)).filter (· < 125000) }
  s.setFld (F.VRC_DOM_STATUS_slewing d) (b2n (mv != 0))

/-- Phases restored and shed at the boundary (R411, R412, R416). -/
def Block.periodShed (s : Block) (d : Nat) : Block :=
  let v := s.vdom d
  let st := s.vstate d
  let on := s.phasesOn d
  let shed := (phasesOf d).filter fun p => s.phState p == 2
  if st = Vs.soft then s.allOn d
  else if st ≠ Vs.run then s
  else if !s.flag (F.VRC_DOM_CTRL_shed_en d) then s.allOn d
  else
    let n : Int := on.length
    let fast := v.fastAcc.fdiv 16
    let slow := v.slowAcc.fdiv 1024
    let add : Int := s.fld (F.VRC_DOM_PHASE_add_a d)
    let hot := (phasesOf d).any fun p => decide ((160 : Int) < (s.vph p).iAcc.fdiv 131072)
    let booked : Int := if d < 64 && s.flag (F.SILO_DOM_LIM_preboost_en d) then s.bookedAhead d else 0
    let want := decide (n * add < fast) || v.ilimLast || decide (0 < v.boost) || hot ||
      (d < 64 && s.flag (F.SILO_DOM_LIM_preboost_en d) && decide (n * add < booked + fast))
    let wantShed := decide (slow < (n - 1) * (s.fld (F.VRC_DOM_PHASE_shed_a d))) && decide (s.minPh d < on.length) &&
      v.moving == 0 && v.shedWait == 0
    let s := s.setVdom d { v with wantAdd := want }
    match want, shed with
    | true, p :: _ =>
      ((s.setPhState p 1).setVph p { s.vph p with acc := 0 }).showPhases d
    | _, _ =>
      match wantShed && !(want && decide (on.length < (s.phasesAvail d).length)), on.getLast? with
      | true, some p =>
        let s := (s.setPhState p 2).setVph p (s.vph p).cut
        (s.setVdom d { s.vdom d with shedWait := 1024 }).showPhases d
      | _, _ => s

/-- Diode emulation (R413, R416): forced in SOFTSTART, suspended in STOPPING; the first period of RUN begins it anew. -/
def Block.periodDe (s : Block) (d : Nat) (restored : Bool) : Block :=
  let v := s.vdom d
  let st := s.vstate d
  let was := s.flag (F.VRC_DOM_STATUS_de_active d) && decide (1 < v.runRun)
  let thr : Int := s.fld (F.VRC_DOM_DE_de_thr d)
  let hyst : Int := s.fld (F.VRC_DOM_DE_de_hyst d)
  let ends := decide (thr + hyst < v.fastAcc.fdiv 16) || restored || decide (v.moving < 0) || decide (0 < v.boost)
  let begins := s.flag (F.VRC_DOM_CTRL_de_en d) && (s.phasesOn d).length == s.minPh d &&
    decide (v.slowAcc.fdiv 1024 < thr) && decide (0 ≤ v.moving) && v.boost == 0
  let de := if st = Vs.soft then true
    else if st = Vs.run then (if was then !ends && s.flag (F.VRC_DOM_CTRL_de_en d) && (s.phasesOn d).length == s.minPh d else begins) else false
  (s.setFld (F.VRC_DOM_STATUS_de_active d) (b2n de)).setVdom d { v with tDe := v.tDe || de }

/-- The loop's output for the period, and the pulses of the phases that are on; the overvoltage action takes the place of
every pulse (R388-R390, R400, R403, R423). -/
def Block.periodDuty (s : Block) (d : Nat) : Block :=
  let v := s.vdom d
  let st := s.vstate d
  let on := s.phasesOn d
  let drives := st = Vs.soft ∨ st = Vs.run ∨ st = Vs.stopping
  let r := loopStep v ((s.vslice (dieOfDom d)).vin16.due s.edge) (decide (st = Vs.soft ∧ v.ssRun = 1))
  let s := if drives then s.setVdom d r.2 else s
  if v.crowbar then s.forAll (s.phasesAvail d) fun s p => s.setVph p (s.vph p).crowbar
  else if !drives then s
  else
    let mean := (sumI (on.map fun p => iPh16 (s.vph p).adc)).fdiv on.length
    s.forAll on.zipIdx fun s pk =>
      let x := s.vph pk.1
      let (w, a) := phaseDuty r.2 r.1 x.acc mean (iPh16 x.adc)
      s.setVph pk.1 ({ x with acc := a }.drive w ((v.domOff + 256 * pk.2 / on.length) % 256) v.dtLh v.dtHl)

/-- Samples that an injection holds at code 0 (Table 12-6, det 3): how many of the next `n`, and the state that has used
them.
The stimulus stays, empty, until the next sample, so that a detection at its last one is marked. -/
def Block.adcHeld (s : Block) (mode inst n : Nat) : Nat × Block :=
  match s.stim 3 inst with
  | some (m, left) =>
    if m ≠ mode then (0, s)
    else if left = 0 then (0, s.setStim 3 inst none)
    else (min n left, s.setStim 3 inst (some (m, left - n)))
  | none => (0, s)

/-- The samples of the period (R391, R393) and what follows them: averages, stuck converters and the runs that the
protection events test.
Marks: DESIGN CHOICE, log entry 56. -/
def Block.periodSense (s : Block) (d a b : Nat) (isns : List Nat) : Block :=
  let held := s.adcHeld 1 d 2
  let s := held.2
  let a := if 1 ≤ held.1 then 0 else a
  let b := if 2 ≤ held.1 then 0 else b
  let v := s.vdom d
  let st := s.vstate d
  let s := s.forAll (phasesOf d).zipIdx fun s pk =>
    let heldP := s.adcHeld 0 pk.1 1
    let s := heldP.2
    let x := s.vph pk.1
    let live := s.phState pk.1 == 1
    let code := if 1 ≤ heldP.1 then 0 else isns.getD pk.2 256
    let i : Int := if live then (code : Int) - 256 else 0
    let iAcc := x.iAcc - x.iAcc.fdiv 131072 + i.fdiv 2
    let stuck := if live && (code == 0 || code == 1023) then x.stuckRun + 1 else 0
    (s.setVph pk.1 { x with adc := code, iAcc := iAcc, stuckRun := stuck }).setFldS
      (F.VRC_PH_STATUS_iavg pk.1) (iAcc.fdiv 131072)
  let sum16 := (sumI ((phasesOf d).map fun p =>
    if s.phState p = 1 then ((s.vph p).adc : Int) - 256 else 0)).fdiv 2
  let v16 := (a + b) * 5 / 2
  let ref := v.refQ / 4096
  let low := decide (v16 + 16 * (2 * s.fld (F.VRC_DOM_PROT_uvp_off d)) < 16 * ref)
  let ovp := s.fld (F.VRC_DOM_PROT_ovp_mv d) * 16
  let excess (n c : Nat) : Nat := if ovp < c * 5 then n + 1 else 0
  let rail (n c : Nat) : Nat := if c = 0 ∨ c = 4095 then n + 1 else 0
  let drives := st = Vs.soft ∨ st = Vs.run
  let hot := (phasesOf d).any fun p => decide ((160 : Int) < (s.vph p).iAcc.fdiv 131072)
  let full := (s.phasesOn d).length == (s.phasesAvail d).length
  let v := s.vdom d
  let s := s.setVdom d { v with
    adcA := a, adcB := b, samples := (b :: a :: v.samples).take 1024
    fastAcc := v.fastAcc - v.fastAcc.fdiv 16 + sum16
    slowAcc := v.slowAcc - v.slowAcc.fdiv 1024 + sum16
    uvpRun := if st = Vs.run ∧ low then v.uvpRun + 1 else 0
    ovpRun := excess (excess v.ovpRun a) b
    stuckRun := if drives then rail (rail v.stuckRun a) b else 0
    overRun := if hot && full then v.overRun + 1 else 0
    nPer := v.nPer + 1, vSum := v.vSum + v16, iSum := v.iSum + sum16, tRun := v.tRun && st == Vs.run }
  let l := (s.vdom d).samples
  let s := s.setFld (F.VRC_DOM_REF_vmean_mv d) (sumN l * 5 / (16 * l.length))
  let s := s.setFld (F.VRC_DOM_REF_ref_mv d) (ref + (s.vdom d).boost)
  match (s.vdom d).overPh with
  | some p => if hot then s else (s.setVdom d { s.vdom d with overPh := none }).relayFault (dieOfDom d) 6 2 p true
  | none => s

/-- The spread triangle: how far below the DCO's frequency it stands, ppm, after `pos` of `per` periods (R430).
Marks: DESIGN CHOICE, log entry 128. -/
def spreadPpm (depth pos per : Nat) : Int := (depth * 1000 * (2 * min pos (per - pos)) / per : Nat)

/-- The slice's DCO in a PWM period: a period in TRACK counts toward the next trim, a move goes one of its 256 steps, the
triangle one step, and new spread settings take effect at its minimum (R428-R430). How far the phases stand apart when
RELOCK has reached the frequency is open.
Marks: DESIGN CHOICE, log entry 128. -/
def Block.periodDco (s : Block) (die : Nat) : Block :=
  let x := s.vslice die
  let st := s.fld (F.VRC_SLICE_SYNC_sync_state die)
  let off := s.free.1.toNat
  let moved := if st = 1 ∨ st = 3 then x.moved + 1 else x.moved
  let ppm := if (st = 1 ∨ st = 3) ∧ moved ≤ 256 then
      x.moveFrom + ((if st = 1 then x.own else 0) - x.moveFrom) * moved / 256 else x.ppm
  -- RELOCK: the frequency first, then the phase by one fine step a period
  let reached := st = 3 ∧ moved = 256 ∧ x.moved < 256
  let s := if reached then s.free.2 else s
  let phase := if reached then off % 129 else if st = 3 then x.phase - 1 else x.phase
  let per := 125000 / max 1 x.ssKhz
  let pos := if x.ssPos + 1 < per then x.ssPos + 1 else 0
  let depth := if pos = 0 then s.fld (F.VRC_SLICE_SS_ss_depth die) else x.ssDepth
  let khz := if pos = 0 then s.fld (F.VRC_SLICE_SS_ss_khz die) else x.ssKhz
  (s.setVslice die { x with
    track := if st = 0 then x.track + 1 else x.track, moved := moved, ppm := ppm, phase := phase
    ssPos := pos, ssDepth := depth, ssKhz := khz }).setFldS
    (F.VRC_SLICE_SYNC_dco_ppm die) (satS 16 (ppm - spreadPpm depth pos per))

/-- One PWM period of a domain: `a` and `b` are the output samples taken in it, `isns` its phases' current codes. -/
def execPwmPeriod (dom : Dom) (adc : Fin 4096 × Fin 4096) (isns : List (Fin 1024)) (now : Ft) (s : State) :
    Host.Outcome State Fault Refusal :=
  s.live fun s =>
    let d := dom.val
    let s := s.advance now
    let s := (s.periodPhases d).periodBoundary d
    let n := (s.phasesOn d).length
    let s := s.periodShed d
    let s := s.periodDe d (decide (n < (s.phasesOn d).length))
    let s := (s.periodDuty d).periodSense d adc.1.val adc.2.val (isns.map (·.val))
    let s := if d < 64 then s.driveLevels d else s
    if d % 16 = 0 ∧ d < 64 then s.periodDco (d / 16) else s

/-! ## Phase limits (R406-R409, R413) -/

/-- The peak comparator truncates the pulse of a phase that is on (R406); the tick's record shows it (Table 09-1). -/
def Block.peakLimit (s : Block) (p : Nat) : Block :=
  let d := domOfPhase p
  match (s.vph p).limit (s.stepOf d) with
  | some x => s.when (s.phState p == 1) fun s =>
    (s.setVdom d { s.vdom d with tIlim := true }).setVph p { x with
      lim := true, acc := 0, ilimRun := if x.lim then x.ilimRun else x.ilimRun + 1 }
  | none => s

def execPeakLimit (phase : Phase) (s : State) : Host.Outcome State Fault Refusal :=
  s.live fun s => s.peakLimit phase.val

/-- The trip comparator cuts a phase that is on (R407). -/
def Block.tripPhase (s : Block) (p : Nat) : Block :=
  s.when (s.phState p == 1) fun s =>
    let x := s.vph p
    let trips := 0 :: x.trips
    let d := domOfPhase p
    let s := s.setVph p { x.cut with trips := trips, wait := 1024 }
    let s := (s.incSat (F.VRC_PH_COUNT_trip_total p)).setFld (F.VRC_PH_STATUS_trips p) (min 4 trips.length)
    let s := s.relayFault (dieOfDom d) 6 0 p
    let s := { s with fc := { s.fc with riskT := s.fc.riskT + 1 } }
    if 4 ≤ trips.length then s.failPhase p else (s.setPhState p 3).showPhases d

def execPhaseTrip (phase : Phase) (s : State) : Host.Outcome State Fault Refusal :=
  s.live fun s => s.tripPhase phase.val

/-- A tripped phase has waited 1,024 periods: on again where a restore wants it, shed otherwise (R407); cut in a
domain that drives nothing. -/
def execTripWaitEnd (phase : Phase) (s : State) : Host.Outcome State Fault Refusal :=
  s.live fun s =>
    let p := phase.val
    let d := domOfPhase p
    let st := s.vstate d
    s.when (s.phState p == 3 && (s.vph p).wait == 0) fun s =>
      let wants := st = Vs.run ∧ ((s.vdom d).wantAdd ∨ !s.flag (F.VRC_DOM_CTRL_shed_en d))
      let s := (s.setPhState p (if wants then 1 else if st = Vs.run ∨ st = Vs.soft ∨ st = Vs.stopping then 2 else 0)).showPhases d
      if wants then s.setFld (F.VRC_DOM_STATUS_de_active d) 0 else s

/-- In diode emulation the zero comparator releases the low side until the next pulse (R413).
Marks: DESIGN CHOICE, log entry 56. -/
def execZeroCross (phase : Phase) (s : State) : Host.Outcome State Fault Refusal :=
  s.live fun s =>
    let p := phase.val
    s.when (s.flag (F.VRC_DOM_STATUS_de_active (domOfPhase p)) && s.phState p == 1 && !(s.vdom (domOfPhase p)).crowbar) fun s =>
      s.setVph p ((s.vph p).zeroAt (s.stepOf (domOfPhase p)))

/-- An iavg above 10 A restores every shed phase; once it has lasted 2^17 periods with every phase on, a record is
sent (R409). -/
def execOverRating (phase : Phase) (s : State) : Host.Outcome State Fault Refusal :=
  s.live fun s =>
    let p := phase.val
    let d := domOfPhase p
    s.when (decide ((160 : Int) < (s.vph p).iAcc.fdiv 131072)) fun s =>
      let s := s.setFld (F.VRC_DOM_STATUS_cont_over_seen d) 1
      let shed := (phasesOf d).filter fun q => s.phState q == 2
      let s := (s.forAll shed fun s q => (s.setPhState q 1).setVph q { s.vph q with acc := 0 }).showPhases d
      let s := if shed.isEmpty then s else s.setFld (F.VRC_DOM_STATUS_de_active d) 0
      if 131072 ≤ (s.vdom d).overRun then
        (s.setVdom d { s.vdom d with overRun := 0, overPh := some p }).relayFault (dieOfDom d) 6 2 p
      else s

/-! ## Start and stop (R415-R421) -/

/-- A domain that is OFF with en = 1 may start: no trip (R422), and no core domain in SCRAPPED (R766). -/
def Block.mayStart (s : Block) (d : Nat) : Bool :=
  s.vstate d == Vs.off && s.flag (F.VRC_DOM_CTRL_en d) && !s.lg.tripped &&
    !(decide (d < 64) && s.fld F.LFC_LC_state == 5)

/-- A domain in OFF with en = 1 measures its output and starts (R415). -/
def execDomainEnable (dom : Dom) (s : State) : Host.Outcome State Fault Refusal :=
  s.on fun s => s.when (s.mayStart dom.val) fun s => s.startDomain dom.val true

/-- The output mean has fallen to the target (R415). -/
def execPrebiasRelease (dom : Dom) (s : State) : Host.Outcome State Fault Refusal :=
  s.live fun s =>
    let d := dom.val
    let m := (s.vdom d).mean16
    s.when (s.vstate d == Vs.prebias && decide (m ≤ 16 * s.targetOf d)) fun s =>
      let s := s.setVdom d { s.vdom d with refQ := m * 256, integ := 0, dfl := 0, ssRun := 0 }
      (s.setFld (F.VRC_DOM_STATUS_state d) Vs.soft).allOn d

/-- The open command of a domain stands at its target (R398). -/
def Block.cmdReached (s : Block) (d : Nat) : Bool :=
  s.fld (F.VRC_DOM_CMD_cur d) == 0 && (s.vdom d).refQ == s.fld (F.VRC_DOM_VID_vid_in_force d) * 4096

/-- ref_q has reached the command's target: REACHED, a frequency raise goes to the PLLs and a margin transition
ends (R354, R374, R398). -/
def execVrcCommandReached (dom : Dom) (s : State) : Host.Outcome State Fault Refusal :=
  s.on fun s =>
    let d := dom.val
    s.when (s.vstate d == Vs.run && s.cmdReached d) fun s =>
      let s := s.setFld (F.VRC_DOM_CMD_cur d) 1
      if d < 64 then (s.raiseReady d).transitionReady d else s

/-- The conditions of a short at the end of a period (R418); a domain that left RUN or SOFTSTART for STOPPING in this very
period is checked as it was (R421). -/
def Block.shorted (s : Block) (d : Nat) : Bool :=
  let v := s.vdom d
  let st := v.stopFrom.getD (s.vstate d)
  let on := s.phasesOn d
  (st == Vs.run || (st == Vs.soft && decide (2500 < v.ssRun))) &&
    decide ((v.adcA + v.adcB) * 5 / 2 * 2 < 16 * (v.refQ / 4096)) &&
    !on.isEmpty && on.all (fun p => (s.vph p).lim) && decide (7 ≤ v.limRun)

/-- A short, or a sense fault as for a short: HICCUP, FAILED, or OFF where en = 0 has been written (R419, R421, R425). -/
def Block.shortEnd (s : Block) (d : Nat) : Block :=
  if !s.flag (F.VRC_DOM_CTRL_en d) then s.enterOff d else s.enterHiccup d

/-- A short: phases cut, then HICCUP, FAILED, or OFF where en = 0 has been written (R419, R421). -/
def execShortDetected (dom : Dom) (s : State) : Host.Outcome State Fault Refusal :=
  s.live fun s =>
    let d := dom.val
    s.when (s.shorted d) fun s =>
      let s := s.setFld (F.VRC_DOM_STATUS_short_seen d) 1
      let s := s.setVdom d { s.vdom d with shortNow := true }
      (s.relayFault (dieOfDom d) 7 0 d).shortEnd d

/-- HICCUP has lasted 125,000 periods: the domain starts again (R419). -/
def execHiccupEnd (dom : Dom) (s : State) : Host.Outcome State Fault Refusal :=
  s.live fun s =>
    let d := dom.val
    s.when (s.vstate d == Vs.hiccup && (s.vdom d).hiccup == 0) fun s => s.startDomain d false

/-- 125,000 consecutive periods in RUN clear retries (R419). -/
def execRetryReset (dom : Dom) (s : State) : Host.Outcome State Fault Refusal :=
  s.live fun s =>
    let d := dom.val
    s.when (s.vstate d == Vs.run && decide (125000 ≤ (s.vdom d).runRun)) fun s =>
      s.setFld (F.VRC_DOM_STATUS_retries d) 0

/-- fail_clr takes a FAILED domain to OFF (R420). A command of the Hub reaches a slice whose link carries flits (R74). -/
def Block.failClr (s : Block) (d : Nat) : Block :=
  s.when (s.vstate d == Vs.failed) fun s => (s.enterOff d).relayFault (dieOfDom d) 7 1 d true

def execFailClr (dom : Dom) (s : State) : Host.Outcome State Fault Refusal :=
  s.on fun s => s.when (s.linkUp (dieOfDom dom.val)) fun s => s.failClr dom.val

/-- A write of en = 0 (R421); it aborts the re-admissions of the domain's tiles (R532). -/
def Block.cmdDisable (s : Block) (d : Nat) : Block :=
  let s := if d < 64 then s.forAll (tilesOf d) fun s t => s.dropReadmit t 1 3 else s
  s.disableDomain d

def execDomainDisable (dom : Dom) (s : State) : Host.Outcome State Fault Refusal :=
  s.on fun s => s.when (s.linkUp (dieOfDom dom.val)) fun s => s.cmdDisable dom.val

/-- STOPPING ends at 100 mV (R421). -/
def execStopComplete (dom : Dom) (s : State) : Host.Outcome State Fault Refusal :=
  s.live fun s =>
    let d := dom.val
    s.when (s.vstate d == Vs.stopping && decide ((s.vdom d).refQ ≤ 100 * 4096)) fun s => s.enterOff d

/-! ## Protection (R423-R425) -/

/-- Four samples above ovp_mv (R423). -/
def execOvervoltage (dom : Dom) (s : State) : Host.Outcome State Fault Refusal :=
  s.live fun s =>
    let d := dom.val
    let v := s.vdom d
    s.when (decide (4 ≤ v.ovpRun) && s.vstate d != Vs.off && !v.crowbar) fun s =>
      let ages := 0 :: v.ovpAges
      let s := s.setVdom d { v with crowbar := true, ovpAges := ages, ovpRun := 0 }
      let s := (s.setFld (F.VRC_DOM_STATUS_ovp_seen d) 1).relayFault (dieOfDom d) 7 2 d
      if 4 ≤ ages.length then s.enterFailed d else s

/-- The mean of a period has fallen below the target in force (R423). -/
def execOvervoltageRelease (dom : Dom) (s : State) : Host.Outcome State Fault Refusal :=
  s.live fun s =>
    let d := dom.val
    let v := s.vdom d
    s.when (v.crowbar && decide ((v.adcA + v.adcB) * 5 / 2 < 16 * s.fld (F.VRC_DOM_VID_vid_in_force d))) fun s =>
      let s := s.setVdom d { v with crowbar := false, integ := 0 }
      s.forAll ((s.phasesAvail d).filter fun p => s.phState p != 1) fun s p => s.setVph p (s.vph p).cut

/-- 64 still periods and 64 below the level; a short of the same period suppresses the record (R424). -/
def execUndervoltage (dom : Dom) (s : State) : Host.Outcome State Fault Refusal :=
  s.live fun s =>
    let d := dom.val
    let v := s.vdom d
    let short := v.shortNow || s.shorted d
    s.when ((s.vstate d == Vs.run || v.shortNow) && decide (64 ≤ v.uvpRun) && decide (64 ≤ v.stillRun) &&
        s.flag (F.VRC_DOM_CTRL_uvp_en d)) fun s =>
      let s := (s.setVdom d { v with uvpRun := 0 }).setFld (F.VRC_DOM_STATUS_uvp_seen d) 1
      if short then s else s.relayFault (dieOfDom d) 7 3 d

/-- A converter stuck at a rail code (R425): the output ADC of a domain, or the ADC of one of its phases. -/
def execSenseFault (dom : Dom) (phase : Option Phase) (s : State) : Host.Outcome State Fault Refusal :=
  s.live fun s =>
    match phase with
    | none =>
      let d := dom.val
      s.when (decide (64 ≤ (s.vdom d).stuckRun) && (s.vstate d == Vs.soft || s.vstate d == Vs.run)) fun s =>
        let s := s.setFld (F.VRC_DOM_STATUS_sense_seen d) 1
        let s := s.setVdom d { s.vdom d with bad := true, stuckRun := 0 }
        s.injecting ((s.stim 3 d).any (·.1 == 1)) fun s => (s.relayFault (dieOfDom d) 7 4 d).shortEnd d
    | some ph =>
      let p := ph.val
      let d := domOfPhase p
      s.when (decide (64 ≤ (s.vph p).stuckRun) && s.phState p == 1) fun s =>
        let s := s.setFld (F.VRC_DOM_STATUS_sense_seen d) 1
        s.injecting ((s.stim 3 p).any (·.1 == 0)) fun s => (s.relayFault (dieOfDom d) 6 3 p).failPhase p

/-! ## Coefficients, phases, timebase (R401, R427-R429, R437) -/

/-- coef_commit: the shadow fields transfer at the first period boundary after the write (R48, R401). -/
def Block.coefCommit (s : Block) (d : Nat) : Block :=
  s.setVdom d { s.vdom d with commitAt := some ((s.vdom d).commitAt.getD s.edge) }

def execCoefCommit (dom : Dom) (s : State) : Host.Outcome State Fault Refusal :=
  s.on fun s => s.when (s.linkUp (dieOfDom dom.val)) fun s => s.coefCommit dom.val

/-- restore returns a FAILED phase to shed with its trip count cleared (R437). -/
def Block.phaseRestore (s : Block) (p : Nat) : Block :=
  let d := domOfPhase p
  s.when (s.phState p == 4) fun s =>
    let s := (s.setPhState p 2).setVph p { s.vph p with trips := [], acc := 0 }
    let s := (s.setFld (F.VRC_PH_STATUS_trips p) 0).relayFault (dieOfDom d) 6 1 p true
    s.showPhases d

def execPhaseRestore (phase : Phase) (s : State) : Host.Outcome State Fault Refusal :=
  s.on fun s => s.when (s.linkUp (dieOfDom (domOfPhase phase.val))) fun s => s.phaseRestore phase.val

/-- disable holds a phase out of use without a fault; its clearing returns it to shed, or cut (R437). -/
def Block.phaseDisable (s : Block) (p : Nat) (on : Bool) : Block :=
  let d := domOfPhase p
  let st := s.vstate d
  let drives := st = Vs.run ∨ st = Vs.soft ∨ st = Vs.stopping
  let s := if on then (s.setPhState p 5).setVph p (s.vph p).cut
    else if s.phState p = 5 then s.setPhState p (if drives then 2 else 0) else s
  let s := s.showPhases d
  if (s.phasesAvail d).isEmpty ∧ (st = Vs.soft ∨ st = Vs.run) then s.enterFailed d else s

/-- A change of sync_state is counted and sent as source 8.0 (R426); a move starts from the present frequency (R428). -/
def Block.setSync (s : Block) (die st : Nat) : Block :=
  if s.fld (F.VRC_SLICE_SYNC_sync_state die) = st then s
  else
    let x := s.vslice die
    let s := if st = 1 ∨ st = 3 then s.setVslice die { x with moveFrom := x.ppm, moved := 0 } else s
    ((s.setFld (F.VRC_SLICE_SYNC_sync_state die) st).incSat (F.VRC_SLICE_STATUS_sync_changes die)).relayFault
    die 8 0 die

/-- The forwarded root is lost, or its source is no longer source 0 (R427). -/
def Block.syncRelease (s : Block) (die : Nat) : Block :=
  let st := s.fld (F.VRC_SLICE_SYNC_sync_state die)
  let s := s.setVslice die { s.vslice die with root := false }
  if st = 0 ∨ st = 3 then s.setSync die 1 else s

def execSyncRelease (die : Die) (s : State) : Host.Outcome State Fault Refusal := s.on fun s => s.syncRelease die.val

/-- The DCO's own frequency as it has drifted to `ppm` since the trim: within 0.2% of it, and within 0.5% (R427, R429). -/
def VrcSlice.drift (x : VrcSlice) (ppm : Int) : Int := clampI (-5000) 5000 (clampI (x.own - 2000) (x.own + 2000) ppm)

/-- A move of at least 256 PWM periods ends: RELEASE in OWN at the own frequency as it stands, at most 0.1% from where the
move has come, RELOCK in TRACK once the phases are aligned within 1 fine step (R428).
Marks: DESIGN CHOICE, log entry 128. -/
def execSyncMoveComplete (die : Die) (ppm : Int) (s : State) : Host.Outcome State Fault Refusal :=
  s.on fun s =>
    let i := die.val
    let st := s.fld (F.VRC_SLICE_SYNC_sync_state i)
    let x := s.vslice i
    s.when (decide (256 ≤ x.moved)) fun s =>
      if st = 1 then (s.setVslice i { x with ppm := clampI (x.ppm - 1000) (x.ppm + 1000) (x.drift ppm) }).setSync i 2
      else if st = 3 ∧ x.phase ≤ 1 ∧ s.flag (F.VRC_SLICE_SYNC_track_en i) then (s.setVslice i { x with ppm := clampI (-50) 50 ppm }).setSync i 0
      else s

/-- The root is back on source 0, the CTU is LOCKED and track_en is 1: a DCO in OWN enters RELOCK (R427). -/
def execSyncRelock (die : Die) (s : State) : Host.Outcome State Fault Refusal :=
  s.on fun s =>
    let i := die.val
    s.when (s.fld F.CTU_CLK_STATUS_root_src == 0 && s.timeState == 1 && s.flag (F.VRC_SLICE_SYNC_track_en i) &&
        s.fld (F.VRC_SLICE_SYNC_sync_state i) == 2) fun s =>
      (s.setVslice i { s.vslice i with root := true }).setSync i 3

/-- 2^20 periods in TRACK since the last trim: the own frequency is trimmed to the root's (R429).
Marks: DESIGN CHOICE, log entry 128. -/
def execDcoTrim (die : Die) (s : State) : Host.Outcome State Fault Refusal :=
  s.on fun s =>
    let x := s.vslice die.val
    s.when (decide (1048576 ≤ x.track)) fun s => s.setVslice die.val { x with track := 0, own := x.ppm }

/-! ## Once per tick (R394, R436) -/

/-- Form the measurement record of a domain at the end of a tick; it waits for its place on the link, with those of the
16 ticks a link may train.
Marks: DESIGN CHOICE, log entry 56; DEDUCED, log entry 122. -/
def Block.formMeas (s : Block) (d tick : Nat) : Block :=
  let v := s.vdom d
  let n := max 1 v.nPer
  let v16 := v.vSum / n
  let i16 := (max 0 (v.iSum.fdiv n)).toNat
  let m : Meas := ⟨tick, satU 16 v16, satU 16 i16, (s.phasesOn d).length, s.vstate d,
    v.tRun && s.vstate d == Vs.run && !v.bad && decide (0 < v.nPer), v.tIlim, v.tDe, v.tSlew⟩
  let s := s.setVdom d { v with
    out := (v.out.drop (v.out.length - 15)) ++ [m], nPer := 0, vSum := 0, iSum := 0, tIlim := false, tDe := false, tSlew := false, tRun := s.vstate d == Vs.run }
  let s := (s.setSat (F.VRC_DOM_MEAS_i_out d) i16).setSat (F.VRC_DOM_MEAS_v_out d) (v16 / 16)
  s.forAll (phasesOf d) fun s p =>
    let n := min 128 (s.vph p).ilimRun
    ((s.cntDom d 3 n).setFld (F.VRC_PH_COUNT_ilim_tick p) n).setVph p { s.vph p with ilimRun := 0 }

end Sys2Proof.Machine
end

