-- ==== Sys2Proof/Machine/Link.lean ====
section
/-! DEFINITION. The die-to-die sideband links (01_architecture.md R63-R75). -/
namespace Sys2Proof.Machine
open Sys2Proof

/-- The link carries no flits while it trains (R73). `lost`: it trains on 4 lanes, else on 8. lanes_up keeps the lanes
the link had until the training ends, and the Relay the ceiling it had.
Marks: DESIGN CHOICE, log entry 115. -/
def Block.startTraining (s : Block) (d : Nat) (lost : Bool) : Block :=
  let q := s.relay d
  let s := s.setRelay d { q with ceilHeld := some (q.ceilHeld.getD (s.fld (F.LFC_CEIL_value 1))) }
  (s.setLink d { s.link d with state := .training, ticks := 0, lost := lost }).setFld (F.HUB_SB_STATUS_link_up d) 0

/-- A lane is lost: the link retrains on 4 lanes. -/
def execSidebandLaneLoss (die : Die) (s : State) : Host.Outcome State Fault Refusal :=
  s.on fun s => s.when ((s.link die.val).state == .up) fun s => s.startTraining die.val true

/-- Insert an entry before the first of a greater tile. -/
def insertFifo (e : FifoE) : List FifoE → List FifoE
  | [] => [e]
  | x :: xs => if e.tile < x.tile then e :: x :: xs else x :: insertFifo e xs

/-- The merged entries leave in tile order (R148). -/
def sortFifo (l : List FifoE) : List FifoE := l.foldl (fun acc e => insertFifo e acc) []

/-- The setpoint of R735 of a die's array domain, which goes to its slice while the link carries it (R74, R76).
Marks: DESIGN CHOICE, log entry 9. -/
def Block.applyRet (s : Block) (d : Nat) : Block :=
  if (s.vslice d).ret == s.power.ret then s
  else match s.forward d 6 (64 + d) (b2n s.power.ret) with
    | some s => (s.setVslice d { s.vslice d with ret := s.power.ret }).vrcCause (64 + d) 0 (s.domRate (64 + d))
    | none => s

/-- What Deep commands of a die's regulators, while its link carries it: the core domains stop, and the array domain runs
at arr_ret_mv (R74, R735). -/
def Block.applyDeep (s : Block) (d : Nat) : Block :=
  let l := ((List.range 16).map (16 * d + ·)).filter fun n => s.flag (F.VRC_DOM_CTRL_en n)
  let s := if s.power.phase = .deep ∧ s.linkUp d then s.forAll l Block.cmdDisable else s
  s.applyRet d

/-- A link in training takes 8 lanes, unless it trains on 4; a link that is down trains whenever it can, on either. -/
def LinkS.takes (l : LinkS) (lanes8 : Bool) : Bool :=
  match l.state with
  | .down => true
  | .training => !(l.lost && lanes8)
  | .up => false

/-- Training succeeds. Both ends hold full credits, and the input-sense records held meanwhile go, one a tick (R67, R69,
R73).
Marks: DEDUCED, log entry 107. -/
def execLinkRetrainComplete (die : Die) (lanes8 : Bool) (s : State) : Host.Outcome State Fault Refusal :=
  s.on fun s =>
    let d := die.val
    let l := s.link d
    s.when (l.takes lanes8) fun s =>
      let was := s.fld (F.HUB_SB_STATUS_lanes_up d)
      let n := if lanes8 then 8 else 4
      let s := s.setLink d { l with state := .up, ticks := 0, lost := false, up := l.up.trained, down := l.down.trained }
      let s := (s.setFld (F.HUB_SB_STATUS_lanes_up d) n).setFld (F.HUB_SB_STATUS_link_up d) 1
      let s := if n < was then s.setFld (F.HUB_SB_STATUS_degraded_seen d) 1 else s
      let s := s.cntDie d 1
      let s := (s.follow 11 0 d (!lanes8)).unraise 11 1 d
      let q := s.relay d
      let s := s.setRelay d { q with
        ceilHeld := none, merging := false, fifo := if q.merging then sortFifo q.fifo else q.fifo }
      let s := s.flushInput d
      (s.forAll ((List.range 16).map (16 * d + ·)) Block.applyFreq).applyDeep d

/-- The input figures of a die as they stand when its link goes down: those of a tick that the LG has not evaluated yet
join the history (R74).
Marks: DEDUCED, log entry 37. -/
def Block.lastInputs (s : Block) (d : Nat) : Block :=
  let k := s.tick - 1
  let s := if s.lg.evalTick = some (k - 1) then s else s.keepInput d (k - 1)
  if (s.lg.recs.getD d none).any fun r => r.tick == k then s.keepInput d k else s

/-- The link is down: the Relay merges its Sheafs, those in the hops with them, and its domains go to Static (R74, R148,
R373). -/
def Block.goDown (s : Block) (d : Nat) : Block :=
  let s := s.lastInputs d
  let s := s.setLink d { s.link d with state := .down, ticks := 0, lost := false }
  let s := (s.setFld (F.HUB_SB_STATUS_lanes_up d) 0).setFld (F.HUB_SB_STATUS_link_up d) 0
  let s := s.setFld (F.HUB_SB_STATUS_degraded_seen d) 1
  let s := (s.unraise 11 0 d).raise 11 1 d
  let q := s.relay d
  let s := s.setRelay d { q with merging := true, fifo := q.fifo.foldl fifoMerge [], inHeld := [] }
  let s := s.unpark d q.parked.length
  s.forAll ((List.range 16).map (16 * d + ·)) fun s n => s.marginExit n 5 true false

/-- Fewer than 4 lanes are left or pass their training, or the link stays untrained for another reason for more than 16
ticks (R74).
Marks: DEDUCED, log entry 107. -/
def execLinkDown (die : Die) (s : State) : Host.Outcome State Fault Refusal :=
  s.on fun s => s.when ((s.link die.val).state != .down) fun s => s.goDown die.val

/-- A group fails its CRC-32: discarded and replayed (R68). `up`: the Hub received it. -/
def execSidebandCrcMismatch (die : Die) (up : Bool) (now : Ft) (s : State) : Host.Outcome State Fault Refusal :=
  s.on fun s =>
    let s := s.advance now
    let d := die.val
    s.when ((s.link d).state == .up) fun s =>
      let s := (s.setLink d { s.link d with replays := min 255 ((s.link d).replays + 1) }).cntDie d 0
      if up then s.raise 11 3 d else s.relayFault d 11 3 d

/-! ## Once per tick and once per epoch -/

/-- A tick of training or downtime. A training on 4 lanes that has not ended within 4 ticks leaves the link down, and one
on 8 lanes goes on on 4 (R73, R74). The bounds of the Relay's upward traffic begin afresh (R69), and so do those of its
chains (R143).
Marks: DESIGN CHOICE, log entry 9; DEDUCED, log entry 107. -/
def Block.linkTick (s : Block) (d : Nat) : Block :=
  let l := s.link d
  let s := s.setLink d { l with
    ticks := if l.state = .up then 0 else min 255 (l.ticks + 1), faultsSent := 0, glintsSent := 0, inputSent := false
    up := { l.up with sent := [0, 0, 0, 0] }, down := { l.down with sent := [0, 0, 0, 0] } }
  let s := s.forAll ((List.range 16).map (16 * d + ·)) fun s n => s.setWire n { s.wire n with up := 0, down := 0 }
  let s := (if l.state = .down then s.cntDie d 2 else s).flushInput d
  if l.state = .training ∧ 4 ≤ l.ticks + 1 then
    if l.lost then s.goDown d else s.setLink d { s.link d with ticks := 0, lost := true }
  else s

/-- An epoch: the replay count, and a degraded link whose unused lanes pass their test retrains (R68, R73). -/
def Block.linkEpoch (s : Block) (d : Nat) (pass : Bool) : Block :=
  let s := s.setFld (F.HUB_SB_STATUS_replay_epoch d) (s.link d).replays
  let s := s.setLink d { s.link d with replays := 0 }
  if pass ∧ (s.link d).state = .up ∧ s.fld (F.HUB_SB_STATUS_lanes_up d) = 4 then s.startTraining d false else s

end Sys2Proof.Machine
end

