-- ==== Sys2Proof/Machine/TtuOps.lean ====
section
/-! DEFINITION. Operations of the TTU: command trace, digest entries and the sums of telemetry intervals
(16_telemetry_trace_debug.md). -/
namespace Sys2Proof.Machine
open Sys2Proof

def Block.traceT (s : Block) (t : Nat) : TraceT := Tab.get (fun _ => TraceT.reset) s.ttu.trace t
def Block.setTraceT (s : Block) (t : Nat) (x : TraceT) : Block :=
  { s with ttu := { s.ttu with trace := Tab.set (fun _ => TraceT.reset) s.ttu.trace t x } }
def Block.telS (s : Block) (r : Nat) : TelS := Tab.get (fun _ => TelS.reset) s.ttu.tel r
def Block.setTelS (s : Block) (r : Nat) (x : TelS) : Block :=
  { s with ttu := { s.ttu with tel := Tab.set (fun _ => TelS.reset) s.ttu.tel r x } }

/-! ## Command trace (R669-R674) -/

/-- The three flits of a boundary record, by type (Table 16-9). -/
def TraceRec.flits (r : TraceRec) : List (Nat × DWord) := [
  (1, BitVec.ofNat 64 (packBits [(54, 10, r.tile), (28, 26, r.ft.toNat), (22, 6, r.endCtx), (16, 6, r.ctx), (0, 16, r.endTag)])),
  (2, BitVec.ofNat 64 (packBits [(48, 16, r.tag), (36, 12, r.cls), (35, 1, b2n r.dflt), (34, 1, b2n r.eMerged),
    (26, 8, satU 8 r.postLost), (0, 16, r.seq)])),
  (3, BitVec.ofNat 64 r.eacc)]

/-- A boundary record as the TTU takes it from its bodies, the stamp expanded against its own FT (R102). -/
def traceOf (own : Nat) (l : List DWord) : TraceRec :=
  let a := (l.getD 0 0).toNat
  let b := (l.getD 1 0).toNat
  { tile := getBits a 54 10, ft := BitVec.ofNat 64 (expandStamp 26 own (getBits a 28 26)), endCtx := getBits a 22 6
    endTag := getBits a 0 16, ctx := getBits a 16 6, tag := getBits b 48 16, cls := getBits b 36 12, dflt := bit b 35
    eMerged := bit b 34, postLost := getBits b 26 8, seq := getBits b 0 16, eacc := (l.getD 2 0).toNat }

/-- A digest record as the TTU takes it from its bodies. -/
def digestOf (own : Nat) (l : List DWord) : DigestRec :=
  let a := (l.getD 0 0).toNat
  let b := (l.getD 1 0).toNat
  { tile := getBits a 54 10, ft := BitVec.ofNat 64 (expandStamp 26 own (getBits a 28 26)), ctx := getBits a 22 6
    tag := getBits a 6 16, seq := getBits b 48 16
    cfg := packBits [(0, 6, getBits b 42 6), (6, 10, getBits b 32 10), (16, 8, getBits b 24 8)]
    hist := (List.range 32).map fun i => getBits (l.getD (2 + i / 4) 0).toNat (16 * (i % 4)) 16 }

/-- The oldest trace record of a Post reaches its Relay on PN4 (R669, R670), after the digest records registered before it
(R103). -/
def Block.postTrace (s : Block) (t : Nat) : Block :=
  match (s.post t).trace with
  | [] => s
  | r :: rest =>
    if !s.pnClear t 4 || (s.post t).digs.any (fun x => decide (x.ft ≤ r.ft)) then s.sendDigs t
    else match s.upFlits t 4 r.flits with
      | some s =>
        let s := s.setPost t { s.post t with trace := rest }
        (if s.flag F.TTU_CTRL_trace_fwd && !s.hopDrops t then s.relayTrace (dieOfTile t) (.boundary r) 3 else s).sendDigs t
      | none => s

/-- The class table that was active at an FT: the other bank's before the last swap (R674).
Marks: DEDUCED, log entry 103. -/
def Block.classBankAt (s : Block) (ft : Nat) : ClassBank :=
  if s.silo.swapped ≤ ft then s.classBank
  else if s.fld F.SILO_STATUS_table_bank = 0 then s.silo.bankB else s.silo.bankA

/-- A boundary record reaches the TTU (R671). -/
def Block.traceArrive (s : Block) (r : TraceRec) : Block :=
  let x := s.traceT r.tile
  let lost := match x.last with
    | some l => decide (r.seq ≠ (l.seq + 1) % 65536)
    | none => true
  let e := Tab.get (fun _ => ClassE.reset) (s.classBankAt r.ft.toNat).entries r.cls
  let b : TraceB := ⟨r, lost, if r.dflt then 0 else e.dur⟩
  s.setTraceT r.tile { x with last := some r, waiting := x.waiting ++ [b] }

/-- The staging area takes another entry of the trace ring (R659). -/
def Block.traceRoom (s : Block) : Bool :=
  decide ((s.ttu.queue.filter fun x => x.ring == 133).length < 16384)

/-- An entry of a tile's command trace, with the count its Relay lost, which the next entry of that die reports (R670). -/
def Block.stageTrace (s : Block) (tile : Nat) (e : Nat → Entry) : Block :=
  let die := dieOfTile tile
  let n := satU 8 (s.ttu.relayLost.getD die 0)
  let s' := s.stage (e n)
  if s.ringOn 133 && s.traceRoom then { s' with ttu := { s'.ttu with relayLost := s'.ttu.relayLost.set die 0 } } else s'

/-- The END entry of the command a boundary ends (R673, R674). A begin_lost entry has no class the TTU knows.
Marks: DEDUCED, log entry 103. -/
def Block.endEntry (s : Block) (x : TraceT) (b : TraceB) (scale : Nat) : Block :=
  let r := b.r
  if r.endCtx = 0 then s
  else match (if b.beginLost then none else x.cur) with
    | none =>
      let f := s.free
      let flags := packBits [(0, 1, 1), (1, 1, b2n r.eMerged), (3, 1, getBits f.1.toNat 0 1)]
      f.2.stageTrace r.tile fun n => ⟨133, 0x20, 0, 0, 1, r.ft, u16 r.tile ++ u8 r.endCtx ++ u8 flags ++ u16 r.endTag ++
        u16 (getBits f.1.toNat 8 12) ++ u64 0 ++ u32 0 ++ u32 0 ++ u32 0 ++ u16 (getBits f.1.toNat 20 16) ++
        u8 r.postLost ++ u8 n ++ u16 r.seq⟩
    | some c =>
      let lin := (r.eacc + 2 ^ 64 - c.r.eacc) % 2 ^ 64
      let attr := (((16 * lin * scale / 16384 : Nat) : Int) + x.acc).fdiv 16
      let dur := r.ft.toNat - c.r.ft.toNat
      let excess := !c.r.dflt && decide (s.fld F.TTU_CTRL_dur_mult * 8 * c.clsDur < dur)
      let flags := packBits [(1, 1, b2n (r.eMerged || c.r.eMerged)), (2, 1, b2n excess), (3, 1, b2n c.r.dflt)]
      s.stageTrace r.tile fun n => ⟨133, 0x20, 0, 0, 1, r.ft, u16 r.tile ++ u8 r.endCtx ++ u8 flags ++ u16 r.endTag ++ u16 c.r.cls ++
        u64 c.r.ft.toNat ++ u32 (satU 32 lin) ++ u32 (satU 32 attr.toNat) ++ u32 (satU 32 dur) ++
        u16 (satU 16 c.clsDur) ++ u8 r.postLost ++ u8 n ++ u16 r.seq⟩

/-- The BEGIN entry of the command a boundary begins. -/
def Block.beginEntry (s : Block) (b : TraceB) : Block :=
  let r := b.r
  if r.ctx = 0 then s
  else s.stageTrace r.tile fun n => ⟨133, 0x21, 0, 0, 1, r.ft, u16 r.tile ++ u8 r.ctx ++ u8 (b2n r.dflt) ++ u16 r.tag ++ u16 r.cls ++
    u64 r.eacc ++ u16 r.seq ++ u8 r.postLost ++ u8 n⟩

/-- Add the term of a tick up to `to_` (R672). -/
def TraceT.addTerm (x : TraceT) (term : Int) (start to_ : Nat) : TraceT :=
  match x.cur with
  | some c =>
    let from_ := max start c.r.ft.toNat
    { x with acc := x.acc + (term * ((to_ - from_ : Nat) : Int)).fdiv 1024 }
  | none => x

/-- The boundaries of a tile that lie in the ticks published so far (R672). A command whose BEGIN entry finds no room is not
kept (R671).
Marks: DEDUCED, log entry 103. -/
def Block.traceTile (s : Block) (k t : Nat) (term : Int) : Block :=
  let x := s.traceT t
  let now_ := x.waiting.filter fun b => decide (b.r.ft.toNat / 1024 ≤ k)
  let later := x.waiting.filter fun b => !decide (b.r.ft.toNat / 1024 ≤ k)
  let s := s.setTraceT t { x with waiting := later }
  let s := s.forAll now_ fun s b =>
    let x := (s.traceT t).addTerm term (k * 1024) b.r.ft.toNat
    let s := s.endEntry x b (s.ttu.scaleAt (b.r.ft.toNat / 1024) (domOfTile t))
    let kept := b.r.ctx == 0 || !s.ringOn 133 || s.traceRoom
    (s.beginEntry b).setTraceT t { x with cur := if kept then some b else none, acc := 0 }
  s.setTraceT t ((s.traceT t).addTerm term (k * 1024) ((k + 1) * 1024))

/-- The command trace at a publication (R672). -/
def Block.traceTick (s : Block) (k : Nat) (r : EaRes) : Block :=
  s.forAll (s.ttu.trace.map (·.1)) fun s t =>
    let d := r.doms.getD (domOfTile t) ⟨0, 0, 0, [], [], [], [], 0, false, none⟩
    let term : Int := ((d.leaks.getD (t % 16) 0 : Nat) : Int) + d.share.getD (t % 16) 0
    s.traceTile k t term

/-- A digest record becomes two entries (R676). -/
def Block.digestEntries (s : Block) (r : DigestRec) : Block :=
  s.forAll [0, 1] fun s ch =>
    let c := r.cfg
    let (stream, width, fz, shift) := if ch = 0 then (getBits c 0 3, getBits c 3 2, getBits c 5 1, 4)
      else (getBits c 12 3, getBits c 10 2, getBits c 9 1, getBits c 6 3)
    let bins := (r.hist.drop (16 * ch)).take 16
    s.stage ⟨133, 0x22, ch, ch, 2, r.ft, u16 r.tile ++ u8 r.ctx ++ u8 stream ++ u16 r.tag ++ u16 r.seq ++
      u8 (elemBits width) ++ u8 fz ++ u8 shift ++ u8 (getBits c 16 8) ++ u16 0 ++ bins.flatMap u16⟩

/-! ## Telemetry sums (R663-R665) -/

/-- Add to a sum, and raise a maximum. -/
def TelS.add (x : TelS) (k n : Nat) : TelS := { x with sums := bump x.sums k n }
def TelS.sum (x : TelS) (k : Nat) : Nat := Tab.get zeroN x.sums k
def TelS.max' (x : TelS) (k : Nat) (v : Int) : TelS :=
  let m := match Tab.get (fun _ => none) x.maxs k with | some o => max o v | none => v
  { x with maxs := Tab.set (fun _ => none) x.maxs k (some m) }
def TelS.top (x : TelS) (k : Nat) : Option Int := Tab.get (fun _ => none) x.maxs k

/-- Keys of the sums and maxima. -/
def telKey (kind i : Nat) : Nat := 2048 * kind + i

/-- The figures of one tick enter the sums of one ring. -/
def Block.telTick (s : Block) (r k : Nat) (e : EaRes) : Block :=
  let x := s.telS r
  if x.mask = 0 then s
  else
    let ctx := ((s.ea.caps.find? (·.tick == k)).map (·.ctx)).getD []
    let seen := ((s.ttu.ends.find? (·.1 == k)).map (·.2)).getD ([], [])
    let x := { x with n := x.n + 1 }
    let x := match s.ttu.figs.find? (·.tick == k) with
      | some f =>
        let x := ((x.add (telKey 0 0) f.p).add (telKey 0 1) f.stack).add (telKey 0 2) (if 2 ≤ f.level then 1 else 0)
        ((x.max' (telKey 0 0) f.p).max' (telKey 0 1) f.i).max' (telKey 0 2) f.level
      | none => x
    let x := e.doms.zipIdx.foldl (fun (x : TelS) p =>
      let d := p.2
      let m := (p.1.meas.getD p.1.e16)
      let x := (x.add (telKey 1 d) (mwOf m)).add (telKey 2 d) (mwOf p.1.e16)
      let x := match Tab.get (fun _ => none) s.ea.meas d with
        | some (m : Meas) => if m.tick = k ∧ m.valid then
            ((x.add (telKey 3 d) (m.v16 / 16)).add (telKey 4 d) m.i16).add (telKey 5 d) 1 else x
        | none => x
      let lvl : Nat := seen.1.getD d 0
      let x := (x.max' (telKey 3 d) lvl).max' (telKey 4 d) p.1.quality
      p.1.a16.zipIdx.foldl (fun (x : TelS) q =>
        let t := 16 * d + q.2
        let x := (x.add (telKey 6 t) (mwOf (max 0 q.1).toNat)).add (telKey 11 (Tab.get zeroN ctx t)) (ofSigned 64 q.1)
        match s.eaRx k t with
        | some w =>
          let x := ((x.add (telKey 7 t) (Sh.active w)).add (telKey 8 t) (Sh.stretch w)).add (telKey 9 t) 1
          let x := (x.add (telKey 12 t) (Sh.glints w)).add (telKey 13 d) (Sh.glints w)
          if Sh.tBad w || (s.tile t).suspect then x else x.max' (telKey 9 t) (Sh.temp w)
        | none => x) x) x
    let x := ((List.range 63).map (· + 1)).foldl (fun (x : TelS) c =>
      x.add (telKey 10 c) (seen.2.getD c 0)) x
    let x := (List.range 4).foldl (fun (x : TelS) d =>
      (s.bmemHub d).foldl (fun (x : TelS) v => x.max' (telKey 5 d) v) x) x
    s.setTelS r x

/-- What an interval reports as it stands at its end: the faults counted, margin modes, phases, calibration, contexts, the
risk score and its inputs, forecasts, inlet, cooling and stacks. -/
def Block.telNow (s : Block) : Tab Nat :=
  let put (kind n : Nat) (g : Nat → Nat) (t : Tab Nat) : Tab Nat :=
    (List.range n).foldl (fun t i => Tab.set zeroN t (telKey kind i) (g i)) t
  let t := put 0 208 (fun i => Tab.get zeroN s.fc.counts i) []
  let t := put 1 64 (fun d => s.fld (F.LG_MARGIN_MODE_mode d)) t
  let t := put 2 72 (fun d => s.fld (F.VRC_DOM_STATUS_phases_on d)) t
  let t := put 3 72 (fun d => s.fld (F.WCE_DOM_CONF_conf d)) t
  let t := put 4 72 (fun d => s.fld (F.WCE_DOM_CONF_outcome d)) t
  let t := put 5 64 (fun c => s.fld (F.SILO_CTX_CFG_state c)) t
  let t := put 6 64 (fun c => s.fld (F.SILO_CTX_SHARE_share_mw c)) t
  let t := put 7 6 (fun i => s.fc.riskIn.getD i 0) t
  let t := put 8 24 (fun k => s.fld (F.SSU_STK_temp k)) t
  let t := put 9 4 (fun h => s.fld (F.TME_FC_MARGIN_m h)) t
  put 10 6 (fun i => [s.fld F.FC_RISK_score, s.fc.riskSeen, s.fld F.TME_AMB_t_amb, s.fld F.TME_COOL_cool_req,
    s.fld F.TME_COOL_demand_pct, s.fld F.TME_COOL_source].getD i 0) t

/-- A difference of an interval. -/
def telDiff (now base : Tab Nat) (k : Nat) : Nat :=
  (Tab.get zeroN now k + 2 ^ 64 - Tab.get zeroN base k) % 2 ^ 64

/-- Begin the sums of an interval from the counters at its begin. -/
def TelS.start (x : TelS) (base : Tab Nat) : TelS := { x with n := 0, sums := [], maxs := [], base := base, atEnd := none }

/-- A ring's interval ends at tick `k`: its figures at the end are taken (R664). -/
def Block.telCapture (s : Block) (k : Nat) : Block :=
  s.forAll (List.range 4) fun s r =>
    let x := s.telS r
    if x.mask ≠ 0 ∧ k % max 1 x.int = 0 then s.setTelS r { x with atEnd := some (k, s.telNow) } else s

/-- What the levels and the busy tiles were in the tick that ended (R664). -/
def Block.telTickEnds (s : Block) (k : Nat) : Block :=
  if (List.range 4).any fun r => (s.telS r).mask ≠ 0 ∨ (s.telS r).next.isSome then
    { s with ttu := { s.ttu with ends := (k, (List.range 64).map (fun d => s.fld (F.LG_DOM_STATE_level d)),
      (List.range 64).map fun c => s.fld (F.SILO_CTX_STAT_busy_tiles c)) :: s.ttu.ends.take 7 } }
  else s

/-- The settings of the telemetry rings take effect at an epoch boundary; an interval that ends there is still the old
setting's (R663). -/
def Block.telEpoch (s : Block) : Block :=
  s.forAll (List.range 4) fun s r =>
    let x := s.telS r
    let m := s.fld (F.TTU_TELEM_MASK_mask r)
    let i := s.fld (F.TTU_TELEM_INT_interval r)
    let was := (x.next.map fun n => (n.1, n.2.1)).getD (x.mask, x.int)
    if was = (m, i) then s
    else (s.setTelS r { x with next := some (m, i, s.tick, s.telNow) }).setMapBit F.TTU_STATUS_telem_on r (m != 0)

/-- The mean of a sum over the interval.
Marks: DEDUCED, log entry 104. -/
def TelS.mean (x : TelS) (k : Nat) : Nat := x.sum k / max 1 x.n

/-- A temperature field of an interval.
Marks: DEDUCED, log entry 104. -/
def TelS.temp (x : TelS) (k : Nat) : List Byte :=
  match x.top k with | some v => s16 v | none => u16 0x8000

/-- The body of part `p` of record `kind` (Table 16-5).
Marks: DEDUCED, log entry 104. -/
def Block.telBody (s : Block) (x : TelS) (now : Tab Nat) (kind p : Nat) : List Byte :=
  let n := max 1 x.n
  let top (k : Nat) : Nat := ((x.top k).getD 0).toNat
  let v (kind i : Nat) : Nat := Tab.get zeroN now (telKey kind i)
  match kind with
  | 0 =>
    let f := s.ttu.figs.find? (·.tick + 1 == x.done)
    let av (i : Nat) : Nat := match f with | some f => f.avgs.getD i 0 | none => s.fld (F.LG_AVG_avg_mw i)
    let th (i : Nat) : Nat := match f with | some f => f.thrs.getD i 0 | none => 0
    u32 (x.mean (telKey 0 0)) ++ u32 (top (telKey 0 0)) ++ u32 (av 0) ++ u32 (av 1) ++ u32 (av 2) ++
      u32 (th 1) ++ u32 (th 2) ++ u32 (th 3) ++ u16 (satU 16 (top (telKey 0 1))) ++ u8 (top (telKey 0 2)) ++
      u8 (x.sum (telKey 0 2) * 255 / n) ++ u32 (x.mean (telKey 0 1)) ++ u16 (v 10 0) ++ u16 0
  | 1 => ((List.range 6).map (6 * p + ·)).flatMap fun d => u32 (x.mean (telKey 1 d)) ++ u32 (x.mean (telKey 2 d))
  | 2 => ((List.range 4).map (4 * p + ·)).flatMap fun d =>
      let q := x.sum (telKey 5 d)
      u16 (x.sum (telKey 3 d) / max 1 q) ++ u16 (x.sum (telKey 4 d) / max 1 q) ++ u8 (v 1 d) ++ u8 (top (telKey 3 d)) ++
        u8 (v 2 d) ++ u8 (top (telKey 4 d)) ++ u16 (satU 16 (x.sum (telKey 13 d))) ++ u8 (v 3 d) ++ u8 0
  | 3 => ((List.range (if p = 170 then 4 else 6)).map (6 * p + ·)).flatMap fun t =>
      let m := max 1 (x.sum (telKey 9 t))
      u16 (satU 16 (x.mean (telKey 6 t))) ++ u8 (x.sum (telKey 7 t) * 255 / (63 * m)) ++
        u8 (x.sum (telKey 8 t) * 255 / (15 * m)) ++ x.temp (telKey 9 t) ++
        u16 (satU 16 (x.sum (telKey 12 t)))
  | 4 => ((List.range 4).map (4 * p + ·)).flatMap fun c =>
      if c = 0 then List.replicate 12 0
      else u8 c ++ u8 (v 5 c) ++ u16 (x.mean (telKey 10 c)) ++ u32 (v 6 c) ++
        u32 (satU 32 ((toSigned 64 (x.sum (telKey 11 c) % 2 ^ 64)).toNat * 1000 / (16384 * n)))
  | 5 =>
    if p = 0 then
      let best := (List.range 1024).foldl (fun (b : Option (Int × Nat)) t =>
        match x.top (telKey 9 t), b with
        | some v, some (w, _) => if w < v then some (v, t) else b
        | some v, none => some (v, t)
        | none, _ => b) none
      (match best with | some (v, t) => s16 v ++ u16 t | none => u16 0x8000 ++ u16 0) ++
        (List.range 4).flatMap (fun d => x.temp (telKey 5 d)) ++
        (List.range 4).flatMap (fun h => u16 (v 9 h)) ++ u16 (v 10 2) ++ u8 (v 10 3) ++ u8 (v 10 4) ++ u8 (v 10 5) ++
        List.replicate 19 0
    else (List.range 24).flatMap fun k => u16 (v 8 k)
  | 6 => ((List.range 24).map (24 * p + ·)).flatMap fun d => u8 (v 3 d) ++ u8 (v 4 d)
  | 7 => ((List.range 24).map (24 * p + ·)).flatMap fun i => u16 (satU 16 (telDiff now x.base (telKey 0 i)))
  | _ =>
    let r := v 7
    u16 (v 10 0) ++ u16 0 ++ u64 (v 10 1 * 1073741824) ++ u32 (r 0) ++ u32 (r 1) ++ u16 (r 2) ++
      u16 (r 3) ++ u8 (r 4) ++ u8 0 ++ u16 0 ++ u32 (r 5)

/-- Parts of each record (Table 16-5). -/
def telParts (kind : Nat) : Nat := [1, 12, 18, 171, 16, 2, 3, 9, 1].getD kind 1

/-- Write the records of an interval that ends at `i`, after discarding what an earlier interval left (R665). -/
def Block.telWrite (s : Block) (r i : Nat) : Block :=
  let x := { s.telS r with done := i / 1024 }
  let ring := 129 + r
  let left := (s.ttu.queue.filter (·.ring == ring)).length
  let s := { s with ttu := { s.ttu with queue := s.ttu.queue.filter (·.ring != ring) } }
  let s := if 0 < left then s.loseEntries ring left else s
  let now := match x.atEnd with | some (k, t) => if k = i / 1024 then t else s.telNow | none => s.telNow
  let s := s.forAll ((List.range 9).filter (bit x.mask)) fun s kind =>
    s.forAll (List.range (telParts kind)) fun s p =>
      s.stage ⟨ring, 0x40 + kind, p, 0, telParts kind, BitVec.ofNat 64 i, s.telBody x now kind p⟩
  s.setTelS r (x.start now)

/-- The interval of a ring that has ended by tick `k` under the setting in force and is still to be written, by its ending
tick. -/
def Block.telEnded (s : Block) (r k : Nat) : Option Nat :=
  let x := s.telS r
  let k := (x.next.map fun n => min k n.2.2.1).getD k
  let i := k / max 1 x.int * max 1 x.int
  if x.mask ≠ 0 ∧ x.done < i then some i else none

/-- A new setting waits for nothing more: tick `k` is one of its own, or its boundary is 2,048 ns past. -/
def Block.telDue (s : Block) (r k : Nat) : Bool := (s.telS r).next.any fun n => Nat.ble (n.2.2.1 + 2) k

/-- The old setting's last interval is written, and the new setting is in force. -/
def Block.telSwitch (s : Block) (r : Nat) : Block :=
  match (s.telS r).next with
  | none => s
  | some (m, i, t, base) =>
    let s := match s.telEnded r t with | some j => s.telWrite r (j * 1024) | none => s
    s.setTelS r { (s.telS r).start base with mask := m, int := i, done := t, next := none }

/-- The figures of tick `k` are published: they never enter an interval that has ended before it. -/
def Block.telPublish (s : Block) (r k : Nat) (e : EaRes) : Block :=
  let s := if (s.telS r).next.any fun n => decide (n.2.2.1 ≤ k) then s.telSwitch r else s
  let s := match s.telEnded r k with
    | some i => s.telWrite r (i * 1024)
    | none => s
  s.telTick r k e

/-- In Deep the EA publishes nothing: the tick whose publication would fall on this boundary enters the intervals with the
EA's figures at 0 (Table 18-4).
Marks: DEDUCED, log entry 104. -/
def Block.telDeep (s : Block) : Block :=
  let k := s.tick - 3
  let e : EaRes := ⟨k, List.replicate 72 ⟨0, 0, 0, [], [], [], [], 0, false, none⟩⟩
  if s.inDeep && decide (3 ≤ s.tick) && s.ea.staged.map (·.tick) != some k && s.ea.last.map (·.tick) != some k then
    s.forAll (List.range 4) fun s r => s.telPublish r k e
  else s

end Sys2Proof.Machine
end

