-- ==== Sys2Proof/Machine/Ea.lean ====
section
/-! DEFINITION. The commands of the Estimator Array and of the records it gathers (04_power_estimation.md). -/
namespace Sys2Proof.Machine
open Sys2Proof

/-- The oldest Sheaf of a Relay's FIFO reaches the Hub as a VC1 flit of type 0x01 (R53, R139, R165). -/
def execSheafAtHub (die : Die) (now : Ft) (s : State) : Host.Outcome State Fault Refusal :=
  s.on fun s =>
    let s := s.advance now
    let d := die.val
    match (s.relay d).fifo with
    | e :: rest => match s.sbLow d 1 0x01 e.tile e.word with
      | some s => (((s.setRelay d { s.relay d with fifo := rest }).unpark d 1).sheafAtHub e).setFld
          F.HUB_BOOT_STATUS_first_sheaf 1
      | none => s
    | [] => s

/-- The body of a domain measurement record (Table 09-1). -/
def Meas.word (m : Meas) (d : Nat) : DWord :=
  withParity (packBits [(57, 7, d), (49, 8, m.tick), (33, 16, m.v16), (17, 16, m.i16), (14, 3, m.phasesOn), (11, 3, m.state),
    (10, 1, b2n m.valid), (9, 1, b2n m.ilim), (8, 1, b2n m.de), (7, 1, b2n m.slewing)])

/-- A record as the Hub takes it from its body, the tick expanded against the Hub's own (R102). -/
def measOfWord (tick : Nat) (w : DWord) : Meas :=
  let x := w.toNat
  ⟨expandStamp 8 tick (getBits x 49 8), getBits x 33 16, getBits x 17 16, getBits x 14 3, getBits x 11 3, bit x 10,
    bit x 9, bit x 8, bit x 7⟩

/-- A domain measurement record is registered at the Hub; a later one than B + 1,024 ns is discarded (R187, R394). -/
def execDomainMeasurementRecord (dom : Dom) (now : Ft) (s : State) : Host.Outcome State Fault Refusal :=
  s.on fun s =>
    let s := s.advance now
    let d := dom.val
    match (s.vdom d).out with
    | r :: rest => match s.sbLow (dieOfDom d) 2 0x16 (srcRelay (dieOfDom d)) (r.word d) with
      | some s =>
        let s := s.setVdom d { s.vdom d with out := rest }
        let m := measOfWord s.tick (r.word d)
        if s.now ≤ (m.tick + 2) * 1024 then
          { s with ea := { s.ea with meas := Tab.set (fun _ => none) s.ea.meas d (some m) } }
        else s
      | none => s
    | [] => s

/-- The EA freezes its inputs and forms the figures of the tick that ended one tick ago, once, and not in Deep
(R190, Table 18-4). -/
def execEaEvaluation (now : Ft) (s : State) : Host.Outcome State Fault Refusal :=
  s.on fun s =>
    let s := s.advance now
    s.when (decide (2 ≤ s.tick) && s.ea.evalTick != some (s.tick - 2) && !s.inDeep) fun s => s.eaEvaluate

/-- The counters as COUNTERS_READ samples them, at the edge that publishes a tick (R662). -/
def Block.sampleCounters (s : Block) (b : Nat) : Block :=
  { s with ttu := { s.ttu with sample := ⟨b, s.ttu.pkg, s.ttu.tiles, s.ttu.doms, s.ttu.transport, s.fc.counts,
    (List.range 72).map fun d => s.fld (F.EA_DOM_EACC_eacc_nj d)⟩ } }

/-- The figures of a tick are published on one edge, and the TTU takes them (R191, R672, R664).
Marks: DESIGN CHOICE, log entry 7. -/
def execEaPublication (now : Ft) (s : State) : Host.Outcome State Fault Refusal :=
  s.on fun s =>
    let s := s.advance now
    match s.ea.staged with
    | none => s
    | some r =>
      s.when (decide ((r.tick + 3) * 1024 ≤ s.now)) fun s =>
        let s := s.publishEa.sampleCounters ((r.tick + 1) * 1024)
        let s := s.traceTick r.tick r
        s.forAll (List.range 4) fun s i => s.telPublish i r.tick r

end Sys2Proof.Machine
end

