-- ==== Sys2Proof/Machine/Float.lean ====
section
/-! DEFINITION. IEEE 754 binary32 arithmetic, round to nearest even, on words (R222, R452). -/
namespace Sys2Proof.Machine.Fp
open Sys2Proof

/-- A binary32 value: a NaN, an infinity, or (-1)^neg * m * 2^e exactly. -/
inductive Val
  | nan
  | inf (neg : Bool)
  | fin (neg : Bool) (m : Nat) (e : Int)
  deriving DecidableEq, Repr

/-- The value of a word. -/
def decode (w : Word) : Val :=
  let x := w.toNat
  let neg := x.testBit 31
  let ex := getBits x 23 8
  let fr := getBits x 0 23
  if ex = 255 then (if fr = 0 then .inf neg else .nan)
  else if ex = 0 then .fin neg fr (-149)
  else .fin neg (fr + 2 ^ 23) ((ex : Int) - 150)

/-- The canonical quiet NaN. -/
def qnan : Word := 0x7FC00000

/-- An infinity. -/
def infW (neg : Bool) : Word := if neg then 0xFF800000 else 0x7F800000

/-- Bits in a number. -/
def bitLen (m : Nat) : Nat := if m = 0 then 0 else Nat.log2 m + 1

/-- `m / 2^k` rounded to nearest, ties to even. -/
def rneShift (m k : Nat) : Nat :=
  let q := m >>> k
  let r := m % 2 ^ k
  let half := 2 ^ (k - 1)
  if k = 0 then m else if r > half then q + 1 else if r < half then q else q + q % 2

/-- Round (-1)^neg * m * 2^e to binary32. -/
def pack (neg : Bool) (m : Nat) (e : Int) : Word :=
  let sgn : Nat := if neg then 2 ^ 31 else 0
  if m = 0 then BitVec.ofNat 32 sgn
  else
    let sh : Int := max ((bitLen m : Int) - 24) (-149 - e)
    let q := if sh ≤ 0 then m <<< (-sh).toNat else rneShift m sh.toNat
    let qe := e + sh
    -- a carry out of 24 bits moves to the next exponent
    let (q, qe) := if q = 2 ^ 24 then (2 ^ 23, qe + 1) else (q, qe)
    if q < 2 ^ 23 then BitVec.ofNat 32 (sgn + q)
    else if qe > 104 then infW neg
    else BitVec.ofNat 32 (sgn + (qe + 150).toNat * 2 ^ 23 + (q - 2 ^ 23))

/-- Negation. -/
def neg (a : Word) : Word := a ^^^ 0x80000000

/-- Absolute value. -/
def abs (a : Word) : Word := a &&& 0x7FFFFFFF

/-- Is the value finite (R248). -/
def finite (a : Word) : Bool := getBits a.toNat 23 8 != 255

/-- Exact sum of two finite values as a signed integer and an exponent. -/
def addExact (s1 : Bool) (m1 : Nat) (e1 : Int) (s2 : Bool) (m2 : Nat) (e2 : Int) : Int × Int :=
  let e := min e1 e2
  let a : Int := (m1 <<< (e1 - e).toNat : Nat)
  let b : Int := (m2 <<< (e2 - e).toNat : Nat)
  ((if s1 then -a else a) + (if s2 then -b else b), e)

/-- Round a signed integer times 2^e; an exact zero is positive unless both terms were negative. -/
def packI (i e : Int) (negZero : Bool) : Word :=
  if i = 0 then pack negZero 0 0 else pack (decide (i < 0)) i.natAbs e

/-- a * b + c with one rounding.
Marks: PRESUMED, log entry 31. -/
def fma (a b c : Word) : Word :=
  match decode a, decode b, decode c with
  | .nan, _, _ => qnan
  | _, .nan, _ => qnan
  | _, _, .nan => qnan
  | .inf s, .inf t, d =>
    (match d with | .inf u => if u = xor s t then infW u else qnan | _ => infW (xor s t))
  | .inf s, .fin t m _, d =>
    if m = 0 then qnan
    else (match d with | .inf u => if u = xor s t then infW u else qnan | _ => infW (xor s t))
  | .fin s m _, .inf t, d =>
    if m = 0 then qnan
    else (match d with | .inf u => if u = xor s t then infW u else qnan | _ => infW (xor s t))
  | .fin _ _ _, .fin _ _ _, .inf u => infW u
  | .fin s1 m1 e1, .fin s2 m2 e2, .fin s3 m3 e3 =>
    let (i, e) := addExact (xor s1 s2) (m1 * m2) (e1 + e2) s3 m3 e3
    packI i e (xor s1 s2 && s3)

/-- a * b. -/
def mul (a b : Word) : Word :=
  match decode a, decode b with
  | .nan, _ => qnan
  | _, .nan => qnan
  | .inf s, .inf t => infW (xor s t)
  | .inf s, .fin t m _ => if m = 0 then qnan else infW (xor s t)
  | .fin s m _, .inf t => if m = 0 then qnan else infW (xor s t)
  | .fin s1 m1 e1, .fin s2 m2 e2 => pack (xor s1 s2) (m1 * m2) (e1 + e2)

/-- a + b. -/
def add (a b : Word) : Word :=
  match decode a, decode b with
  | .nan, _ => qnan
  | _, .nan => qnan
  | .inf s, .inf t => if s = t then infW s else qnan
  | .inf s, .fin _ _ _ => infW s
  | .fin _ _ _, .inf t => infW t
  | .fin s1 m1 e1, .fin s2 m2 e2 =>
    let (i, e) := addExact s1 m1 e1 s2 m2 e2
    packI i e (s1 && s2)

/-- a - b. -/
def sub (a b : Word) : Word := add a (neg b)

/-- a / b. -/
def div (a b : Word) : Word :=
  match decode a, decode b with
  | .nan, _ => qnan
  | _, .nan => qnan
  | .inf _, .inf _ => qnan
  | .inf s, .fin t _ _ => infW (xor s t)
  | .fin s _ _, .inf t => pack (xor s t) 0 0
  | .fin s1 m1 e1, .fin s2 m2 e2 =>
    if m2 = 0 then (if m1 = 0 then qnan else infW (xor s1 s2))
    else
      let n := m1 <<< 64
      pack (xor s1 s2) (2 * (n / m2) + b2n (decide (n % m2 ≠ 0))) (e1 - e2 - 65)

/-- Integer square root, one result bit at a time. -/
def isqrt : Nat → Nat → Nat → Nat
  | 0, _, r => r
  | k + 1, n, r => let t := r + 2 ^ k; isqrt k n (if t * t ≤ n then t else r)

/-- The square root. -/
def sqrt (a : Word) : Word :=
  match decode a with
  | .nan => qnan
  | .inf s => if s then qnan else infW false
  | .fin s m e =>
    if m = 0 then a
    else if s then qnan
    else
      -- an even exponent and enough bits for one rounding
      let odd := decide (e % 2 ≠ 0)
      let n := (if odd then 2 * m else m) <<< 60
      let e' := (if odd then e - 1 else e) - 60
      let r := isqrt 44 n 0
      pack false (2 * r + b2n (decide (r * r ≠ n))) (e' / 2 - 1)

/-- An integer as binary32. -/
def ofInt (i : Int) : Word := packI i 0 false

/-- i * 2^k as binary32, one rounding. -/
def ofScaled (i : Int) (k : Int) : Word := packI i k false

/-- The exact value times 2^k, rounded down, 0 for a NaN or infinity. -/
def floorScaled (a : Word) (k : Int) : Int :=
  match decode a with
  | .fin s m e =>
    let x := e + k
    let i : Int := if s then -(m : Int) else m
    if x ≥ 0 then i * (2 ^ x.toNat : Nat) else i.fdiv (2 ^ (-x).toNat : Nat)
  | _ => 0

/-- The exact value times 2^k, rounded to nearest, halves away from zero.
Marks: DEDUCED, log entry 32. -/
def roundScaled (a : Word) (k : Int) : Int :=
  match decode a with
  | .fin s m e =>
    let x := e + k
    let q : Nat := if x ≥ 0 then m * 2 ^ x.toNat
      else (2 * m + 2 ^ (-x).toNat) / 2 ^ ((-x).toNat + 1)
    if s then -(q : Int) else q
  | _ => 0

/-- a < b, false when either is a NaN. -/
def lt (a b : Word) : Bool :=
  match decode a, decode b with
  | .nan, _ => false
  | _, .nan => false
  | .inf s, .inf t => s && !t
  | .inf s, .fin _ _ _ => s
  | .fin _ _ _, .inf t => !t
  | .fin s1 m1 e1, .fin s2 m2 e2 => decide ((addExact s1 m1 e1 (!s2) m2 e2).1 < 0)

/-- a <= b, false when either is a NaN. -/
def le (a b : Word) : Bool :=
  match decode a, decode b with
  | .nan, _ => false
  | _, .nan => false
  | _, _ => !lt b a

/-- The smaller; the other when one is a NaN. -/
def min (a b : Word) : Word := if decode a = .nan then b else if lt b a then b else a

/-- The larger; the other when one is a NaN. -/
def max (a b : Word) : Word := if decode a = .nan then b else if lt a b then b else a

/-- Clamp into a range. -/
def clamp (x lo hi : Word) : Word := max lo (min hi x)

/-- a * 2^k. -/
def ldexp (a : Word) (k : Int) : Word :=
  match decode a with
  | .fin s m e => pack s m (e + k)
  | _ => a

/-- Sum of products in rising index order, one fused multiply-add a term (R222).
Marks: PRESUMED, log entry 31. -/
def dot (x y : List Word) : Word := (x.zip y).foldl (fun acc p => fma p.1 p.2 acc) 0

end Sys2Proof.Machine.Fp
end

