-- ==== Sys2Proof/Machine/Winnow.lean ====
section
/-! DEFINITION. Winnow, the calibration with live traffic: updates, restores and weight images
(05_live_calibration.md). -/
namespace Sys2Proof.Machine
open Sys2Proof

def Block.winst (s : Block) (d : Nat) : WInst := Tab.get (fun _ => WInst.reset) s.wce.insts d
def Block.setWinst (s : Block) (d : Nat) (x : WInst) : Block :=
  { s with wce := { s.wce with insts := Tab.set (fun _ => WInst.reset) s.wce.insts d x } }

/-- The factory record of a domain; before a set is committed it is all zero. -/
def Block.wfactory (s : Block) (d : Nat) : WFactory :=
  match s.wce.factory with
  | some l => l.getD d ⟨List.replicate 34 0, List.replicate 34 0, List.replicate 34 0, List.replicate 34 0⟩
  | none => ⟨List.replicate 34 0, List.replicate 34 0, List.replicate 34 0, List.replicate 34 0⟩

/-! ## The covariance (R222, R227) -/

/-- Place of entry (i, j), i ≤ j, in the stored upper triangle. -/
def triIdx (i j : Nat) : Nat := let a := min i j; let b := max i j; 34 * a - a * (a - 1) / 2 + (b - a)

/-- The upper triangle of a diagonal. -/
def diagTri (d : List Word) : List Word :=
  (List.range 34).flatMap fun i => (List.range (34 - i)).map fun k => if k = 0 then d.getD i 0 else 0

/-- A row of the symmetric matrix. -/
def triRow (p : List Word) (i : Nat) : List Word := (List.range 34).map fun j => p.getD (triIdx i j) 0

/-- P × φ. -/
def triMul (p phi : List Word) : List Word := (List.range 34).map fun i => Fp.dot (triRow p i) phi

/-- (P − g × (Pφ)ᵀ) / λ. -/
def triUpdate (p g pphi : List Word) (lam : Word) : List Word :=
  (List.range 34).flatMap fun i => (List.range (34 - i)).map fun k =>
    let j := i + k
    Fp.div (Fp.fma (Fp.neg (g.getD i 0)) (pphi.getD j 0) (p.getD (triIdx i j) 0)) lam

/-- Bring a diagonal entry back to P0, with its row and column (R227). -/
def capOne (p0 : List Word) (p : List Word) (i : Nat) : List Word :=
  let x := p.getD (triIdx i i) 0
  let t := p0.getD i 0
  if Fp.lt t x then
    let f := Fp.sqrt (Fp.div t x)
    (List.range 34).foldl (fun (q : List Word) j =>
      q.set (triIdx i j) (if j = i then t else Fp.mul (q.getD (triIdx i j) 0) f)) p
  else p
def capDiag (p0 p : List Word) : List Word := (List.range 34).foldl (capOne p0) p

/-! ## The update (R223-R232) -/

/-- Observation and regressors of an epoch (R216). -/
def regressors (w : WSums) (sums : List Nat) : Word × List Word :=
  -- 0.016 as binary32
  let k : Word := 0x3C83126F
  (Fp.ofInt ((w.m16 : Int) - w.l16),
    (List.range 32).map (fun i => Fp.mul k (Fp.ofInt (sums.getD i 0))) ++ [Fp.ofInt w.c16, Fp.ofInt 16])

/-- floor_step of an unknown (R226). -/
def floorStep (i : Nat) : Word := if i < 32 then 0x3D800000 else if i = 32 then 0x3A800000 else 0x43800000

/-- The new unknown, and whether a bound limited it (R226). -/
def moveTheta (r : Nat) (th g e lo hi : Word) (i : Nat) : Word × Bool :=
  let lim := Fp.max (Fp.ldexp (Fp.abs th) (-(r : Int))) (floorStep i)
  let raw := Fp.mul g e
  let d := Fp.clamp raw (Fp.neg lim) lim
  let sum := Fp.add th d
  let th' := Fp.clamp sum lo hi
  (th', Fp.lt raw d || Fp.lt d raw || Fp.lt sum th' || Fp.lt th' sum)

/-- The restored instance at boundary `x` (R232); a restore leaves the count since the last restart (R231). -/
def restoredInst (f : WFactory) (since : Option Nat) (x : Nat) : WInst := ⟨f.theta0, diagTri f.p0, 0, 0, 0, 0, since, x⟩

/-- A rejection: code 3 or 4, a restart or a factory restore (R228, R231). -/
def rejectInst (f : WFactory) (x : WInst) (limit code : Nat) (e y : Word) : WInst × Nat :=
  let run := x.rejRun + 1
  let soon := match x.sinceRestart with | some n => decide (n < 64) | none => false
  if run < limit then ({ x with nAcc := x.nAcc - 4, rejRun := run }, code)
  else if soon then (restoredInst f x.sinceRestart x.since, 6)
  else
    ({ x with
        p := diagTri f.p0, nAcc := 0, rejRun := 0, sig2 := Fp.mul e e, ybar := Fp.abs y
        sinceRestart := some 0 }, 5)

/-- Settings of an update: forget_shift, step_shift, outlier_k, rej_limit. -/
structure WCfg where
  forget : Nat
  stepSh : Nat
  outlier : Nat
  rej : Nat
  deriving DecidableEq, Repr

/-- One update of a domain that is neither held nor excluded (R223, R228).
Marks: PRESUMED, log entry 31. -/
def updateInst (c : WCfg) (f : WFactory) (x : WInst) (y : Word) (phi : List Word) : WInst × Nat :=
  let e := Fp.sub y (Fp.dot phi x.theta)
  let sig := Fp.sqrt x.sig2
  if Fp.lt (Fp.ldexp (Fp.abs y) (-2)) (Fp.abs e) then rejectInst f x c.rej 3 e y
  else if 16 ≤ x.nAcc ∧ Fp.lt (Fp.mul (Fp.ofInt c.outlier) sig) (Fp.abs e) then rejectInst f x c.rej 4 e y
  else
    let one : Word := 0x3F800000
    let lam := Fp.sub one (Fp.ldexp one (-(c.forget : Int)))
    let pphi := triMul x.p phi
    let den := Fp.add lam (Fp.dot phi pphi)
    let g := pphi.map fun v => Fp.div v den
    let p := capDiag f.p0 (triUpdate x.p g pphi lam)
    let th := (List.range 34).map fun i =>
      moveTheta c.stepSh (x.theta.getD i 0) (g.getD i 0) e (f.lo.getD i 0) (f.hi.getD i 0) i
    let n := min (x.nAcc + 1) 256
    let beta := Fp.div one (Fp.ofInt (min n 64))
    let keep := Fp.sub one beta
    let sig2 := Fp.fma keep x.sig2 (Fp.mul (Fp.mul beta e) e)
    let ybar := Fp.fma keep x.ybar (Fp.mul beta (Fp.abs y))
    ({ x with
        theta := th.map (·.1), p := p, sig2 := sig2, ybar := ybar, nAcc := n, rejRun := 0
        sinceRestart := x.sinceRestart.map (· + 1) }, if th.any (·.2) then 1 else 0)

/-- Every value of the state is finite (R232). -/
def WInst.ok (x : WInst) : Bool := x.theta.all Fp.finite && x.p.all Fp.finite && Fp.finite x.sig2 && Fp.finite x.ybar

/-- Outcome 2 holds for a domain's epoch (Table 05-6). -/
def Block.excluded (s : Block) (ep d : Nat) (w : WSums) : Bool :=
  let recBad := if d < 64 then
      match Tab.get (fun _ => none) s.wce.recs (64 * (ep % 4) + d) with
      | some (r : DomRec) => r.epoch != ep || r.incomplete || r.probation || r.poweredUp
      | none => true
    else false
  !s.flag F.WCE_CTRL_fit_en || w.epoch != ep || decide (w.ticks < 16) || w.subst || w.bad || recBad ||
    s.wce.switched.contains (ep, d) || decide (w.m16 < if d < 64 then 1048576 else 2621440)

/-- The result of a domain for the epoch `ep` (R225, R232, R234); hold goes before exclusion.
Marks: DESIGN CHOICE, log entry 134. -/
def Block.winnowDom (s : Block) (ep d : Nat) : WInst × Nat :=
  let x := s.winst d
  let f := s.wfactory d
  let w := Tab.get (fun _ => WSums.zero) s.wce.sums (72 * (ep % 4) + d)
  let c : WCfg := ⟨s.fld F.WCE_CFG_forget_shift, s.fld F.WCE_CFG_step_shift, s.fld F.WCE_CFG_outlier_k,
    s.fld F.WCE_CFG_rej_limit⟩
  if s.flag (F.WCE_DOM_CTRL_hold d) then ({ x with nAcc := x.nAcc - 4 }, 7)
  else if s.excluded ep d w then ({ x with nAcc := x.nAcc - 4 }, 2)
  else
    let sums := match Tab.get (fun _ => none) s.wce.recs (64 * (ep % 4) + d) with
      | some (r : DomRec) => r.sums
      | none => []
    let (y, phi) := regressors w (if d < 64 then sums else [])
    updateInst c f x y phi

/-- The epoch whose data is due at the present tick: it ended 24 ticks ago or more (R235). -/
def Block.dueEpoch (s : Block) : Nat := (s.tick - 24) / 16

/-- The relative residual (R229). -/
def WInst.rms (x : WInst) : Word :=
  if Fp.lt 0 x.ybar then Fp.div (Fp.sqrt x.sig2) x.ybar else 0x3F800000

/-- conf (R229). -/
def WInst.conf (x : WInst) : Nat :=
  -- 0.04 as binary32
  let c := Fp.clamp (Fp.sub 0x3F800000 (Fp.div x.rms 0x3D23D70A)) 0 0x3F800000
  (Fp.floorScaled (Fp.mul (Fp.mul (Fp.ofInt 255) c) (Fp.ofInt x.nAcc)) (-8)).toNat

/-- above_enter reads 1 while conf is at conf_enter or above (R230). -/
def Block.showEnter (s : Block) (d : Nat) : Block :=
  s.setFld (F.WCE_DOM_CONF_above_enter d) (b2n (decide (s.wce.enter ≤ s.fld (F.WCE_DOM_CONF_conf d))))

/-- A WCE cycle 0 puts conf_enter in force (R250). -/
def Block.takeEnter (s : Block) : Block :=
  let s := { s with wce := { s.wce with enter := s.fld F.WCE_CFG_conf_enter } }
  s.forAll (List.range 72) Block.showEnter

/-- At E + 24,576 ns the inputs are frozen and every instance is updated, once an epoch and not in Deep
(R235, Table 18-4). -/
def execWinnowUpdate (s : State) : Host.Outcome State Fault Refusal :=
  s.on fun s =>
    let e := s.dueEpoch
    s.when (decide (0 < e) && decide (40 ≤ s.tick) && s.wce.updated != e && !s.power.hold) fun s =>
      let s := s.takeEnter
      let res := ((List.range 72).filter fun d => decide ((s.winst d).since < e * 16384)).map fun d =>
        let r := s.winnowDom (e - 1) d
        (d, r.1, r.2)
      { s with wce := { s.wce with results := res, resultEpoch := e * 16384, updated := e } }

/-- Show an instance and its outcome (Table 05-16). -/
def Block.showWinnow (s : Block) (d outcome : Nat) : Block :=
  let x := s.winst d
  let s := (s.setFld (F.WCE_DOM_CONF_conf d) x.conf).setFld (F.WCE_DOM_CONF_n_acc d) x.nAcc
  let s := (s.setFld (F.WCE_DOM_CONF_outcome d) outcome).showEnter d
  let s := s.setSat (F.WCE_DOM_STAT_rej_run d) x.rejRun
  s.setSat (F.WCE_DOM_STAT_rms_q d) (Fp.floorScaled x.rms 16).toNat

/-- A result becomes visible; a non-finite state is restored (R225, R228, R231, R232). A factory restore takes effect at
the boundary of the results: no epoch that ended by then updates the instance (R233). -/
def Block.winnowResult (s : Block) (d : Nat) (x : WInst) (outcome : Nat) : Block :=
  let at_ := s.wce.resultEpoch + 32768
  if !x.ok then
    let s := s.setWinst d (restoredInst (s.wfactory d) (s.winst d).sinceRestart at_)
    ((s.setFld F.WCE_STATUS_nonfinite_seen 1).showWinnow d 6).raise 5 1 d
  else
    let s := (s.setWinst d (if outcome = 6 then { x with since := at_ } else x)).showWinnow d outcome
    let s := if outcome = 1 then s.incSat (F.WCE_DOM_STAT_bound_hits d) else s
    let s := if outcome = 5 then s.setFld F.WCE_STATUS_restart_seen 1 else s
    let s := if outcome = 6 then s.raise 5 0 d else s
    if outcome ≤ 1 then s.cntPkg 15 else if outcome = 3 ∨ outcome = 4 then s.cntPkg 16 else s

/-- At E + 32,768 ns every result of the epoch becomes visible on one edge (R235); what takes effect at an epoch boundary
of that edge comes first (R233). -/
def Block.showResults (s : Block) : Block :=
  s.when (!s.wce.results.isEmpty && decide (s.wce.resultEpoch + 32768 ≤ s.tick * 1024) &&
      s.time.epoch == s.tick / 16) fun s =>
    let l := s.wce.results
    let s := { s with wce := { s.wce with results := [] } }
    let s := s.forAll l fun s r => s.winnowResult r.1 r.2.1 r.2.2
    s.setFld F.WCE_LAST_EPOCH_ft s.wce.resultEpoch

def execWinnowResultsVisible (s : State) : Host.Outcome State Fault Refusal := s.on Block.showResults

/-! ## Restores (R232, R233) -/

/-- A factory restore of an instance at an epoch boundary: what is pending of it is discarded. -/
def Block.restoreInst (s : Block) (d : Nat) : Block :=
  let x := s.time.epoch * 16384
  let s := { s with wce := { s.wce with results := s.wce.results.filter (·.1 != d) } }
  ((s.setWinst d (restoredInst (s.wfactory d) (s.winst d).sinceRestart x)).showWinnow d 6).setFld (F.WCE_DOM_CTRL_restore d) 0

/-- An accepted set is due at the epoch boundary that has begun (R249). -/
def Block.setCommits (s : Block) : Bool :=
  match s.wce.pendingSet with
  | some (_, _, _, ep) => decide (ep < s.time.epoch)
  | none => false

/-- The restores requested take effect at an epoch boundary (R233, R251); a set that commits there discards the results
of every instance. -/
def Block.restoreEpoch (s : Block) : Block :=
  let s := if s.setCommits then { s with wce := { s.wce with results := [] } } else s
  let all := s.flag F.WCE_CTRL_restore_all
  let l := (List.range 72).filter fun d => all || s.flag (F.WCE_DOM_CTRL_restore d) || s.wce.pendingRestore.contains d
  let s := { s with wce := { s.wce with pendingRestore := [] } }
  (s.forAll l Block.restoreInst).setFld F.WCE_CTRL_restore_all 0

/-- restore of a domain is requested; it reads 1 until the boundary (R255). -/
def Block.reqRestore (s : Block) (d : Nat) : Block := s.setFld (F.WCE_DOM_CTRL_restore d) 1
def execWceDomRestore (dom : Dom) (s : State) : Host.Outcome State Fault Refusal := s.on fun s => s.reqRestore dom.val

/-- restore_all is requested (R251). -/
def Block.reqRestoreAll (s : Block) : Block := s.setFld F.WCE_CTRL_restore_all 1
def execWceRestoreAll (s : State) : Host.Outcome State Fault Refusal := s.on fun s => s.reqRestoreAll

/-! ## Images (R237-R243) -/

/-- The image of a domain from its unknowns (R238). -/
def imageOf (d : Nat) (theta : List Word) : WImage :=
  let sq := (Fp.roundScaled (theta.getD 32 0) 14).toNat
  let w (i : Nat) : Int := satS 16 (Fp.roundScaled (Fp.div (Fp.ldexp (theta.getD i 0) 18) (Fp.ofInt sq)) 0)
  let ws := if d < 64 then (List.range 32).map w else List.replicate 32 0
  ⟨sq, ws, Fp.roundScaled (theta.getD 33 0) 0, bankCrc ws⟩

/-- The images of every domain.
Marks: DEDUCED, log entry 30. -/
def Block.snapshot (s : Block) : List WImage := (List.range 72).map fun d => imageOf d (s.winst d).theta

/-- A publication falls due at tick `p`: an image is formed, with its swap tick, unless a released image still waits for
its own (R239, R241). One that falls due at the same boundary takes its place.
Marks: DEDUCED, log entry 30; DESIGN CHOICE, log entry 123. -/
def Block.formImage (s : Block) (p : Nat) : Block :=
  if s.wce.released.isSome then s.incSat F.WCE_STATUS_pub_skipped
  else
    let x : Formed := ⟨s.snapshot, p, p + s.wce.delay, s.wce.setDue⟩
    { s with wce := { s.wce with formed := (s.wce.formed.filter fun f => f.at_ != p) ++ [x] } }

/-- An accepted factory set commits at an epoch boundary, with a publication of its own (R241, R249). -/
def Block.commitSet (s : Block) : Block :=
  match s.wce.pendingSet with
  | none => s
  | some (l, flag, dig, _) =>
    s.when s.setCommits fun s =>
      let s := { s with wce := { s.wce with
        pendingSet := none, factory := some l, factoryFlag := flag, digCfg := dig, setDue := true } }
      (s.forAll (List.range 72) Block.restoreInst).formImage (s.time.epoch * 16)

def execFactorySetCommit (s : State) : Host.Outcome State Fault Refusal := s.on Block.commitSet

/-- Every 1,024 ticks: a snapshot, unless publication is off; it holds the results and the set that the same edge brings.
Before a factory set is committed no image exists (R237, R241, R249). -/
def execPublicationBoundary (s : State) : Host.Outcome State Fault Refusal :=
  s.on fun s =>
    let n := s.tick / 1024
    s.when (s.wce.pubSeen != n && s.time.epoch == s.tick / 16) fun s =>
      let s := { s with wce := { s.wce with pubSeen := n, delay := s.fld F.WCE_PUB_CFG_swap_delay } }
      let s := s.commitSet.showResults
      if !s.flag F.WCE_CTRL_pub_en ∨ s.wce.factory.isNone ∨ s.wce.formed.any (·.at_ == n * 1024) then s
      else s.formImage (n * 1024)

/-- Firmware writes the channel 0 digest configuration of a set to every Post and locks it (R249).
Marks: DEDUCED, log entry 30. -/
def Block.lockDigest (s : Block) : Block :=
  let c := s.wce.digCfg
  let s := s.forAll (List.range 4) fun s d => s.setRelay d { s.relay d with digCfg := some (setBit c 31 true) }
  s.forAll (s.posts.map (·.1)) fun s t =>
    if (s.post t).powered then s.loadCh0 t (setBit c 31 true) else s

/-- The publications of a released image go to every powered Post's inactive bank (R239). -/
def Block.sendImages (s : Block) (l : List WImage) : Block :=
  s.forAll (s.posts.map (·.1)) fun s t =>
    match (s.post t).powered, l[domOfTile t]? with
    | true, some i => s.sendPub t ⟨some (!(s.relay (dieOfTile t)).bankSel), i.weights, i.crc, false, false⟩
    | _, _ => s

/-- The first release after a commit: the digest configuration is locked, and the set shows (R249).
Marks: DEDUCED, log entry 30; DESIGN CHOICE, log entry 123. -/
def Block.publishSet (s : Block) : Block :=
  let s := (s.lockDigest.setFld F.WCE_STATUS_factory_valid 1).setFld F.WCE_STATUS_src (b2n s.wce.factoryFlag)
  { s with wce := { s.wce with setDue := false } }

/-- Core 2 releases the oldest image that it can, before the tick N − 16 begins (R239, R243, R249). -/
def execImageRelease (s : State) : Host.Outcome State Fault Refusal :=
  s.on fun s =>
    match s.wce.formed.find? fun x => decide (x.at_ + 4 ≤ s.tick) && decide (s.tick + 16 < x.swap) with
    | none => s
    | some x =>
      s.when (s.coreRuns 2 && s.wce.released.isNone) fun s =>
        let s := if x.factory ∧ s.wce.setDue then s.publishSet else s
        let s := { s with
          wce := { s.wce with formed := s.wce.formed.erase x, released := some (x.image, x.swap) }
          time := { s.time with sched := s.time.sched ++ [(x.swap, Sched.weights)] } }
        (s.sendImages x.image).setFld F.WCE_STATUS_pub_pending 1

/-- An image not released before the tick N − 16 begins lapses (R239). -/
def execImageLapse (s : State) : Host.Outcome State Fault Refusal :=
  s.on fun s =>
    match s.wce.formed.find? fun x => decide (x.swap ≤ s.tick + 16) with
    | none => s
    | some x => ({ s with wce := { s.wce with formed := s.wce.formed.erase x } }).incSat F.WCE_STATUS_pub_lapsed

/-- The swap at tick N: Posts, scales and offsets, and the images in force (R126, R240). -/
def Block.swapWeights (s : Block) : Block :=
  match s.wce.released with
  | none => s
  | some (l, _) =>
    let s := s.forAll (List.range 4) fun s d => s.setRelay d { s.relay d with bankSel := !(s.relay d).bankSel }
    let s := s.forAll s.poweredDoms fun s n =>
      match s.orderSent n 1 0 with
      | some s => s.forAll (tilesOf n) Block.postSwap
      | none => s
    let s := s.forAll l.zipIdx fun s p =>
      (s.setFld (F.EA_DOM_SCALE_scale p.2) p.1.scaleQ).setFldS (F.EA_DOM_LOFF_loff p.2) p.1.loffQ
    let s := { s with wce := { s.wce with inForce := some l, released := none } }
    let s := (s.setFld F.WCE_PUB_FT_ft s.now).incWrap F.WCE_STATUS_pub_seq
    (s.setFld F.WCE_STATUS_pub_pending 0).cntPkg 17

end Sys2Proof.Machine
end

