-- ==== Sys2Proof/Machine/Thermal.lean ====
section
/-! DEFINITION. The thermal model: sensors, the network, forecasts, the cooling request and the derate
(10_thermal_management.md). -/
namespace Sys2Proof.Machine
open Sys2Proof

/-! ## Bonded-memory sensors (R442) -/

/-- The body of flit `f` of a Relay's sensor record (R442). -/
def sensorBody (l : List (Option Int)) (f : Nat) : DWord :=
  BitVec.ofNat 64 (packBits ((List.range 4).map fun q =>
    (16 * q, 16, match l.getD (4 * f + q) none with | some v => ofSigned 16 v | none => 0x8000)))

/-- The reading in 16 bits of a flit: 0x8000 marks an invalid one. -/
def readingOf (x : Nat) : Option Int := if x = 0x8000 then none else some (toSigned 16 x)

/-- Flit `flit` of a Relay's sensor record reaches the Hub in the tick that sends it or later; the model's step takes none
registered after S + 4,096 ns (Table 10-3). -/
def execBmemSensorFlits (die : Die) (flit : Fin 16) (now : Ft) (s : State) : Host.Outcome State Fault Refusal :=
  s.on fun s =>
    let s := s.advance now
    let d := die.val
    let k := s.tick / 128
    s.when (decide (flit.val / 4 ≤ s.tick % 128) && s.time.ticking) fun s =>
      let w := sensorBody (s.relay d).bmem flit.val
      match s.sbLow d 2 0x17 (srcRelay d) w with
      | none => s
      | some s => s.forAll (List.range 4) fun s q =>
        let v := readingOf (getBits w.toNat (16 * q) 16)
        let key := 64 * d + 4 * flit.val + q
        let s := { s with ea := { s.ea with bmem := Tab.set (fun _ => none) s.ea.bmem key v } }
        s.when (decide (s.now % 131072 ≤ 4096)) fun s =>
          { s with tme := { s.tme with bmem := Tab.set (fun _ => (0, none)) s.tme.bmem key (k, v) } }

/-! ## Parameters (R457-R460) -/

/-- A ratio of two integers as binary32. -/
def ratioW (a b : Int) : Word := Fp.div (Fp.ofInt a) (Fp.ofInt b)

/-- The parameters of the boot ROM (R460).
Marks: DESIGN CHOICE, log entry 28. -/
def romBank : TmeBank where
  nSub := clampN 1 8 Config.romTmeSub
  tAmb := Config.romTmeHead 0
  sens := Config.romTmeHead 1
  kObs := Config.romTmeHead 2
  modelId := 0
  nodes := (List.range 1120).map fun i =>
    let x := Config.romTmeNode i
    ⟨x.1, x.2.1, x.2.2⟩

/-- The bank in force: the ROM's until the first swap. -/
def Block.tmeBank (s : Block) : TmeBank :=
  if !s.flag F.TME_STATUS_data_src then romBank
  else (if s.flag F.TME_STATUS_bank_active then s.tme.bankB else s.tme.bankA).getD romBank

/-- The class of a node (Table 10-2). -/
def nodeClass (i : Nat) : Nat :=
  if i < 1024 then 0 else if i < 1088 then 1 else if i < 1112 then 2 else if i < 1116 then 3
  else if i < 1118 then 4 else 5

/-- One node record of a payload. -/
def tmeNodeAt (l : List Byte) : TmeNode :=
  ⟨BitVec.ofNat 32 (rdAt l 0 4), BitVec.ofNat 32 (rdAt l 4 4),
    (List.range (min 8 (rdAt l 9 1))).map fun j => (rdAt l (12 + 2 * j) 2, BitVec.ofNat 32 (rdAt l (28 + 4 * j) 4))⟩

/-- Step of a substep, seconds (R452). -/
def dtSub (n : Nat) : Word := ratioW 131072 (1000000000 * n)

/-- Step of a forecast, seconds (R462). -/
def dtFc : Word := ratioW 16777216 1000000000

/-- Sum of a node's conductances. -/
def TmeNode.total (x : TmeNode) : Word := Fp.add (x.nb.foldl (fun a p => Fp.add a p.2) 0) x.gAmb

/-- The checks of one node (R458). -/
def tmeNodeOk (nodes : Array TmeNode) (nSub i : Nat) (x : TmeNode) : Bool :=
  let ids := x.nb.map (·.1)
  Fp.finite x.cInv && Fp.finite x.gAmb && Fp.lt 0 x.cInv && Fp.le 0 x.gAmb &&
  x.nb.all (fun p => decide (p.1 < 1120) && p.1 != i && Fp.finite p.2 && Fp.lt 0 p.2 &&
    (nodes.getD p.1 ⟨0, 0, []⟩).nb.any fun q => q.1 == i && q.2 == p.2) &&
  ids.eraseDups.length == ids.length &&
  Fp.lt (Fp.mul (Fp.mul (dtSub nSub) x.cInv) x.total) 0x3F800000 &&
  (decide (nodeClass i < 3) || Fp.lt (Fp.mul (Fp.mul dtFc x.cInv) x.total) 0x3F800000)

/-- A thermal payload, when R458 accepts it; reserved bytes of the header that are not zero refuse it, those of a record do
not.
Marks: DESIGN CHOICE, log entry 133. -/
def tmeParse (l : List Byte) : Option TmeBank :=
  let w := fun o => BitVec.ofNat 32 (rdAt l o 4)
  let n := rdAt l 6 1
  let recs := (List.range 1120).map fun i => (l.drop (32 + 64 * i)).take 64
  let nodes := recs.map tmeNodeAt
  let arr := nodes.toArray
  let within (x lo hi : Word) : Bool := Fp.finite x && Fp.le lo x && Fp.le x hi
  let ok := l.length == 71712 && rdAt l 0 2 == 1 && rdAt l 2 2 == 1120 && rdAt l 4 2 == 64 &&
    decide (1 ≤ n) && decide (n ≤ 8) && within (w 8) 0 0x42700000 && within (w 12) 0x3A83126F 0x3F800000 &&
    within (w 16) 0 0x3F800000 && rdAt l 7 1 == 0 && rdAt l 0x18 8 == 0 &&
    recs.all (fun p => (List.range 8).all fun j => Fp.finite (BitVec.ofNat 32 (rdAt p (0x1C + 4 * j) 4))) &&
    recs.zipIdx.all (fun p => rdAt p.1 8 1 == nodeClass p.2 && decide (rdAt p.1 9 1 ≤ 8)) &&
    nodes.zipIdx.all (fun p => tmeNodeOk arr n p.2 p.1) && nodes.any fun x => Fp.lt 0 x.gAmb
  if ok then some ⟨n, w 8, w 12, w 16, rdAt l 20 4, nodes⟩ else none

/-- Load an accepted payload into the inactive bank. -/
def Block.tmeLoad (s : Block) (b : TmeBank) : Block :=
  let a := s.flag F.TME_STATUS_bank_active
  { s with tme := if a then { s.tme with bankA := some b } else { s.tme with bankB := some b } }

/-! ## The boundary of a step (R453, R459) -/

/-- What a thermal-step boundary fixes for the model: the bank and the figures of the step that ended, readings, and a swap
that is due, for the step that begins; the bank that becomes inactive keeps its bundle. A tile's reading is the latest
valid one registered in the step that ended.
Marks: DEDUCED, log entry 122. -/
def Block.tmeBoundary (s : Block) : Block :=
  let tiles := (List.range 1024).map fun t => (s.eaTile t).valid.bind fun x => if x.1 + 1 = s.tick / 128 then some x.2 else none
  let stk := (List.range 24).map fun k =>
    if s.fld (F.SSU_STK_temp k) ≠ 0x8000 ∧ s.fld (F.SSU_STK_age k) ≤ s.fld F.LG_STACK_CFG_age_limit
    then some (s.fldI (F.SSU_STK_temp k)) else none
  let s := { s with tme := { s.tme with
    meas := tiles ++ stk, par := if s.flag F.TME_STATUS_data_src then some s.tmeBank else none
    stkLast := s.tme.stkSum, stkSum := ([], 0) } }
  match s.tme.swapAt with
  | some k =>
    s.when (decide (k ≤ s.tick)) fun s =>
      let s := { s with tme := { s.tme with swapAt := none } }
      let old := if s.flag F.TME_STATUS_bank_active then s.tme.bankB else s.tme.bankA
      let s := s.setFld F.TME_STATUS_bank_active (1 - s.fld F.TME_STATUS_bank_active)
      let s := (s.setFld F.TME_STATUS_data_src 1).setFld F.TME_STATUS_inactive_valid (b2n old.isSome)
      s.setFld F.TME_MODEL_ID_model_id s.tmeBank.modelId
  | none => s

/-! ## The step (R451-R456) -/

/-- Inlet temperature in use, with the default of a bank (R454). -/
def Block.tAmb (s : Block) (b : TmeBank) : Word :=
  if s.flag F.TME_AMB_amb_default then b.tAmb else Fp.ofScaled (s.fldI F.TME_AMB_t_amb) (-4)

/-- Power that enters node `i` in the step that ended, W (R451). -/
def Block.nodePower (s : Block) (i : Nat) : Word :=
  let x := fun k => Tab.get zeroI s.ea.lastStep k
  if i < 1024 then
    if (s.tile i).isolated then 0 else Fp.ofScaled (256 * x i + x (1028 + i / 256)) (-29)
  else if i < 1088 then Fp.ofScaled (x (1024 + (i - 1024) / 16)) (-25)
  else if i < 1112 then 
    Fp.div (Fp.ofInt (s.tme.stkLast.1.getD (i - 1088) 0)) (Fp.ofInt (1000 * max 1 s.tme.stkLast.2))
  else if i = 1116 ∨ i = 1117 then Fp.div (Fp.ofScaled (x (1032 + (i - 1116))) (-18)) (Fp.ofInt 1000)
  else 0

/-- One substep of the network, every node from the temperatures at its start (R452). -/
def tmeSub (nodes : List TmeNode) (p : Array Word) (dt amb : Word) (t : List Word) : List Word :=
  let a := t.toArray
  nodes.zipIdx.map fun x =>
    let ti := a.getD x.2 0
    let q := Fp.fma x.1.gAmb (Fp.sub amb ti) (p.getD x.2 0)
    let q := x.1.nb.foldl (fun q n => Fp.fma n.2 (Fp.sub (a.getD n.1 0) ti) q) q
    Fp.fma (Fp.mul dt x.1.cInv) q ti

/-- The lid zone of a node of class 0-2 (R462). -/
def lidOf (i : Nat) : Nat :=
  1112 + (if i < 1024 then i / 256 else if i < 1088 then (i - 1024) / 16 else (i - 1088) / 6)

/-- Forecast temperature of any node: a fast node keeps its rise above its lid zone. -/
def fcTemp (now : Array Word) (f : List Word) (j : Nat) : Word :=
  if 1112 ≤ j then f.getD (j - 1112) 0
  else
    let z := lidOf j
    Fp.sub (Fp.add (now.getD j 0) (f.getD (z - 1112) 0)) (now.getD z 0)

/-- One forecast step over the eight slow nodes, in order. -/
def fcStep (nodes : List TmeNode) (p : List Word) (dt amb : Word) (now : Array Word) (f : List Word) : List Word :=
  (nodes.drop 1112).zipIdx.foldl (fun f x =>
    let ti := f.getD x.2 0
    let q := Fp.fma x.1.gAmb (Fp.sub amb ti) (p.getD x.2 0)
    let q := x.1.nb.foldl (fun q n => Fp.fma n.2 (Fp.sub (fcTemp now f n.1) ti) q) q
    f.set x.2 (Fp.fma (Fp.mul dt x.1.cInv) q ti)) f

/-- A step in Deep: the slow nodes by R462 with dt of one step, and every fast node its rise above its lid zone
(Table 18-4).
Marks: DEDUCED, log entry 35. -/
def tmeDeep (nodes : List TmeNode) (p : Array Word) (amb : Word) (t : List Word) : List Word :=
  let a := t.toArray
  let f := fcStep nodes ((List.range 8).map fun j => p.getD (1112 + j) 0) (dtSub 1) amb a (t.drop 1112)
  (List.range 1120).map fun j => fcTemp a f j

/-- The mean of a bonded-memory node's four sensors in the record of step `k` (R453). -/
def Block.bmemMeas (s : Block) (k j : Nat) : Option Word :=
  let l := (List.range 4).filterMap fun q =>
    let x := Tab.get (fun _ => (0, none)) s.tme.bmem (4 * j + q)
    if x.1 = k then x.2 else none
  if l.isEmpty then none else some (Fp.div (Fp.ofScaled (sumI l) (-4)) (Fp.ofInt l.length))

/-- The reading of a node, degrees, `none` without a valid one (R453). -/
def Block.nodeMeas (s : Block) (k i : Nat) : Option Word :=
  if i < 1024 then (s.tme.meas.getD i none).map fun r => Fp.ofScaled r (-4)
  else if i < 1088 then s.bmemMeas k (i - 1024)
  else if i < 1112 then (s.tme.meas.getD (i - 64) none).map fun r => Fp.ofScaled r (-4)
  else none

/-- The temperatures of the first step (R456). -/
def Block.tmeStart (s : Block) (b : TmeBank) (k : Nat) : List Word :=
  let l := (s.tme.meas.take 1024).filterMap id
  let rest := if l.isEmpty then s.tAmb b else Fp.div (Fp.ofScaled (sumI l) (-4)) (Fp.ofInt l.length)
  (List.range 1120).map fun i => (s.nodeMeas k i).getD rest

/-- The sensor of a tile misbehaves for one more step (R443): runs of deviation and of one reading under changing
power, counted in pairs of steps, and whether it becomes suspect.
Marks: DEDUCED, log entry 33. -/
def Block.suspectTile (s : Block) (t : Nat) (r : Option Word) : Bool × Block :=
  let m := s.tme.meas.getD t none
  let a := Tab.get zeroI s.ea.lastStep t
  let was := Tab.get zeroI s.tme.lastA t
  let dev := match r with
    | some x => if Fp.lt (Fp.ofInt (s.fld F.TME_CFG_sens_dev)) (Fp.abs x) then Tab.get zeroN s.tme.dev t + 1 else 0
    | none => 0
  let moved := decide (was.natAbs < 10 * (a - was).natAbs)
  let same := if m.isSome && m == Tab.get (fun _ => none) s.tme.lastR t && moved then
    Tab.get zeroN s.tme.same t + 1 else 0
  (decide (16 ≤ dev) || decide (1023 ≤ same), { s with tme := { s.tme with
    dev := Tab.set zeroN s.tme.dev t (min 16 dev)
    same := Tab.set zeroN s.tme.same t (min 1023 same)
    lastR := Tab.set (fun _ => none) s.tme.lastR t m
    lastA := Tab.set zeroI s.tme.lastA t a } })

/-- Compute the step that ended at boundary number `k` (Table 10-3 steps 3-5).
Marks: DEDUCED, log entry 32. -/
def Block.tmeCompute (s : Block) (k : Nat) : Block :=
  let b := s.tme.par.getD romBank
  let init := s.tme.t.isEmpty
  let t0 := if init then s.tmeStart b k else s.tme.t
  let p := ((List.range 1120).map s.nodePower).toArray
  let amb := s.tAmb b
  let hold := s.tme.ecc
  let t1 := if hold then t0 else if s.inDeep then tmeDeep b.nodes p amb t0 else (List.range b.nSub).foldl (fun t _ => tmeSub b.nodes p (dtSub b.nSub) amb t) t0
  let r := t1.zipIdx.map fun x => (s.nodeMeas k x.2).map fun m => Fp.sub m x.1
  let obs := s.flag F.TME_CTRL_obs_en && !hold
  let t2 := t1.zipIdx.map fun x =>
    match r.getD x.2 none with
    | some e => if obs && !(decide (x.2 < 1024) && (s.tile x.2).suspect) then Fp.fma b.kObs e x.1 else x.1
    | none => x.1
  let worst := maxN ((r.take 1024).zipIdx.map fun e => match e.1.filter fun _ => !(s.tile e.2).suspect with | some x => (Fp.roundScaled (Fp.abs x) 2).toNat | none => 0)
  let res := (List.range 1024).foldl (fun (acc : List Nat × Block) t =>
    let x := acc.2.suspectTile t (r.getD t none)
    (if x.1 then acc.1 ++ [t] else acc.1, x.2)) ([], s)
  let s := res.2
  let z := fun i => Tab.get zeroI s.ea.lastStep (1032 + i)
  let out : TmeOut := ⟨k, t2, worst, res.1, s.tme.clr, hold⟩
  { s with tme := { s.tme with
    t := t2
    first := if init then s.tick else s.tme.first
    seen := k
    next := some out
    ecc := false
    clr := false
    zone := (z 0, z 1) :: s.tme.zone.take 63 } }

/-- S + 4,096 ns: inputs frozen and the step computed, once (R455). -/
def execTmeStep (now : Ft) (s : State) : Host.Outcome State Fault Refusal :=
  s.on fun s =>
    let s := s.advance now
    let k := s.tick / 128
    s.when (s.time.ticking && decide (4 ≤ s.tick % 128) && decide (s.tme.seen < k)) fun s => s.tmeCompute k

/-- Mark or clear the suspect mark of a tile: register, map, Relay and source 2.1 (R443). -/
def Block.setSuspect (s : Block) (t : Nat) (on : Bool) : Block :=
  let s := (s.setMapBit (F.TME_SUSPECT_map (t / 32)) (t % 32) on).setFld (F.POST_TSENS_suspect t) (b2n on)
  (s.setTile t { s.tile t with suspect := on }).follow 2 1 t on

/-- The tiles marked suspect. -/
def Block.suspects (s : Block) : List Nat :=
  (List.range 1024).filter fun t => bit (s.fld (F.TME_SUSPECT_map (t / 32))) (t % 32)

/-- S + 65,536 ns: temperatures, resid_max and marks become visible on one edge (R455). -/
def execTmeResultsVisible (now : Ft) (s : State) : Host.Outcome State Fault Refusal :=
  s.on fun s =>
    let s := s.advance now
    match s.tme.next with
    | none => s
    | some r =>
      s.when (decide (128 * r.step + 64 ≤ s.tick)) fun s =>
        let s := { s with tme := { s.tme with next := none } }
        let s := s.setFld F.TME_LAST_STEP_ft (131072 * r.step)
        let s := s.forAll r.t.zipIdx fun s x =>
          s.setFld (F.TME_NODE_T_temp x.2) (ofSigned 16 (satS 16 (Fp.roundScaled x.1 4)))
        let s := s.setSat F.TME_STATUS_resid_max r.resid
        let s := if r.step % 128 = 0 then { s with tme := { s.tme with
            fcIn := some (r.step / 128, (List.range 1120).map fun i => s.fldI (F.TME_NODE_T_temp i), s.tme.zone) } } else s
        let s := if r.ecc then (s.setFld F.TME_STATUS_ecc_seen 1).raise 3 0 0 else s
        let s := if r.clr then (s.forAll s.suspects fun s t => s.setSuspect t false).setFld F.TME_CTRL_suspect_clr 0
          else s
        let s := s.forAll r.sus fun s t => s.setSuspect t true
        let s := s.setFld F.TME_STATUS_n_suspect s.suspects.length
        let s := s.when (Nat.ble (s.tme.first + 1048576) s.tick) fun s => s.setFld F.TME_STATUS_warm 1
        s.coolUpdate

/-- suspect_clr: every mark clears at the next step (R471). -/
def Block.suspectClr (s : Block) : Block :=
  { s with tme := { s.tme with clr := true } }.setFld F.TME_CTRL_suspect_clr 1

def execSuspectClr (s : State) : Host.Outcome State Fault Refusal := s.on fun s => s.suspectClr

/-- A report of t_amb is older than amb_age seconds (R454). -/
def execAmbientAgeExpiry (now : Ft) (s : State) : Host.Outcome State Fault Refusal :=
  s.on fun s =>
    let s := s.advance now
    s.when (!s.flag F.TME_AMB_amb_default &&
      decide (s.tme.ambAt.toNat + s.fld F.TME_AMB_amb_age * 1000000000 < s.now)) fun s =>
      s.setFld F.TME_AMB_amb_default 1

/-! ## Forecasts (R461-R464) -/

/-- The hottest of some nodes in a forecast: node and temperature in 1/16 degree. -/
def fcHottest (now : Array Word) (f : List Word) (l : List Nat) : Nat × Int :=
  l.foldl (fun b j =>
    let v := Fp.roundScaled (fcTemp now f j) 4
    if b.2 < v then (j, v) else b) (l.headD 0, -32768)

/-- Form the forecast of a horizon and write its registers (R463). -/
def Block.fcHorizon (s : Block) (now : Array Word) (f : List Word) (h : Nat) : Block :=
  let tile := fcHottest now f (List.range 1024)
  let mem := fcHottest now f ((List.range 64).map (1024 + ·))
  let stk := fcHottest now f (((List.range 24).filter s.stackPresent).map (1088 + ·))
  let m0 := tile.2 - s.fld F.LG_TTHR0_EFF_control
  let m1 := mem.2 - s.fld F.LG_TTHR1_EFF_bmem
  let m2 := stk.2 - s.fld F.LG_TTHR2_EFF_stack
  let m := max m0 (max m1 m2)
  let s := (s.setFldS (F.TME_FC_TILE_temp h) tile.2).setFld (F.TME_FC_TILE_tile h) tile.1
  (s.setFldS (F.TME_FC_MARGIN_m h) m).setFld (F.TME_FC_MARGIN_cls h) (if m = m0 then 0 else if m = m1 then 1 else 2)

/-- Core 2 forms the forecast of the period that began at the last boundary F with FT[23:0] = 0, from the temperatures
visible at F + 65,536 ns (R461-R463). -/
def execForecastPeriod (now : Ft) (s : State) : Host.Outcome State Fault Refusal :=
  s.on fun s =>
    let s := s.advance now
    let k := s.tick / 16384
    let x := s.tme.fcIn.getD (0, [], [])
    s.when (s.coreRuns 2 && s.tme.fcIn.isSome && x.1 == k && s.tme.formed != some k) fun s =>
      let b := s.tmeBank
      let a := (x.2.1.map fun t => Fp.ofScaled t (-4)).toArray
      let n := max 1 x.2.2.length
      let mean (l : List Int) : Word := Fp.div (Fp.ofScaled (sumI l) (-18)) (Fp.ofInt (1000 * n))
      let p : List Word := [0, 0, 0, 0, mean (x.2.2.map (·.1)), mean (x.2.2.map (·.2)), 0, 0]
      let f0 := (List.range 8).map fun j => a.getD (1112 + j) 0
      let run (f : List Word) (n : Nat) : List Word :=
        (List.range n).foldl (fun f _ => fcStep b.nodes p dtFc (s.tAmb b) a f) f
      let f1 := run f0 15
      let f2 := run f1 15
      let f3 := run f2 30
      let f4 := run f3 60
      let s := ((s.fcHorizon a f1 0).fcHorizon a f2 1).fcHorizon a f3 2
      let s := s.fcHorizon a f4 3
      { s with tme := { s.tme with formed := some k } }

/-! ## Commit, cooling and derate (R463-R469) -/

/-- R466: demand, request and the count below the release margin, from the margin at cool_horizon.
Marks: DEDUCED, log entry 33. -/
def Block.coolCommit (s : Block) : Block :=
  let m := s.fldI (F.TME_FC_MARGIN_m (s.fld F.TME_CFG_cool_horizon))
  let cm : Int := 4 * s.fld F.TME_CFG_cool_margin
  let span : Int := 4 * s.fld F.TME_CFG_cool_span
  let dem := (clampI 0 100 ((100 * (m + cm + span)).fdiv span)).toNat
  let below := if m < -cm - 32 then min 8 (s.tme.below + 1) else 0
  let req := if -cm ≤ m then true else if 8 ≤ below then false else s.tme.fcReq
  { s with tme := { s.tme with fcDem := dem, fcReq := req, below := below } }.setFld F.TME_COOL_below
    (b2n (decide (0 < below)))

/-- Put an allowance into the firmware slots of L2 and L3, no higher than their policy values; 0 when it binds
neither.
Marks: DEDUCED, log entry 36. -/
def Block.setDerate (s : Block) (a p2 p3 : Nat) : Block :=
  let s := (s.setFld (F.LG_LIM_thr 0 0) (min p2 a)).setFld (F.LG_LIM_thr 1 0) (min p3 a)
  let on := decide (a < p2) || decide (a < p3)
  { s with tme := { s.tme with derate := if on then some (a, p2, p3) else none } }.setFld F.TME_DERATE_allow_mw
    (if on then a else 0)

/-- R468 and R469: firmware's derate at a commit.
Marks: DEDUCED, log entry 36. -/
def Block.derateCommit (s : Block) : Block :=
  let m := s.fldI (F.TME_FC_MARGIN_m 3)
  let fm : Int := 4 * s.fld F.TME_CFG_fc_margin
  let p2 := match s.tme.derate with | some x => x.2.1 | none => s.fld (F.LG_LIM_thr 0 0)
  let p3 := match s.tme.derate with | some x => x.2.2 | none => s.fld (F.LG_LIM_thr 1 0)
  if -fm < m then
    if !s.flag F.TME_CTRL_derate_en then s
    else
      let cut := Fp.floorScaled (Fp.mul (Fp.div (Fp.ofScaled (m + fm) (-4)) s.tmeBank.sens) (Fp.ofInt 1000)) 0
      let a := max 300000 ((s.fld (F.LG_AVG_avg_mw 0) : Int) - cut).toNat
      s.setDerate a p2 p3
  else if m ≤ -fm - 32 then
    match s.tme.derate with
    | some x => s.setDerate (x.1 + 10000) p2 p3
    | none => s
  else s

/-- A forecast commit: discarded when its period has ended, else the first clears fc_stale and fc_missed (R463,
R464).
Marks: DEDUCED, log entry 34. -/
def Block.fcCommit (s : Block) : Block :=
  let k := s.tick / 16384
  let late := match s.tme.formed with | some p => decide (p < k) | none => false
  if late then { s with tme := { s.tme with formed := none } }
  else
    let s := { s with tme := { s.tme with committed := true } }
    let s := (s.setFld F.TME_STATUS_fc_missed 0).setFld F.TME_STATUS_fc_stale 0
    ((s.unraise 3 1 0).coolCommit.coolUpdate).derateCommit

def execFcCommit (now : Ft) (s : State) : Host.Outcome State Fault Refusal :=
  s.on fun s => (s.advance now).when (s.advance now |>.coreRuns 2) Block.fcCommit

/-- A forecast boundary: a period without a commit is counted (R464).
Marks: DEDUCED, log entry 34. -/
def Block.fcBoundary (s : Block) : Block :=
  let s := if s.tme.committed then s else s.incSat F.TME_STATUS_fc_missed
  { s with tme := { s.tme with committed := false } }

/-- Four periods in a row without a commit (R464). -/
def execForecastStale (now : Ft) (s : State) : Host.Outcome State Fault Refusal :=
  s.on fun s =>
    let s := s.advance now
    s.when (decide (4 ≤ s.fld F.TME_STATUS_fc_missed) && !s.fc.active.contains (3, 1, 0)) fun s =>
      ((s.setFld F.TME_STATUS_fc_stale 1).raise 3 1 0).coolUpdate

end Sys2Proof.Machine
end

