-- ==== Sys2Proof/Machine/Lending.lean ====
section
/-! DEFINITION. Budget lending: the exchange of an offer interval, leases and the L5 adjustment
(11_budget_lending.md). -/
namespace Sys2Proof.Machine
open Sys2Proof

/-! ## Views -/

/-- The offer interval of the present FT, and its beginning (R98, R486). -/
def Block.interval (s : Block) : Nat := s.now / 134217728
def Block.intervalAt (s : Block) : Nat := s.interval * 134217728

/-- Firmware core 1 runs a member in LOCKED (R492). -/
def Block.lending (s : Block) : Bool := decide (2 ≤ s.lend.cfg.n) && s.timeState == 1 && s.coreRuns 1 && !s.lend.adopt

/-- The member's own share, mW. -/
def Block.share (s : Block) : Nat := s.lend.cfg.shares.getD s.lend.cfg.self 0

def leaseSum (l : List Lease) (lent : Bool) : Nat := sumN ((l.filter (·.lent == lent)).map (·.amount))

/-- What the member has borrowed and in force in a tick, mW. -/
def Block.borrowed (s : Block) : Nat := leaseSum (s.lend.leases.filter fun x => decide (x.start ≤ s.tick ∧ s.tick < x.stop)) false

/-- Show roles and sums (Table 11-5). -/
def Block.showLend (s : Block) : Block :=
  let l := s.lend.leases
  let lent := leaseSum l true
  let bor := s.borrowed
  let role := if l.any (·.lent) then 1 else if l.isEmpty then 0 else 2
  let s := (s.setSat F.HIU_LEND_STATUS_leases l.length).setFld F.HIU_LEND_STATUS_role role
  (s.setFld F.HIU_LEND_LENT_lent_mw lent).setFld F.HIU_LEND_BORROWED_borrowed_mw bor

/-- A write of LG_L5_ADJ: stored as 0 once its expiry has passed, or when positive outside LOCKED (R265, R484).
Marks: DEDUCED, log entry 42. -/
def Block.writeAdj (s : Block) (v : Int) (expiry : Nat) : Block :=
  let excess := decide (expiry + (if v < 0 then 1 else 0) ≤ s.tick)
  let v := if excess ∨ (0 < v ∧ s.timeState ≠ 1) then 0 else v
  let s := (s.setFld F.LG_L5_EXPIRY_tick expiry).setFldS F.LG_L5_ADJ_adj_mw v
  { s with lg := { s.lg with adjWrite := some s.tick } }

/-! ## Messages (R491, R492) -/

/-- A message of the member (Table 11-2). -/
def Block.lendMsg (s : Block) (type dst amount want : Nat) : List Byte :=
  let b := leBytes 1 type ++ leBytes 1 1 ++ leBytes 2 s.lend.cfg.group ++ leBytes 1 s.lend.cfg.self ++ leBytes 1 dst ++
    leBytes 2 0 ++ leBytes 8 s.now ++ leBytes 4 (s.interval % 4294967296) ++ leBytes 4 amount ++ leBytes 4 want
  b ++ leBytes 4 (crc32 b)

/-- Send a message to a member on the fabric sideband.
Marks: DESIGN CHOICE, log entry 75. -/
def Block.lendSend (s : Block) (m : Nat) (b : List Byte) : Block :=
  if (s.stim 9 0).any (·.1 == 2) then s
  else { s with lend := { s.lend with tx := s.lend.tx ++ [(s.lend.cfg.nodes.getD m 0, b)] } }

/-- A lending fault with its event entry and count (R494). -/
def Block.lendDiscard (s : Block) (member type amount : Nat) : Block :=
  (((s.incSat F.HIU_LEND_RX_rx_discards).lendEntry 0 member type amount)).raise 21 0 member

/-- The checks of R492; `true` keeps the message. -/
def Block.lendOk (s : Block) (b : List Byte) : Bool :=
  let type := rdAt b 0 1
  let src := rdAt b 4 1
  let dst := rdAt b 5 1
  let c := s.lend.cfg
  b.length == 32 && rdAt b 28 4 == crc32 (b.take 28) && rdAt b 1 1 == 1 && rdAt b 2 2 == c.group &&
    decide (1 ≤ type) && decide (type ≤ 3) && decide (src < c.n) &&
    (dst == c.self || (type == 1 && dst == 255)) &&
    rdAt b 16 4 == s.interval % 4294967296 &&
    decide (s.intervalAt ≤ rdAt b 8 8) && decide (rdAt b 8 8 < s.intervalAt + 134217728) && s.timeState == 1 &&
    (type != 3 || s.lend.claims.any fun (x : Nat × Nat) => x.1 == src) &&
    !(type == 2 && decide (0 < s.lg.adj))

/-- An injection that drops incoming messages (Table 12-6, det 9): whether it takes this one. -/
def Block.lendDropped (s : Block) : Bool × Block :=
  match s.stim 9 0 with
  | some (1, _) => (true, s.setStim 9 0 none)
  | some (2, _) => (true, s)
  | _ => (false, s)

/-- A message goes through the checks of R492 to what its type does. -/
def Block.lendCheck (s : Block) (b : List Byte) (use : Block → Nat → Nat → Block) : Block :=
  let src := rdAt b 4 1
  if s.lendOk b then use s src (rdAt b 20 4) else s.lendDiscard (src % 4096) (rdAt b 0 1) (rdAt b 20 4)

/-- A message waits in the HIU for core 1; one that finds 32 there is dropped and counted (R808). -/
def Block.lendBuffer (s : Block) (b : List Byte) : Block :=
  if s.lend.buf.length < 32 then { s with lend := { s.lend with buf := s.lend.buf ++ [b] } }
  else s.incSat F.HIU_LEND_RX_rx_discards

/-- A message is received: core 1 takes it, or it waits for core 1.
Marks: DESIGN CHOICE, log entry 75. -/
def Block.lendReceive (s : Block) (b : List Byte) (use : Block → Nat → Nat → Block) : Block :=
  let d := s.lendDropped
  if d.1 then d.2
  else if s.lend.cfg.n < 2 ∨ s.lend.adopt then s
  else if !s.coreRuns 1 then s.lendBuffer b
  else s.lendCheck b use

/-! ## Configuration (R474-R478) -/

/-- The registers' configuration. -/
def Block.lendRegs (s : Block) : LendCfg where
  group := s.fld F.HIU_LEND_GROUP_group_id
  self := s.fld F.HIU_LEND_GROUP_self
  n := s.fld F.HIU_LEND_GROUP_n
  cap := s.fld F.HIU_LEND_CAP_cap_mw
  shares := (List.range 16).map fun m => s.fld (F.HIU_LEND_SHARE_share_mw m)
  nodes := (List.range 16).map fun m => s.fld (F.HIU_LEND_NODE_node m)

/-- A member's L4 management slot is its own: an L4 packet of P4 that waits for its tick changes nothing, and completes with
LOCKED (R476).
Marks: DEDUCED, log entry 41. -/
def Block.dropL4 (s : Block) : Block :=
  let mine (x : Nat × Sched) : Bool := match x.2 with | .limit 4 2 _ => true | _ => false
  let hit (j : Job) : Bool := j.out.isNone && j.pkt.opcode == 0x20 && j.pkt.onP4 && j.pkt.arg 0 1 == 4
  { s with
    time := { s.time with sched := s.time.sched.filter fun x => !mine x }
    hiu := { s.hiu with jobs := s.hiu.jobs.map fun (j : Job) => if hit j then { j with out := some ⟨0x14, 0, [], []⟩ } else j } }

/-- At X the waiting configuration takes effect, before the interval that begins there (R476, R477, R486). -/
def execGroupConfigEffect (now : Ft) (s : State) : Host.Outcome State Fault Refusal :=
  s.on fun s =>
    let s := s.advance now
    s.when (s.flag F.HIU_LEND_STATUS_pending && Nat.ble (s.fld F.HIU_LEND_X_ft) s.now) fun s =>
      let s := s.setFld F.HIU_LEND_STATUS_pending 0
      let had := s.lend.leases.any fun x => !x.lent
      let s := { s with lend := { s.lend with
        cfg := s.lendRegs, leases := s.lend.leases.filter (·.lent), offers := [], claims := [], rx := [], acks := []
        spare := 0, want := 0, interval := s.interval - 1 } }
      let s := if had then ((s.setFld F.LG_L5_ADJ_adj_mw 0).setAdj 0 4) else s
      let s := if s.lend.cfg.n = 0 then s
        else
          let s := s.dropL4.setFld (F.LG_LIM_thr 2 2) s.share
          s.setEff (F.LG_LIM_EFF_thr 2) 4 (s.limSlots 3) (s.limEff 3)
      s.keepThr.showLend

/-! ## The interval (R486-R490) -/

/-- Freeze the inputs of an interval and form the offer (R487). -/
def execOfferIntervalStart (now : Ft) (s : State) : Host.Outcome State Fault Refusal :=
  s.on fun s =>
    let s := s.advance now
    let free := s.lend.adopt && s.fld F.LG_L5_ADJ_adj_mw == 0 && decide (s.lend.interval < s.interval)
    let s := if free then { s with lend := { s.lend with adopt := false } } else s
    s.when (s.lending && decide (s.lend.interval < s.interval)) fun s =>
      let s := match s.stim 9 0 with
        | some (2, p) => s.setStim 9 0 (if p ≤ 1 then none else some (2, p - 1))
        | _ => s
      let share := s.share
      let lent := leaseSum s.lend.leases true
      let bor := leaseSum s.lend.leases false
      let avg3 := s.fld (F.LG_AVG_avg_mw 1)
      let avg4 := s.fld (F.LG_AVG_avg_mw 2)
      let top := min (s.fld (F.LG_LIM_EFF_thr 1)) (min 1100000 s.cP) - share
      let near := decide (s.thr4 ≤ avg4 + 1000 * s.fld F.HIU_LEND_CFG_want_margin)
      let want := if s.flag F.HIU_LEND_CFG_borrow_en ∧ lent = 0 ∧ (near ∨ 0 < s.lend.waitsLast) then
        min (1000 * s.fld F.HIU_LEND_CFG_want_step) (top - bor) else 0
      let keep := max avg3 avg4 + 1000 * s.fld F.HIU_LEND_CFG_lend_margin
      let spare := if s.flag F.HIU_LEND_CFG_lend_en ∧ want = 0 ∧ bor = 0 then
        min (share - 300000) (share - keep) - lent else 0
      { s with lend := { s.lend with
        interval := s.interval, spare := spare / 1000 * 1000, want := want / 1000 * 1000
        offered := false, claimed := false, decided := false
        offers := [], claims := [], rx := [], acks := [], tx := [] } }

/-- The interval whose inputs are frozen is the present one. -/
def Block.inInterval (s : Block) : Bool := s.lending && s.lend.interval == s.interval

/-- Member m sends its OFFER at O + m × 2^20 ns to every other member. -/
def execOfferSend (now : Ft) (s : State) : Host.Outcome State Fault Refusal :=
  s.on fun s =>
    let s := s.advance now
    let c := s.lend.cfg
    s.when (s.inInterval && !s.lend.offered && Nat.ble (s.intervalAt + c.self * 1048576) s.now) fun s =>
      let b := s.lendMsg 1 255 s.lend.spare s.lend.want
      let s := s.forAll ((List.range c.n).filter (· != c.self)) fun s m => s.lendSend m b
      { s with lend := { s.lend with offered := true } }

/-- An OFFER is kept until the offers close (Table 11-1 step 3). -/
def Block.takeOffer (bytes : List Byte) (s : Block) (src amount : Nat) : Block :=
  if rdAt bytes 0 1 ≠ 1 ∨ s.lend.claimed ∨ s.intervalAt + 16777216 < s.now ∨ src = s.lend.cfg.self then s
  else { s with lend := { s.lend with
    offers := s.lend.offers.filter (fun (x : Nat × Nat × Nat) => x.1 != src) ++ [(src, amount, rdAt bytes 24 4)] } }

def execOfferMessage (bytes : List Byte) (now : Ft) (s : State) : Host.Outcome State Fault Refusal :=
  s.on fun s => (s.advance now).lendReceive bytes (Block.takeOffer bytes)

/-- O + 2^24 ns: a member that wants computes its claims and sends its LEASE messages (R488). -/
def execClaimsCompute (now : Ft) (s : State) : Host.Outcome State Fault Refusal :=
  s.on fun s =>
    let s := s.advance now
    s.when (s.inInterval && !s.lend.claimed && Nat.ble (s.intervalAt + 16777216) s.now) fun s =>
      let s := { s with lend := { s.lend with claimed := true } }
      let l := s.lend.offers
      let tot := sumN (l.map (·.2.1))
      let w := sumN (l.map (·.2.2)) + s.lend.want
      let q := if w ≤ tot then s.lend.want else s.lend.want * tot / max 1 w
      let claims := ((l.filter fun (x : Nat × Nat × Nat) => decide (0 < x.2.1)).map fun x =>
        (x.1, q * x.2.1 / max 1 tot / 1000 * 1000)).filter fun (x : Nat × Nat) => decide (0 < x.2)
      if s.lend.want = 0 then s
      else
        let s := s.forAll claims fun s x => s.lendSend x.1 (s.lendMsg 2 x.1 x.2 0)
        { s with lend := { s.lend with claims := claims } }

/-- A LEASE is kept until the lender closes its claims (R489). -/
def Block.takeLease (bytes : List Byte) (s : Block) (src amount : Nat) : Block :=
  if rdAt bytes 0 1 ≠ 2 ∨ s.lend.decided ∨ s.intervalAt + 33554432 < s.now then s
  else { s with lend := { s.lend with
    rx := s.lend.rx.filter (fun (x : Nat × Nat) => x.1 != src) ++ [(src, amount)] } }

def execLeaseMessage (bytes : List Byte) (now : Ft) (s : State) : Host.Outcome State Fault Refusal :=
  s.on fun s => (s.advance now).lendReceive bytes (Block.takeLease bytes)

/-- Insert a claim by borrower index. -/
def insertClaim (x : Nat × Nat) : List (Nat × Nat) → List (Nat × Nat)
  | [] => [x]
  | y :: l => if x.1 ≤ y.1 then x :: y :: l else y :: insertClaim x l

/-- Grant claims in ascending order of borrower from the spare, in whole watts (R489). -/
def grantClaims : List (Nat × Nat) → Nat → List (Nat × Nat)
  | [], _ => []
  | (m, c) :: l, left =>
    let g := min c left / 1000 * 1000
    (m, g) :: grantClaims l (left - g)

/-- Firmware writes the lender's reduction: minus the leases lent, to the latest end among them (R480). -/
def Block.writeLent (s : Block) : Block :=
  let l := s.lend.leases.filter (·.lent)
  let e := if l.isEmpty then s.fld F.LG_L5_EXPIRY_tick else maxN (l.map (·.stop))
  (s.writeAdj (-(leaseSum l true : Nat)) e).showLend

/-- O + 2^25 ns: the lender decides and writes its reduction; once that is in force its ACKs go out (R489). -/
def execLenderDecide (now : Ft) (s : State) : Host.Outcome State Fault Refusal :=
  s.on fun s =>
    let s := s.advance now
    let o := s.intervalAt
    s.when (s.inInterval && Nat.ble (o + 33554432) s.now) fun s =>
      if !s.lend.decided then
        let grants := grantClaims (s.lend.rx.foldl (fun l x => insertClaim x l) []) s.lend.spare
        let start := o / 1024 + 131072
        let new := (grants.filter fun (x : Nat × Nat) => decide (0 < x.2)).map fun x =>
          (⟨true, x.1, x.2, start, start + 1048576⟩ : Lease)
        let s := { s with lend := { s.lend with
          decided := true, acks := grants, leases := s.lend.leases ++ new } }
        if new.isEmpty then s else (s.cntPkg 21 new.length).writeLent
      else if s.lend.acks.isEmpty ∨ s.lg.adj ≠ -(leaseSum s.lend.leases true : Nat) then s
      else
        let drop := match s.stim 9 0 with | some (m, _) => m == 0 | none => false
        let s := if drop then s.setStim 9 0 none else s
        let s := s.forAll (if drop then s.lend.acks.drop 1 else s.lend.acks) fun s (x : Nat × Nat) =>
          s.lendSend x.1 (s.lendMsg 3 x.1 x.2 0)
        { s with lend := { s.lend with acks := [] } }

/-- An ACK accepted by O + 2^26 ns forms a lease; a later one is discarded and counted (R490). -/
def Block.takeAck (bytes : List Byte) (s : Block) (src amount : Nat) : Block :=
  if rdAt bytes 0 1 ≠ 3 then s
  else if s.intervalAt + 67108864 < s.now then
    ((s.incSat F.HIU_LEND_RX_late_acks).lendEntry 1 src 3 amount).raise 21 1 src
  else
    let start := s.intervalAt / 1024 + 131072
    let s := { s with lend := { s.lend with claims := s.lend.claims.filter fun (x : Nat × Nat) => x.1 != src } }
    if amount = 0 then s
    else ({ s with lend := { s.lend with
      leases := s.lend.leases ++ [(⟨false, src, amount, start, start + 1048576⟩ : Lease)] } }.cntPkg 21).showLend

def execAckMessage (bytes : List Byte) (now : Ft) (s : State) : Host.Outcome State Fault Refusal :=
  s.on fun s => (s.advance now).lendReceive bytes (Block.takeAck bytes)

/-- Messages that waited for core 1 are taken once it runs, at the next tick boundary.
Marks: DESIGN CHOICE, log entry 75. -/
def Block.lendTake (s : Block) : Block :=
  if s.lend.buf.isEmpty || !s.coreRuns 1 then s
  else ({ s with lend := { s.lend with buf := [] } }).forAll s.lend.buf fun s b =>
    if s.lend.cfg.n < 2 then s
    else s.lendCheck b fun s src amount => match rdAt b 0 1 with
      | 1 => Block.takeOffer b s src amount
      | 2 => Block.takeLease b s src amount
      | _ => Block.takeAck b s src amount

/-- The tick before an offer boundary: the borrower writes the sum of its leases for the next interval (R480). -/
def execBorrowerAdjWrite (now : Ft) (s : State) : Host.Outcome State Fault Refusal :=
  s.on fun s =>
    let s := s.advance now
    let nxt := s.tick + 1
    s.when (s.lending && nxt % 131072 == 0 && s.lend.leases.any fun x => !x.lent) fun s =>
      let keep := s.lend.leases.filter fun x => x.lent || decide (nxt < x.stop)
      let now_ := keep.filter fun x => !x.lent && decide (x.start ≤ nxt)
      let s := { s with lend := { s.lend with leases := keep } }
      (s.writeAdj (leaseSum now_ false : Nat) (nxt + 131072)).showLend

/-- In the tick after the end of a lease the lender writes the smaller sum; outside LOCKED the reduction holds (R480, R483,
R493). -/
def execLeaseRelease (now : Ft) (s : State) : Host.Outcome State Fault Refusal :=
  s.on fun s =>
    let s := s.advance now
    s.when (s.coreRuns 1 && s.timeState == 1 && s.lend.leases.any fun x => x.lent && decide (x.stop ≤ s.tick)) fun s =>
      let s := { s with lend := { s.lend with
        leases := s.lend.leases.filter fun x => !(x.lent && decide (x.stop ≤ s.tick)) } }
      s.writeLent

end Sys2Proof.Machine
end

