-- ==== Sys2Proof/Machine/Firmware.lean ====
section
/-! DEFINITION. The firmware complex: watchdogs, crashes and restarts, dumps, images, live update and debug
(13_firmware_complex.md). -/
namespace Sys2Proof.Machine
open Sys2Proof

/-! ## The memories (Tables 13-1 and 13-2) -/

/-- A write of a word of an SRAM: the injection that waits there flips one bit of it, or two (Table 12-6). -/
def Block.eccWrite (s : Block) (sram addr : Nat) : Block :=
  let a := addr / 8 * 8
  let s := { s with btc := { s.btc with weak := s.btc.weak.filter (· != (sram, a)) } }
  match s.stim 4 sram with
  | some (0, p) => { s with btc := { s.btc with weak := s.btc.weak ++ [(sram, a)] } }.setStim 4 sram (some (2, p))
  | some (1, p) => { s with btc := { s.btc with bad := s.btc.bad ++ [(sram, a, false)] } }.setStim 4 sram (some (3, p))
  | _ => s

/-- Bytes that lie in a part of the shared SRAM give way to what is written there. -/
def Block.clearSram (s : Block) (lo hi : Nat) : Block :=
  { s with fwc := { s.fwc with sram := s.fwc.sram.filter fun p => !(decide (lo ≤ p.1) && decide (p.1 < hi)) } }

/-! ## The event log (R558) -/

/-- A core writes an event; the oldest entry of a full ring is overwritten.
Marks: DESIGN CHOICE, log entry 130. -/
def Block.logEvent (s : Block) (core : Nat) (ft : Ft) : Block :=
  let at_ := 0x1F0000 + 16 * (s.fwc.elogAt % 4096)
  let s := (s.clearSram at_ (at_ + 16)).eccWrite 0 at_
  { s with fwc := { s.fwc with
    elog := ⟨ft, core, s.fwc.elogSeq⟩ :: s.fwc.elog.take 4095
    elogAt := s.fwc.elogAt + 1, elogSeq := s.fwc.elogSeq + 1 } }

/-- The 16 bytes of an entry (Table 13-6). -/
def LogEv.bytes (e : LogEv) : List Byte := u64 e.ft.toNat ++ u8 e.core ++ leBytes 7 (Config.eventWord e.n).toNat

/-- The entry in a place of the ring, once one has been written there. -/
def FwcS.eventAt (x : FwcS) (place : Nat) : Option LogEv :=
  if place < x.elogAt then x.elog[(x.elogAt - 1 - place) % 4096]? else none

/-- The image initialises the data region and the event log at its start (R543). -/
def FwcS.initLog (x : FwcS) : FwcS :=
  { x with elog := [], elogAt := 0, sram := x.sram.filter fun p => decide (p.1 < 0x100000) }

/-! ## Cores -/

def Block.setCore (s : Block) (c st : Nat) : Block :=
  { s with fwc := { s.fwc with since := s.fwc.since.set c s.now } }.setFld ⟨0x3000, 3 * c, 3⟩ st

/-- The supervisor core runs. -/
def Block.supRuns (s : Block) : Bool := s.coreState 4 == 0

def Block.updState (s : Block) : Nat := s.fld F.FWC_UPD_STATUS_state

/-- A watchdog's count starts from zero (R550). -/
def Block.wdRestart (s : Block) (c : Nat) : Block := { s with fwc := { s.fwc with wdAt := s.fwc.wdAt.set c s.now } }

/-- A service: the count starts from zero, and a new timeout takes effect (R549). -/
def Block.wdServe (s : Block) (c : Nat) : Block :=
  let s := s.wdRestart c
  { s with fwc := { s.fwc with wdTo := s.fwc.wdTo.set c (s.fld (F.FWC_WDT_timeout_ms c)) } }

/-- A core serves its watchdog; an injection may have the next service ignored (R549, Table 12-6 det 5). -/
def execWatchdogService (core : CoreId) (now : Ft) (s : State) : Host.Outcome State Fault Refusal :=
  s.on fun s =>
    let s := s.advance now
    let c := core.val
    s.when (s.coreState c == 0) fun s => match s.stim 5 c with
      | some (m, p) => if m = 7 then s.wdServe c else s.setStim 5 c (some (7, p))
      | none => s.wdServe c

/-- The watchdog of a core has run out: the core runs, no update or halt suspends it, and no service came in time
(R549-R551). -/
def Block.wdOver (s : Block) (c : Nat) : Bool :=
  s.coreState c == 0 && s.coreState 4 != 1 && (c == 4 || decide (s.updState < 3)) &&
    Nat.ble (s.fwc.wdAt.getD c 0 + s.fwc.wdTo.getD c 0 * 1000000) s.now

/-- The drain stop follows the halted cores; it shows at once, and ends at a window boundary (R578). -/
def Block.drainFollow (s : Block) : Block :=
  let on := s.flag F.FWC_DBG_CTRL_drain_on_break && s.fld F.FWC_DBG_STATUS_halted != 0
  let s := { s with silo := { s.silo with drainStop := on } }
  if on then s.setFld F.FWC_DBG_STATUS_drain_active 1 else s

/-- A control core crashes (R552, R553).
Marks: DEDUCED, log entry 62. -/
def Block.crash (s : Block) (c cause : Nat) : Block :=
  let s := (s.setCore c 2).setFld (F.FWC_CORE_last_cause c) cause
  let s := (s.incSat (F.FWC_CORE_crashes c)).cntPkg 19
  let near := (s.fwc.crashes.getD c []).filter fun f => Nat.ble s.now (f + 10000000000)
  let s := { s with fwc := { s.fwc with
    crashes := s.fwc.crashes.set c (s.now :: near)
    detect := s.fwc.detect.set c s.now
    dumping := s.fwc.dumping ++ [(⟨c, cause, s.ft, s.fwc.elog⟩ : Frozen)]
    due := s.fwc.due ++ [c]
    returning := s.fwc.returning.filter fun (x : Nat × Nat) => x.1 != c } }
  s.raise 15 (if cause = 0 then 0 else 1) c

def execWatchdogExpiry (core : Fin 4) (now : Ft) (s : State) : Host.Outcome State Fault Refusal :=
  s.on fun s =>
    let s := s.advance now
    let c := core.val
    s.when (s.wdOver c) fun s =>
      let inj := (s.stim 5 c).any (·.1 == 7)
      let s := s.injecting inj fun s => (s.incSat (F.FWC_WDT_expiries c)).crash c 0
      if inj then s.setStim 5 c none else s

/-- An exception, a bus error or a declared inconsistency, causes 1-3; it wins over a halt of the same edge (R552). -/
def execCoreException (core : Fin 4) (cause : Fin 3) (now : Ft) (s : State) : Host.Outcome State Fault Refusal :=
  s.on fun s =>
    let s := s.advance now
    let c := core.val
    if s.coreState c = 1 ∧ s.fwc.since.getD c 0 = s.now then
      ((s.setMapBit F.FWC_DBG_STATUS_halted c false).drainFollow).crash c (cause.val + 1)
    else s.when (s.coreState c == 0 || s.coreState c == 5) fun s => s.crash c (cause.val + 1)

/-- Where the tasks of home core `h` go (R547). -/
def Block.hostFor (s : Block) (h : Nat) : Nat :=
  if s.coreState (h ^^^ 1) = 0 then h ^^^ 1
  else ((List.range 4).find? fun c => s.coreState c == 0).getD 7

/-- The supervisor rebinds every task set that ran on a core. -/
def Block.rebind (s : Block) (c : Nat) : Block :=
  let homes := (List.range 4).filter fun h => s.fld (F.FWC_CORE_bound_to h) == c
  let s := s.forAll homes fun s h => s.setFld (F.FWC_CORE_bound_to h) (s.hostFor h)
  { s with fwc := { s.fwc with due := s.fwc.due.filter (· != c) } }

/-- Task sets that run nowhere go to a core that runs now (R547); those of a core that has just become ready wait for their
return. -/
def Block.bindWaiting (s : Block) : Block :=
  let homes := (List.range 4).filter fun h =>
    s.fld (F.FWC_CORE_bound_to h) == 7 && !(s.fwc.returning.any fun (x : Nat × Nat) => x.1 == h)
  if s.supRuns then s.forAll homes fun s h => s.setFld (F.FWC_CORE_bound_to h) (s.hostFor h) else s

def execTaskRebind (core : Fin 4) (s : State) : Host.Outcome State Fault Refusal :=
  s.on fun s => s.when (s.supRuns && s.fwc.due.contains core.val) fun s => s.rebind core.val

/-- Put a core in held reset (R556).
Marks: DEDUCED, log entries 12 and 62. -/
def Block.holdCore (s : Block) (c src : Nat) : Block :=
  ((s.setCore c 4).setFld (F.FWC_CORE_held c) 1).raise 15 src (if src = 3 then 0 else c)

/-- The slot the next dump goes to (R559). -/
def Block.dumpSlot (s : Block) : Nat :=
  if !s.flag F.FWC_GRANARY_slot0_valid then 0 else if !s.flag F.FWC_GRANARY_slot1_valid then 1
  else s.fld F.FWC_GRANARY_newer

def slotValid (k : Nat) : Fld := if k = 0 then F.FWC_GRANARY_slot0_valid else F.FWC_GRANARY_slot1_valid
def slotClr (k : Nat) : Fld := if k = 0 then F.FWC_GRANARY_CLR_slot0_clr else F.FWC_GRANARY_CLR_slot1_clr

/-- The dump that is being written is lost: its slot is not valid (R559, Table 19-2). -/
def Block.slotLost (s : Block) : Block :=
  let k := s.dumpSlot
  let s := { s with fwc := { s.fwc with dumps := s.fwc.dumps.set k none } }
  (s.setFld (slotValid k) 0).setFld (slotClr k) 0

/-- A crashed core whose dump is written is reset, or held at its third crash within 10 s; a halted supervisor defers
it (R555, R556, R577). -/
def Block.resetCrashed (s : Block) (c : Nat) : Block :=
  if s.coreState c ≠ 2 ∨ s.coreState 4 = 1 ∨ s.fwc.dumping.any (fun x => x.core == c) then s
  else if c < 4 ∧ 3 ≤ (s.fwc.crashes.getD c []).length then s.holdCore c 1
  else s.setCore c 3

/-- A dump is written; the core is reset, or held at its third crash within 10 s (R555-R557, R559). -/
def Block.dumpDone (s : Block) (x : Frozen) : Block :=
  let c := x.core
  let k := s.dumpSlot
  let s := if s.flag (slotValid k) then s.incSat F.FWC_GRANARY_dump_ovf else s
  let d : Dump := ⟨c, x.cause, x.ft, s.fld F.FWC_IMAGE_version, s.fwc.seq, s.freeCounter, x.log⟩
  let s := { s with
    freeCounter := s.freeCounter + 98304
    fwc := { s.fwc with dumps := s.fwc.dumps.set k (some d), seq := (s.fwc.seq + 1) % 4294967296 } }
  let s := ((s.setFld (slotValid k) 1).setFld (slotClr k) 1).eccWrite 1 (0x10000 + 0x18000 * k)
  let s := (s.setFld F.FWC_GRANARY_newer k).setFld F.FWC_GRANARY_last_core c
  s.resetCrashed c

def execDumpComplete (s : State) : Host.Outcome State Fault Refusal :=
  s.on fun s => match s.fwc.dumping with
    | x :: rest => ({ s with fwc := { s.fwc with dumping := rest } }).dumpDone x
    | [] => s

/-! ## Images (R561, R562) -/

/-- An image as its header describes it. -/
structure Image where
  bytes : List Byte
  deriving DecidableEq, Repr

def Image.len (i : Image) : Nat := rdAt i.bytes 0x08 4
def Image.flags (i : Image) : Nat := rdAt i.bytes 0x06 2
def Image.svn (i : Image) : Nat := rdAt i.bytes 0x0D 1
def Image.version (i : Image) : Nat := rdAt i.bytes 0x10 4
def Image.contract (i : Image) : Nat := rdAt i.bytes 0x14 2
def Image.reflMin (i : Image) : Nat := rdAt i.bytes 0x16 1
def Image.reflMax (i : Image) : Nat := rdAt i.bytes 0x17 1
def Image.key (i : Image) : Nat := rdAt i.bytes 0x18 1
/-- Bytes from the header to the end of the padding. -/
def Image.signed (i : Image) : Nat := 0xC0 + (i.len + 7) / 8 * 8
def Image.pubkey (i : Image) : List Byte := (i.bytes.drop 0x40).take 97
def Image.sig (i : Image) : List Byte := (i.bytes.drop i.signed).take 96

/-- The hash a key slot holds: image slots 0-3, bundle slots 4-7 (R769). -/
def Block.keyHash (s : Block) (j : Nat) : List Byte :=
  (List.range 12).flatMap fun w => leBytes 4 (s.fld (F.LFC_KEY_HASH_hash j w))

/-- A key slot is programmed and not revoked. -/
def Block.keyGood (s : Block) (j : Nat) : Bool :=
  if j < 4 then bit (s.fld F.LFC_KEYS_img_prog) j && !bit (s.fld F.LFC_KEYS_img_revoked) j
  else decide (j < 8) && bit (s.fld F.LFC_KEYS_bnd_prog) (j - 4) && !bit (s.fld F.LFC_KEYS_bnd_revoked) (j - 4)

/-- Status codes of Table 15-6 that checks give. -/
def stOk : Nat := 0
def stBadParam : Nat := 0x11
def stLocked : Nat := 0x14
def stFaulted : Nat := 0x16

/-- The checks of R562, in order.
Marks: DEDUCED, log entry 99. -/
def Block.imageCheck (s : Block) (i : Image) : Nat :=
  let z := fun o n => rdAt i.bytes o n == 0
  let form := rdAt i.bytes 0 4 == 0x4D495651 && rdAt i.bytes 4 2 == 1 && rdAt i.bytes 0x0C 1 == 3 &&
    decide (i.flags < 2) && z 0x0E 2 && z 0x19 7 && z 0x34 12 && z 0xA1 31 &&
    decide (1 ≤ i.len) && Nat.ble i.len 523992 && Nat.ble (i.signed + 96) i.bytes.length
  if !form then stBadParam
  else if 4 ≤ i.key ∨ !s.keyGood i.key then stLocked
  else if Config.sha384 i.pubkey ≠ s.keyHash i.key then stBadParam
  else if s.flag F.BTC_STATUS_scan_en ∨ !Config.ecdsaVerify i.pubkey (i.bytes.take i.signed) i.sig then stBadParam
  else if i.svn < s.fld F.LFC_SVN_min_svn then stLocked
  else if i.flags % 2 = 1 ∧ !s.access 5 then stLocked
  else stOk

/-- A check of a byte string passes through the engine, whose working registers keep what it leaves (R758).
Marks: DESIGN CHOICE, log entry 129. -/
def Block.crypto (s : Block) (msg : List Byte) : Block :=
  { s with lfc := { s.lfc with secrets := { s.lfc.secrets with engine := Config.engineRegs msg } } }

/-- The commit word that is valid (R563). -/
def commitWord : Nat := 0x54494D4D4F435651

/-- The bytes of an image region. -/
def Block.region (s : Block) (b : Bool) : List Byte := if b then s.fwc.imgB else s.fwc.imgA
def Block.setRegion (s : Block) (b : Bool) (l : List Byte) : Block :=
  let s := s.clearSram (0x80000 * b2n b) (0x80000 * b2n b + l.length)
  { s with fwc := if b then { s.fwc with imgB := l } else { s.fwc with imgA := l } }

/-- The active region matches the hash of the boot record (R555). -/
def Block.activeGood (s : Block) : Bool := Config.sha384 (s.region s.fwc.boot.active) == s.fwc.boot.hash

/-- Show the running image (Table 13-14). -/
def Block.showImage (s : Block) (b : Bool) : Block :=
  let i : Image := ⟨s.region b⟩
  let s := (s.setFld F.FWC_IMAGE_version i.version).setFld F.FWC_IMAGE_INFO_region (b2n b)
  let s := (s.setFld F.FWC_IMAGE_INFO_svn i.svn).setFld F.FWC_IMAGE_INFO_key_index i.key
  (s.setFld F.FWC_IMAGE_INFO_refl_max i.reflMax).setFld F.FWC_IMAGE_INFO_refl_min i.reflMin

/-- Control core `c` runs, its tasks bound to it. -/
def Block.runCore (s : Block) (c : Nat) : Block :=
  (((s.setCore c 0).setFld (F.FWC_CORE_bound_to c) c).setFld (F.FWC_CORE_held c) 0).wdRestart c

/-- A restarted control core reports ready, or is held when its image check fails (R555, R556). -/
def execCoreReady (core : Fin 4) (now : Ft) (s : State) : Host.Outcome State Fault Refusal :=
  s.on fun s =>
    let s := s.advance now
    let c := core.val
    s.when (s.coreState c == 3) fun s =>
      if s.activeGood then
        let s := (s.setCore c 0).setSat (F.FWC_CORE_restart_us c) ((s.now - s.fwc.detect.getD c 0) / 1000)
        let s := s.wdRestart c
        ({ s with fwc := { s.fwc with
          due := s.fwc.due.filter (· != c), returning := s.fwc.returning ++ [(c, s.tick / 16)] } }).bindWaiting
      else s.holdCore c 3

/-- At the first epoch boundary after ready the tasks return to their home core (R555). -/
def execTaskReturn (core : Fin 4) (now : Ft) (s : State) : Host.Outcome State Fault Refusal :=
  s.on fun s =>
    let s := s.advance now
    let c := core.val
    s.when (s.fwc.returning.any fun (x : Nat × Nat) => x.1 == c && decide (x.2 < s.tick / 16)) fun s =>
      { s with fwc := { s.fwc with returning := s.fwc.returning.filter fun (x : Nat × Nat) => x.1 != c } }.setFld
        (F.FWC_CORE_bound_to c) c

/-! ## The supervisor (R557) and the boot ROM's selection (R565) -/

/-- A valid commit is adopted; the pending fields and the commit word clear. -/
def Block.bootAdopt (s : Block) : Block :=
  let b := s.fwc.boot
  let b := match b.pending with
    | some (r, h) => if b.commit = commitWord then (⟨r, h, none, 0⟩ : BootRec) else { b with pending := none, commit := 0 }
    | none => { b with commit := 0 }
  ({ s with fwc := { s.fwc with boot := b } }).setFld F.FWC_GRANARY_commit_valid 0

/-- The active image passes R562, and matches the hash of the boot record. -/
def Block.bootOk (s : Block) : Bool :=
  let img := s.region s.fwc.boot.active
  !img.isEmpty && s.imageCheck ⟨img⟩ == stOk && s.activeGood

/-- The boot ROM waits for an image as after POR; a refused image raises 15.3. -/
def Block.bootWait (s : Block) : Block :=
  let s := s.setReg 0x3000 (resetWord 0x3000)
  if (s.region s.fwc.boot.active).isEmpty then s else s.raise 15 3 0

/-- The supervisor's watchdog expires: 15.2, a dump and a reset. After QUIESCING has begun it holds the control cores
(R572). -/
def execSupervisorWatchdogExpiry (now : Ft) (s : State) : Host.Outcome State Fault Refusal :=
  s.on fun s =>
    let s := s.advance now
    s.when (s.wdOver 4) fun s =>
      let inj := (s.stim 5 4).any (·.1 == 7)
      let s := if inj then s.setStim 5 4 none else s
      let s := (s.incSat (F.FWC_WDT_expiries 4)).incSat (F.FWC_CORE_crashes 4)
      let s := (s.setCore 4 2).setFld (F.FWC_CORE_last_cause 4) 0
      let s := { s with fwc := { s.fwc with
        detect := s.fwc.detect.set 4 s.now, dumping := s.fwc.dumping ++ [(⟨4, 0, s.ft, s.fwc.elog⟩ : Frozen)]
        supFail := s.fwc.supFail || decide (3 ≤ s.updState) } }
      let s := if s.fwc.supFail then s.forAll (List.range 4) fun s c => s.setCore c 4 else s
      s.injecting inj fun s => s.raise 15 2 4

/-- The reset supervisor runs once the boot ROM has selected and checked the active image; what crashed meanwhile is
rebound. An image that fails leaves the boot ROM waiting (R557, R565).
Marks: DEDUCED, log entry 12. -/
def execSupervisorReady (now : Ft) (s : State) : Host.Outcome State Fault Refusal :=
  s.on fun s =>
    let s := s.advance now
    s.when (s.coreState 4 == 3) fun s =>
      let s := s.bootAdopt
      if s.bootOk then
        let s := (s.setCore 4 0).setSat (F.FWC_CORE_restart_us 4) ((s.now - s.fwc.detect.getD 4 0) / 1000)
        let s := s.wdRestart 4
        (s.forAll s.fwc.due fun s c => s.rebind c).bindWaiting
      else s.bootWait

/-! ## Boot (R564) -/

/-- A write of go: a fetch begins while the boot ROM waits, or result 6 without a locked region. -/
def Block.bootGo (s : Block) : Block :=
  s.when (s.flag F.FWC_STATUS_rom_wait && !s.fwc.bootPend && !s.flag F.MPU_STATUS_boot_busy) fun s =>
    if s.flag F.HIU_CTRL_region_lock then
      { s with fwc := { s.fwc with bootPend := true } }.setFld F.FWC_BOOT_CTRL_result 1
    else s.setFld F.FWC_BOOT_CTRL_result 6

def execBootGo (s : State) : Host.Outcome State Fault Refusal := s.on fun s => s.bootGo

/-! ## Live update (R566-R575) -/

/-- The shadow region: the one that is not active. -/
def Block.shadowReg (s : Block) : Bool := !s.fwc.boot.active

/-- The update returns to IDLE with a result. -/
def Block.updIdle (s : Block) (result : Nat) : Block :=
  let s := { s with fwc := { s.fwc with lastChunk := false, supFail := false } }
  ((s.setFld F.FWC_UPD_STATUS_state 0).setFld F.FWC_UPD_STATUS_result result).setFld F.FWC_IMAGE_INFO_shadow_valid 0

/-- The supervisor has checked a loaded Shadow image (R562). -/
def execImageAuthenticated (now : Ft) (s : State) : Host.Outcome State Fault Refusal :=
  s.on fun s =>
    let s := s.advance now
    s.when (s.updState == 1 && s.fwc.lastChunk && s.supRuns) fun s =>
      let st := s.imageCheck ⟨s.region s.shadowReg⟩
      let s := s.crypto (s.region s.shadowReg)
      let s := { s with fwc := { s.fwc with authDone := some st, lastChunk := false } }
      if st = stOk then (s.setFld F.FWC_UPD_STATUS_state 2).setFld F.FWC_IMAGE_INFO_shadow_valid 1
      else ((s.setRegion s.shadowReg []).updIdle 2).raise 15 3 0

/-- A control core has crashed since QUIESCING began (R572). -/
def Block.updCrash (s : Block) : Bool :=
  (List.range 4).any fun c => (s.fwc.crashes.getD c []).any fun f => Nat.ble s.fwc.updAt f

/-- Every control core has parked. -/
def execUpdateCoresParked (s : State) : Host.Outcome State Fault Refusal :=
  s.on fun s => s.when (s.updState == 3 && s.supRuns && !s.updCrash && !s.fwc.supFail) fun s =>
    s.setFld F.FWC_UPD_STATUS_state 4

/-- Sections of a Reflection record and whether an adopting image has to know them (Table 13-11). -/
def reflSections : List (Nat × Bool) :=
  [(1, true), (2, true), (3, true), (4, true), (5, true), (6, true), (7, true), (8, false), (9, true), (10, true), (11, false),
    (12, true), (13, true)]

/-- One section: its header, and its body padded to 8 bytes (R569, R570); all of them together fit the record.
Marks: DESIGN CHOICE, log entry 131. -/
def reflSection (n : Nat) (x : Nat × Bool) : List Byte :=
  let body := (Config.reflBody n x.1).take 2496
  u16 x.1 ++ u16 (b2n x.2) ++ u32 body.length ++ body ++ List.replicate ((8 - body.length % 8) % 8) 0

/-- The Reflection record that the running image writes (Table 13-10). -/
def Block.reflection (s : Block) : List Byte :=
  let n := s.fwc.reflSeq
  let body := reflSections.flatMap (reflSection n)
  u32 0x4C465251 ++ u16 (s.fld F.FWC_IMAGE_INFO_refl_max) ++ u16 (Config.reflMinor n).toNat ++ u32 (64 + body.length) ++
    u16 reflSections.length ++ u16 0 ++ u32 (s.fld F.FWC_IMAGE_version) ++ u32 0 ++ u64 s.ft.toNat ++ u32 (crc32 body) ++
    List.replicate 28 0 ++ body

/-- The sections of a record from an offset on: id and flags of each (R569). -/
def reflIds (r : List Byte) : Nat → Nat → List (Nat × Nat)
  | 0, _ => []
  | n + 1, o => (rdAt r o 2, rdAt r (o + 2) 2) :: reflIds r n (o + 8 + (rdAt r (o + 4) 4 + 7) / 8 * 8)

/-- An image adopts a record: magic, CRC, major version, and it knows every required section (R571). The sections an image
knows are those of Table 13-11; what is neither required nor known it skips.
Marks: DESIGN CHOICE, log entry 131. -/
def reflAdopts (i : Image) (r : List Byte) : Bool :=
  rdAt r 0 4 == 0x4C465251 && rdAt r 0x20 4 == crc32 ((r.take (rdAt r 8 4)).drop 0x40) &&
    decide (i.reflMin ≤ rdAt r 4 2 ∧ rdAt r 4 2 ≤ i.reflMax) &&
    (reflIds r (rdAt r 0x0C 2) 0x40).all fun x => x.2 % 2 == 0 || reflSections.any (·.1 == x.1)

/-- The record is complete: the boot record names the pending region, with no commit word, and the cores are reset into the
image, one that is held among them. After a crash the update is abandoned instead (R572).
Marks: DEDUCED, log entry 65. -/
def execReflectionComplete (s : State) : Host.Outcome State Fault Refusal :=
  s.on fun s => s.when (s.updState == 4 && s.supRuns && !s.updCrash && !s.fwc.supFail) fun s =>
    let b := s.shadowReg
    let s := { s with fwc := { s.fwc with refl := s.reflection, reflSeq := s.fwc.reflSeq + 1 } }
    let s := { s with fwc := { s.fwc with boot := 
      { s.fwc.boot with pending := some (b, Config.sha384 (s.region b)), commit := 0 } } }
    (s.forAll (List.range 4) fun s c => s.setCore c 5).setFld F.FWC_UPD_STATUS_state 5

def execUpdateCoresEntered (s : State) : Host.Outcome State Fault Refusal :=
  s.on fun s => s.when (s.updState == 5 && s.supRuns && (List.range 4).all fun c => s.coreState c == 5) fun s =>
    s.setFld F.FWC_UPD_STATUS_state 6

/-- The pause of an update, µs, and its FT (Table 13-14). -/
def Block.updEnd (s : Block) (result status : Nat) : Block :=
  let s := s.setSat F.FWC_UPD_STATUS_pause_us ((s.now - s.fwc.updAt) / 1000)
  let s := (s.setFld F.FWC_UPD_LAST_FT_ft s.now).updIdle result
  { s with fwc := { s.fwc with actDone := some status } }

/-- Every section of the record is adopted (R571): commit word, boot record, and the cores resume in the new image (R573). -/
def execUpdateAdopted (now : Ft) (s : State) : Host.Outcome State Fault Refusal :=
  s.on fun s =>
    let s := s.advance now
    s.when (s.updState == 6 && s.supRuns && Nat.ble s.now (s.fwc.updAt + 12000000) &&
        reflAdopts ⟨s.region s.shadowReg⟩ s.fwc.refl && (List.range 4).all fun c => s.coreState c == 5) fun s =>
      match s.fwc.boot.pending with
      | none => s
      | some (b, h) =>
        let s := { s with fwc := { s.fwc with boot := ⟨b, h, none, commitWord⟩, crashes := [[], [], [], []] } }
        let s := (s.incSat F.FWC_UPD_STATUS_updates).cntPkg 18
        ((s.forAll (List.range 4) fun s c => s.runCore c).showImage b).updEnd 1 stOk

/-- An update is abandoned: `refused` when the new image reports that it refuses the record (R572). -/
def execUpdateAbandon (refused : Bool) (now : Ft) (s : State) : Host.Outcome State Fault Refusal :=
  s.on fun s =>
    let s := s.advance now
    let st := s.updState
    let late := Nat.blt (s.fwc.updAt + 12000000) s.now
    s.when (decide (3 ≤ st) && s.supRuns && ((refused && st == 6) || s.updCrash || late || s.fwc.supFail)) fun s =>
      let old := decide (st ≤ 4) && !s.fwc.supFail
      let s := { s with fwc := { s.fwc with boot := { s.fwc.boot with pending := none } } }
      let s := if old then s.forAll ((List.range 4).filter fun c => s.coreState c == 0) Block.wdRestart
          else { s with fwc := { s.fwc with due := [] } }.forAll (List.range 4) fun s c => s.runCore c
      (s.updEnd 3 stFaulted).raise 15 3 0

/-! ## Debug (R576-R578) -/

/-- Halt a core at an instruction boundary, where debug is admitted and no update runs. -/
def Block.haltCore (s : Block) (c : Nat) : Block :=
  s.when (s.access 4 && s.updState == 0 && s.coreState c == 0) fun s =>
    ((s.setCore c 1).setMapBit F.FWC_DBG_STATUS_halted c true).drainFollow

def execDebugHalt (core : CoreId) (now : Ft) (s : State) : Host.Outcome State Fault Refusal :=
  s.on fun s => (s.advance now).haltCore core.val

/-- A halted core goes on; its watchdog counts from zero, and with the supervisor every one does (R550, R577). -/
def Block.resumeCore (s : Block) (c : Nat) : Block :=
  s.when (s.coreState c == 1) fun s =>
    let s := (s.setCore c 0).setMapBit F.FWC_DBG_STATUS_halted c false
    let s := if c = 4 then s.forAll (List.range 4) fun s k => s.resetCrashed k else s
    let s := s.bindWaiting
    (s.forAll (if c = 4 then List.range 5 else [c]) fun s k => s.wdRestart k).drainFollow

def execDebugResume (core : CoreId) (now : Ft) (s : State) : Host.Outcome State Fault Refusal :=
  s.on fun s =>
    let s := s.advance now
    s.when (s.access 4) fun s => s.resumeCore core.val

/-- An armed comparator matches. -/
def execBreakpointHit (core : CoreId) (k : Fin 4) (now : Ft) (s : State) : Host.Outcome State Fault Refusal :=
  s.on fun s =>
    let s := s.advance now
    let c := core.val
    s.when (s.access 4 && s.updState == 0 && s.coreState c == 0 && s.fld (F.FWC_BP_kind c k.val) != 0) fun s =>
      (s.setMapBit (F.FWC_BP_CTRL_hit c) k.val true).haltCore c

/-- Clear dump slots (R560). -/
def Block.granaryClr (s : Block) (bits : Nat) : Block :=
  s.forAll ((List.range 2).filter (bit bits)) fun s k =>
    let s := (s.setFld (slotValid k) 0).setFld (slotClr k) 0
    { s with fwc := { s.fwc with dumps := s.fwc.dumps.set k none } }

def execGranaryClr (bits : Fin 4) (s : State) : Host.Outcome State Fault Refusal := s.on fun s => s.granaryClr bits.val

end Sys2Proof.Machine
end

