-- ==== Sys2Proof/Machine/Bundle.lean ====
section
/-! DEFINITION. Signed bundles: the envelope, the payloads and their loads and swaps (05_live_calibration.md R244-R249,
04_power_estimation.md R193-R201, 07_launch_admission.md R318-R319). -/
namespace Sys2Proof.Machine
open Sys2Proof

/-! ## The envelope (R244-R246) -/

/-- Bytes of a record are zero. -/
def zeroAt (l : List Byte) (off n : Nat) : Bool := ((l.drop off).take n).all (· == 0)

/-- The size of a payload type; `none` for a type that Table 05-9 does not list. -/
def payloadSize (type : Nat) (payload : List Byte) : Option Nat :=
  match type with
  | 0x11 => some 40336
  | 0x21 => some (if bit (rdAt payload 2 2) 0 then 3128 else 1064)
  | 0x22 => some 46088
  | 0x31 => some 65552
  | 0x41 => some 71712
  | _ => none

def envType (b : List Byte) : Nat := rdAt b 6 2
def envLen (b : List Byte) : Nat := rdAt b 8 4
def envPayload (b : List Byte) : List Byte := (b.drop 0xA0).take (envLen b)

/-- Steps 1-5 of R245. -/
def Block.envCheck (s : Block) (b : List Byte) : Nat :=
  let n := 0xA0 + (envLen b + 7) / 8 * 8
  if rdAt b 0 4 ≠ 0x44425651 ∨ rdAt b 4 2 ≠ 1 ∨ rdAt b 0xC 1 ≠ 3 ∨ rdAt b 0x10 4 ≠ (s.reg 4).toNat ∨
      rdAt b 0x14 4 ≠ (s.reg 8).toNat ∨ !zeroAt b 0xD 3 ∨ 2 ≤ rdAt b 0x21 1 ∨ !zeroAt b 0x22 14 ∨ !zeroAt b 0x91 15 then
    stBadParam
  else if payloadSize (envType b) (envPayload b) ≠ some (envLen b) then stBadParam
  else if 4 ≤ rdAt b 0x20 1 ∨ !s.keyGood (4 + rdAt b 0x20 1) then stLocked
  else if Config.sha384 ((b.drop 0x30).take 97) ≠ s.keyHash (4 + rdAt b 0x20 1) then stBadParam
  else if s.flag F.BTC_STATUS_scan_en ∨ !Config.ecdsaVerify ((b.drop 0x30).take 97) (b.take n) ((b.drop n).take 96) then stBadParam
  else stOk

/-! ## Factory set (R247-R249) -/

def words (l : List Byte) (off n : Nat) : List Word := (List.range n).map fun i => BitVec.ofNat 32 (rdAt l (off + 4 * i) 4)

def wfactoryAt (l : List Byte) : WFactory := ⟨words l 0 34, words l 0x88 34, words l 0x110 34, words l 0x198 34⟩

/-- The checks of one record (R248). -/
def WFactory.ok (f : WFactory) (core : Bool) : Bool :=
  let all := f.theta0 ++ f.p0 ++ f.lo ++ f.hi
  let i33 (l : List Word) : Word := l.getD 33 0
  all.all Fp.finite && f.p0.all (fun x => Fp.le 0 x) &&
    (List.range 34).all (fun i => Fp.le (f.lo.getD i 0) (f.theta0.getD i 0) && Fp.le (f.theta0.getD i 0) (f.hi.getD i 0)) &&
    -- 0.5, 1.999 and 2^20 as binary32
    Fp.le 0x3F000000 (f.lo.getD 32 0) && Fp.le (f.hi.getD 32 0) 0x3FFFDF3B &&
    Fp.le (Fp.abs (i33 f.lo)) 0x49800000 && Fp.le (Fp.abs (i33 f.hi)) 0x49800000 &&
    (core || [f.theta0, f.p0, f.lo, f.hi].all fun l => (l.take 32).all (· == 0))

/-- A factory set: records and dig0_cfg. -/
def factoryParse (l : List Byte) : Option (List WFactory × Nat) :=
  let recs := (List.range 72).map fun d => (l.drop (16 + 560 * d)).take 560
  let fs := recs.map wfactoryAt
  let ok := rdAt l 0 2 == 1 && rdAt l 2 2 == 560 && rdAt l 4 2 == 72 && decide (rdAt l 6 2 < 64) && zeroAt l 8 8 &&
    recs.all (fun r => zeroAt r 0x220 16) && fs.zipIdx.all fun p => p.1.ok (decide (p.2 < 64))
  if ok then some (fs, rdAt l 6 2) else none

/-- A channel 0 configuration that is locked already (R123). -/
def Block.digLocked (s : Block) : Option Nat := (s.relay 0).digCfg.map (· % 64)

/-! ## Leakage and networks (R193-R199) -/

def halves (l : List Byte) (off n : Nat) : List Nat := (List.range n).map fun i => rdAt l (off + 2 * i) 2
def sbyte (l : List Byte) (off : Nat) : Int := toSigned 8 (rdAt l off 1)
def shalf (l : List Byte) (off : Nat) : Int := toSigned 16 (rdAt l off 2)

/-- A leakage bundle: tables and factors. -/
def leakParse (l : List Byte) : Option (List Nat × Option (List Nat)) :=
  if rdAt l 0 2 = 1 ∧ rdAt l 2 2 < 2 ∧ zeroAt l 4 4 then
    some (halves l 8 528, if rdAt l 2 2 = 1 then some (halves l 0x428 1032) else none)
  else none

/-- A network record (Table 04-6), when it keeps the ranges, the knot order and the zeros of its reserved bytes.
Marks: DESIGN CHOICE, log entry 133. -/
def netParse (l : List Byte) : Option Net :=
  let n : Net := ⟨(List.range 512).map (sbyte l), (List.range 16).map fun i => shalf l (0x200 + 2 * i),
    (List.range 16).map fun i => sbyte l (0x220 + i), shalf l 0x230, rdAt l 0x232 2, rdAt l 0x234 1, rdAt l 0x235 1,
    rdAt l 0x236 1, rdAt l 0x237 1, (List.range 3).map fun i => shalf l (0x238 + 2 * i), shalf l 0x23E,
    (List.range 4).map fun i => sbyte l (0x240 + i)⟩
  let k (i : Nat) : Int := n.k.getD i 0
  if n.psh1 < 8 ∧ n.psh2 < 8 ∧ n.ash < 8 ∧ n.inShift < 16 ∧ k 0 < k 1 ∧ k 1 < k 2 ∧ zeroAt l 0x244 60 then some n else none

/-- A network bundle. -/
def netsParse (l : List Byte) : Option (List (Option Net)) :=
  let nets := (List.range 72).map fun d => netParse ((l.drop (8 + 640 * d)).take 640)
  if rdAt l 0 2 = 1 ∧ rdAt l 2 2 = 640 ∧ rdAt l 4 2 = 72 ∧ zeroAt l 6 2 ∧ nets.all Option.isSome then some nets else none

/-- The EA bank that is not active (R193). -/
def Block.eaInactive (s : Block) : Bool := !s.flag F.EA_STATUS_bank_active

/-- The previous bank may not be loaded while a swap waits or it is still read (R194). -/
def Block.eaBusy (s : Block) : Bool := s.ea.swapAt.isSome || decide (s.tick < s.ea.busyTill)

/-- Marks: DEDUCED, log entry 27. -/
def Block.eaLoad (s : Block) (b : EaBank) : Block :=
  let s := if s.eaInactive then { s with ea := { s.ea with bankB := b } } else { s with ea := { s.ea with bankA := b } }
  s.setFld F.EA_STATUS_inactive_valid 1

/-- EA_LEAK_FACTOR shows the factors of the active bank (R170).
Marks: DEDUCED, log entry 27. -/
def Block.showFactors (s : Block) : Block :=
  let b := s.eaBank (s.flag F.EA_STATUS_bank_active)
  s.forAll (List.range 1032) fun s i => s.setFld (F.EA_LEAK_FACTOR_factor i) (s.leakFactor b i)

/-- The swap of the EA at its named tick (R194, R201); the bank that becomes inactive keeps its load. data_src shows the flag
of the bundle loaded last into the bank in force.
Marks: DEDUCED, log entry 122; DESIGN CHOICE, log entry 133. -/
def Block.swapEa (s : Block) : Block :=
  let b := s.eaInactive
  let s := ((s.setFld F.EA_STATUS_bank_active (b2n b)).setFld F.EA_STATUS_inactive_valid
    (b2n ((s.eaBank (!b)).src != 0))).setFld F.EA_STATUS_data_src (s.eaBank b).src
  ({ s with ea := { s.ea with swapAt := none, busyTill := s.tick + 2 } }).showFactors

/-! ## Energy class table (R315-R319) -/

def classAt (l : List Byte) : ClassE :=
  ⟨rdAt l 0 4, rdAt l 4 2, rdAt l 6 1, bit (rdAt l 7 1) 0, (List.range 8).map fun i => rdAt l (8 + i) 1⟩

/-- One entry as the payload holds it. -/
def classEntryOk (l : List Byte) : Bool :=
  decide (rdAt l 6 1 < 4) && decide (rdAt l 7 1 < 2) && (rdAt l 7 1 == 0 || rdAt l 4 2 != 0)

/-- An energy class table. -/
def classParse (l : List Byte) : Option ClassBank :=
  let recs := (List.range 4096).map fun i => (l.drop (16 + 16 * i)).take 16
  let mv := rdAt l 6 2
  let mhz := rdAt l 8 2
  if rdAt l 0 2 = 1 ∧ rdAt l 2 2 = 16 ∧ rdAt l 4 2 = 4096 ∧ 500 ≤ mv ∧ mv ≤ 1000 ∧ 800 ≤ mhz ∧ mhz ≤ 2200 ∧
      zeroAt l 0xA 2 ∧ recs.all classEntryOk then
    some ⟨true, rdAt l 0xC 4, mv, mhz, recs.zipIdx.foldl (fun t p => Tab.set (fun _ => ClassE.reset) t p.2 (classAt p.1)) []⟩
  else none

/-- The inactive bank of all four slices takes a table; each copy is still to be verified.
Marks: DEDUCED, log entry 73. -/
def Block.loadClasses (s : Block) (b : ClassBank) : Block :=
  let s := s.setFld F.SILO_STATUS_inactive_valid 0
  { s with silo := if s.flag F.SILO_STATUS_table_bank then { s.silo with bankA := b, loading := true }
    else { s.silo with bankB := b, loading := true } }

/-- The swap of the class table at its named tick; the bank that becomes inactive keeps its verified table (Table 07-10).
Marks: DEDUCED, log entry 122. -/
def Block.swapClasses (s : Block) : Block :=
  let old := s.classBank.loaded
  let s := s.setFld F.SILO_STATUS_table_bank (1 - s.fld F.SILO_STATUS_table_bank)
  let s := (s.setFld F.SILO_STATUS_inactive_valid (b2n old)).setFld F.SILO_STATUS_table_loaded (b2n s.classBank.loaded)
  let s := if s.classBank.loaded then s else s.forAll (List.range 64) fun s n => s.exitAnt n 3
  let s := s.setFld F.SILO_TABLE_ID_table_id s.classBank.id
  let s := s.forAll (List.range 4) fun s d => (s.setFld (F.SILO_SLICE_STATUS_table_bank d)
    (s.fld F.SILO_STATUS_table_bank)).setSlice d { s.slice d with badCls := [] }
  { s with silo := { s.silo with swapAt := none, swapped := s.now } }

/-- The swap is scheduled for a named tick.
Marks: DEDUCED, log entry 72. -/
def Block.swapSchedule (s : Block) (u k : Nat) : Block :=
  let at_ (a : Sched) : TimeS := { s.time with sched := s.time.sched ++ [(k, a)] }
  match u with
  | 0 => { s with ea := { s.ea with swapAt := some k }, time := at_ .ea }
  | 1 => { s with silo := { s.silo with swapAt := some k }, time := at_ .classes }
  | _ => { s with tme := { s.tme with swapAt := some k } }

/-! ## The start of an image (R201, R249, R564, Table 18-5 steps 7 and 8) -/

/-- The factory bundles of an image go into a unit that still runs on ROM data: EA and TME banks with their swaps, and the
factory set, which commits at the next epoch boundary; one that breaks its format is not loaded. The swaps take the first
tick that R99 allows.
Marks: DESIGN CHOICE, log entry 126. -/
def Block.loadFactory (s : Block) (img : List Byte) : Block :=
  let k := s.tick + 8
  let leak := leakParse (Config.factoryBundle img 0x21)
  let nets := netsParse (Config.factoryBundle img 0x22)
  let ea : EaBank := ⟨leak.map (·.1), leak.bind (·.2), nets, 1⟩
  let s := if s.fld F.EA_STATUS_data_src = 0 ∧ s.ea.swapAt.isNone ∧ (leak.isSome ∨ nets.isSome)
    then (s.eaLoad ea).swapSchedule 0 k else s
  let rom := s.fld F.TME_STATUS_data_src == 0 && s.tme.swapAt.isNone
  let s := match rom, tmeParse (Config.factoryBundle img 0x41) with
    | true, some b => ((s.tmeLoad b).setFld F.TME_STATUS_inactive_valid 1).swapSchedule 2 k
    | _, _ => s
  match s.wce.factory, factoryParse (Config.factoryBundle img 0x11) with
  | none, some (l, dig) => { s with wce := { s.wce with pendingSet := some (l, true, dig, s.time.epoch) } }
  | _, _ => s

/-- Start every core from a region.
Marks: DEDUCED, log entries 65 and 81. -/
def Block.startImage (s : Block) (b : Bool) : Block :=
  let s := ((s.setFld F.FWC_STATUS_rom_wait 0).setCore 4 0).wdRestart 4
  let s := { s with fwc := { s.fwc.initLog with due := [], returning := [], crashes := [[], [], [], []] } }
  let s := ((s.forAll (List.range 4) fun s c => s.runCore c).showImage b).setFld F.HUB_BOOT_STATUS_image_started 1
  s.loadFactory (s.region b)

/-- Check a delivered image and start it from region A (R564).
Marks: DEDUCED, log entry 92. -/
def Block.bootCheck (s : Block) (l : List Byte) : Block :=
  let st := s.imageCheck ⟨l⟩
  let s := s.crypto l
  if st = stOk then
    let s := s.setRegion false l
    let s := { s with fwc := { s.fwc with boot := ⟨false, Config.sha384 l, none, 0⟩ } }
    ((s.setFld F.FWC_GRANARY_commit_valid 0).setFld F.FWC_BOOT_CTRL_result 2).startImage false
  else (s.setFld F.FWC_BOOT_CTRL_result (if st = stLocked then 4 else 3)).raise 15 3 0

/-- The fetch has ended: the bytes it read, or a DMA error. -/
def execBootImageChecked (fetched : Option (List Byte)) (now : Ft) (s : State) : Host.Outcome State Fault Refusal :=
  s.on fun s =>
    let s := s.advance now
    s.when (s.fwc.bootPend && s.flag F.FWC_STATUS_rom_wait) fun s =>
      let busy := s.flag F.MPU_STATUS_boot_busy
      let img := s.fwc.bootMgmt
      let s := ({ s with fwc := { s.fwc with bootPend := false, bootMgmt := [] } }).setFld F.MPU_STATUS_boot_busy 0
      if busy then s.bootCheck img
      else match fetched with
      | some l => s.bootCheck (l.take (s.fld F.FWC_BOOT_LEN_len))
      | none => s.setFld F.FWC_BOOT_CTRL_result 5

end Sys2Proof.Machine
end

