-- ==== Sys2Proof/Machine/FaultCmd.lean ====
section
/-! DEFINITION. The commands of the Fault Collector: faults, clears, severities, injections, isolation, re-admission
and the risk score (12_faults_and_isolation.md); and the end of a soft start (R417, R533). -/
namespace Sys2Proof.Machine
open Sys2Proof

/-! ## Faults (R501-R510) -/

/-- A detector's fault as the FC takes it; a source that Table 12-1 does not list has no detector (R497). -/
def Block.takeFault (s : Block) (r : FaultRec) : Block :=
  s.when (decide (r.group < 26) && sourceExists r.group r.source) fun s => s.raiseRec r false

def execHubFault (f : FaultIn) (now : Ft) (s : State) : Host.Outcome State Fault Refusal :=
  s.on fun s =>
    let s := s.advance now
    s.takeFault ⟨f.group.val, f.source.val, f.inst.val, s.ft, 0, f.ended, f.injected⟩

/-- The record a Relay sends next reaches the FC, which expands its stamp against its own FT (R102, R502-R505). -/
def execFaultRecord (die : Die) (s : State) : Host.Outcome State Fault Refusal :=
  s.on fun s => s.when (s.flag (F.HUB_SB_STATUS_link_up die.val)) fun s =>
    match s.nextOff die.val 0x20 8 with
    | some (f, _, s) => s.takeFault (faultOfWord s.now f.body)
    | none => s

/-- A fault of the source is registered in the present cycle (R28, R508). -/
def Block.faultNow (s : Block) (g src : Nat) : Bool :=
  s.fc.recent.any fun x => x.at_ == s.now && x.group == g && x.source == src

/-- Clear one source unless its condition is active or it fires in this very cycle; a forced condition ends with it
(R508, R519).
Marks: DEDUCED, log entry 58. -/
def Block.clearSource (s : Block) (g src : Nat) : Block :=
  if s.fc.active.any (fun x => x.1 == g && x.2.1 == src) || s.faultNow g src then s
  else
    let mine := s.fc.forcedNow.filter fun x => x.1 == g && x.2.1 == src
    let s := s.forAll mine fun s (x : Nat × Nat × Nat) =>
      s.faultEntry ⟨g, src, x.2.2, s.ft, 0, true, false⟩ (s.severity g src) (sourceCost g src) true
    let s := { s with fc := { s.fc with
      forcedNow := s.fc.forcedNow.filter fun x => !(x.1 == g && x.2.1 == src)
      costs := Tab.erase s.fc.costs (8 * g + src) } }
    (s.setMapBit (F.FC_GRP_STICKY_sticky g) src false).setMapBit (F.FC_GRP_STICKY_forced g) src false

/-- A write to FC_GRP_CLR: the group's count goes with its last sticky bit (Table 12-12). -/
def Block.grpClr (s : Block) (g bits : Nat) : Block :=
  let s := s.forAll ((List.range 8).filter (bit bits)) fun s k => s.clearSource g k
  let s := if s.fld (F.FC_GRP_STICKY_sticky g) = 0 then s.setFld (F.FC_GRP_LAST_count g) 0 else s
  s.showFc

def execFcGrpClr (group : Fin 26) (bits : Byte) (s : State) : Host.Outcome State Fault Refusal :=
  s.on fun s => s.grpClr group.val bits.toNat

/-- The fault that FC_FIRST holds is registered in the present cycle (R508). -/
def Block.firstNow (s : Block) : Bool :=
  s.flag F.FC_FIRST_valid && s.fc.recent.any fun x => x.at_ == s.now && x.group == s.fld F.FC_FIRST_group &&
    x.source == s.fld F.FC_FIRST_source && x.inst == s.fld F.FC_FIRST_instance

/-- first_clr clears FC_FIRST, FC_FIRST_FT and FC_FIRST_OVF together; a fault of this very cycle stays latched (R508). -/
def Block.firstClr (s : Block) : Block := if s.firstNow then s.clearWin 0x10014 0x10018 else s.clearWin 0x10010 0x10020

def execFirstClr (s : State) : Host.Outcome State Fault Refusal := s.on fun s => s.firstClr

/-- The write of 1 to alert_pend: a fault of this very cycle at or above alert_min leaves it set (R28, R516). -/
def Block.alertClr (s : Block) : Block :=
  if s.fc.recent.any fun x => x.at_ == s.now && decide (s.fld F.FC_CTRL_alert_min ≤ s.severity x.group x.source) then s
  else s.setFld F.FC_SUMMARY_alert_pend 0

def execAlertPendClear (s : State) : Host.Outcome State Fault Refusal := s.on fun s => s.alertClr

/-- The severities of 0.0, 0.1 and 23.0 are fixed (R510). -/
def sevFixed (g src : Nat) : Bool := (g == 0 && decide (src < 2)) || (g == 23 && src == 0)

/-- A write of one severity, in force from the next cycle; a reserved code leaves it as it is (R26, R510). -/
def Block.setSev (s : Block) (g src v : Nat) : Block :=
  if 5 ≤ v ∨ sevFixed g src then s
  else
    let keep := s.fc.sevWas.filter fun (x : Nat × Nat × Nat × Nat) => x.1 == s.edge && !(x.2.1 == g && x.2.2.1 == src)
    { s with fc := { s.fc with sevWas := keep ++ [(s.edge, g, src, s.severity g src)] } }.setFld (sevField g src) v

def Block.grpSev (s : Block) (g w : Nat) : Block :=
  (s.forAll (List.range 8) fun s k => s.setSev g k (getBits w (4 * k) 3)).showFc

def execFcGrpSevWrite (group : Fin 26) (value : Word) (s : State) : Host.Outcome State Fault Refusal :=
  s.on fun s => s.grpSev group.val value.toNat

/-- Force bits raise their sources with the instance of FC_FORCE_INST (R519, R520). -/
def Block.grpForce (s : Block) (g bits : Nat) : Block :=
  s.forAll ((List.range 8).filter fun k => bit bits k && sourceExists g k) fun s k =>
    s.raiseRec ⟨g, k, s.fld F.FC_FORCE_INST_instance, s.ft, 0, false, false⟩ true

def execFcGrpForce (group : Fin 26) (bits : Byte) (now : Ft) (s : State) : Host.Outcome State Fault Refusal :=
  s.on fun s => (s.advance now).grpForce group.val bits.toNat

/-! ## Injections (R522, R523) -/

/-- Whether the lifecycle state takes an injection (R523): MAKER and RETURNED every point, FIELD all but det 1.
Marks: DEDUCED, log entry 120. -/
def Block.injAllowed (s : Block) (det : Nat) : Bool :=
  let st := s.fld F.LFC_LC_state
  decide (det < 10) && s.access 6 && (st == 1 || st == 4 || (st == 2 && det != 1)) && (det != 1 || s.access 5)

/-- go: arm the injection of FC_INJ_CTRL, or refuse it. -/
def Block.injGo (s : Block) : Block :=
  let det := s.fld F.FC_INJ_CTRL_det
  let s' := s.setFld F.FC_INJ_STATUS_det det
  if s.injAllowed det && s.fc.armed.isNone then
    { s' with fc := { s'.fc with armed := some (det, s.fld F.FC_INJ_CTRL_mode, s.fld F.FC_INJ_CTRL_instance,
        s.fld F.FC_INJ_CTRL_param) } }.setFld F.FC_INJ_STATUS_result 1
  else s'.setFld F.FC_INJ_STATUS_result 3

def execInjectionGo (s : State) : Host.Outcome State Fault Refusal := s.on fun s => s.injGo

/-- The stimulus reaches its detector: a comparator acts at once, and every other stimulus stands until the detector
has met it (Table 12-6). -/
def Block.injFire (s : Block) (det mode inst param : Nat) : Block :=
  match det with
  | 0 => s.when (decide (inst < 1024)) fun s =>
      (s.setStim 0 inst (some (mode, s.now + 5 * param))).detect inst (mode == 1) false
  | 1 => s.setStim 1 inst (some (2, param))
  | 2 => s.when (decide (inst < 240)) fun s =>
      s.injecting true fun s => if mode = 0 then s.peakLimit inst else s.tripPhase inst
  | 9 => s.setStim 9 0 (some (mode, param))
  | d => s.setStim d inst (some (mode, param))

def execInjectionFire (now : Ft) (s : State) : Host.Outcome State Fault Refusal :=
  s.on fun s =>
    let s := s.advance now
    match s.fc.armed with
    | some (det, mode, inst, param) =>
      ({ s with fc := { s.fc with armed := none } }.setFld F.FC_INJ_STATUS_result 2).injFire det mode inst param
    | none => s

/-! ## Isolation (R525-R529) -/

/-- Begin a request of FC_ISO_REQ. -/
def Block.isoBegin (s : Block) (op target : Nat) : Block :=
  let s := (s.setFld F.FC_ISO_STATUS_busy 1).setFld F.FC_ISO_STATUS_op op
  ((s.setFld F.FC_ISO_STATUS_result 0).setFld F.FC_ISO_STATUS_step 0).setFld F.FC_ISO_STATUS_target target

/-- The step a unit has reached, for the request that waits for it. -/
def Block.isoStep (s : Block) (op target step : Nat) : Block :=
  if s.flag F.FC_ISO_STATUS_busy ∧ s.fld F.FC_ISO_STATUS_op = op ∧ s.fld F.FC_ISO_STATUS_target = target then
    s.setFld F.FC_ISO_STATUS_step step
  else s

/-- The step FC_ISO_STATUS shows (Tables 12-7, 12-8): while a request runs, step 3 with the first switch of the unit that
begins to open and 4 with a later one, and step 3 of a re-admission once the VID stands at its target.
Marks: DEDUCED, log entry 57. -/
def Block.isoShown (s : Block) : Nat :=
  let st := s.fld F.FC_ISO_STATUS_step
  let op := s.fld F.FC_ISO_STATUS_op
  let target := s.fld F.FC_ISO_STATUS_target
  if !s.flag F.FC_ISO_STATUS_busy then st
  else if op < 2 then
    let begun := ((unitTiles (op == 1, target)).filter fun t => 0 < (s.post t).opened s.now ∧ (s.post t).opening).length
    if 2 ≤ st ∧ st ≤ 4 then min 4 (st + begun) else st
  else
    let n := if op = 2 then domOfTile target else target
    if st = 2 ∧ s.vstate n = Vs.run ∧ s.vidSettled n then 3 else st

/-- The unit is on its way out. -/
def Block.unitLeaving (s : Block) (u : Bool × Nat) : Bool :=
  s.fc.orders.any (fun (o : Bool × Nat × Ft) => o.1 == u.1 && o.2.1 == u.2) ||
    s.fc.isolating.any fun (o : Bool × Nat × Ft) => o.1 == u.1 && o.2.1 == u.2

/-- The last step of the isolation of a unit (Table 12-7). -/
def isoLast (u : Bool × Nat) : Nat := if u.1 then 6 else 5

/-- op 0 and 1: isolate a unit. A unit that is isolated and not re-admitting is done at once (log entry 11).
Marks: DEDUCED, log entry 11. -/
def Block.reqIsolate (s : Block) (u : Bool × Nat) : Block :=
  if s.flag F.FC_ISO_STATUS_busy then s
  else
    let op := if u.1 then 1 else 0
    let s := s.isoBegin op u.2
    let back := (unitTiles u).any fun t => s.fc.readmits.any (·.tile == t)
    if s.unitIsolated u ∧ !back ∧ !s.unitLeaving u then ((s.noteIso u).isoStep op u.2 (isoLast u)).isoResult op u.2 1
    else if s.unitIsolated u ∧ !back then s.noteIso u
    else s.orderIsolation u s.ft

def execFcIsoIsolateTile (tile : Tile) (now : Ft) (s : State) : Host.Outcome State Fault Refusal :=
  s.on fun s => (s.advance now).reqIsolate (false, tile.val)

def execFcIsoIsolateDomain (dom : CoreDom) (now : Ft) (s : State) : Host.Outcome State Fault Refusal :=
  s.on fun s => (s.advance now).reqIsolate (true, dom.val)

/-- Start the re-admission of a tile at step 1 (Table 12-8). -/
def Block.startReadmit (s : Block) (t : Nat) (ofDom : Option Nat) (lbistOnly : Bool) : Block :=
  { s with fc := { s.fc with readmits := s.fc.readmits ++ [⟨t, ofDom, 1, 0, 0, 0, lbistOnly⟩] } }

/-- The tile may be re-admitted: isolated, its isolation complete, its domain not isolated, and not in one already
(R533; log entry 11).
Marks: DEDUCED, log entry 11. -/
def Block.mayReadmit (s : Block) (t : Nat) : Bool :=
  s.isoTile t && !s.unitLeaving (false, t) && !s.isoDom (domOfTile t) && !s.unitLeaving (true, domOfTile t) &&
    !s.fc.readmits.any (·.tile == t)

/-- An isolation of a tile, of its domain or of the domain is registered in this very cycle. -/
def Block.isoJust (s : Block) (u : Bool × Nat) : Bool :=
  s.fc.isoNow.any fun x => x.1 == s.edge && (x.2 == u || (!u.1 && x.2 == (true, domOfTile u.2)))

/-- A re-admission registered in the cycle of an isolation of its unit ends ABORTED (R529, R532). -/
def Block.abortReadmit (s : Block) (op : Nat) (u : Bool × Nat) : Block :=
  (s.isoResult op u.2 3).raise 24 1 (unitInst u)

/-- op 2: re-admit a tile.
Marks: DEDUCED, log entry 11. -/
def Block.reqReadmitTile (s : Block) (t : Nat) : Block :=
  if s.flag F.FC_ISO_STATUS_busy then s
  else
    let s := s.isoBegin 2 t
    if s.isoJust (false, t) then s.abortReadmit 2 (false, t)
    else if s.mayReadmit t then (s.startReadmit t none false).isoStep 2 t 1 else s.isoResult 2 t 2

def execFcIsoReadmitTile (tile : Tile) (s : State) : Host.Outcome State Fault Refusal :=
  s.on fun s => s.reqReadmitTile tile.val

/-- op 3: re-admit a domain by a power cycle: fail_clr when it is FAILED, then en = 1; its tiles follow at RUN
(R533).
Marks: DEDUCED, log entry 11. -/
def Block.reqReadmitDomain (s : Block) (n : Nat) : Block :=
  if s.flag F.FC_ISO_STATUS_busy then s
  else
    let s := s.isoBegin 3 n
    if s.isoJust (true, n) then s.abortReadmit 3 (true, n)
    else if s.isoDom n ∧ !s.unitLeaving (true, n) then
      let s := (s.failClr n).setFld (F.VRC_DOM_CTRL_en n) (if s.fld F.LFC_LC_state = 5 then 0 else 1)
      { s with fc := { s.fc with readmitDom := some n } }
    else s.isoResult 3 n 2

def execFcIsoReadmitDomain (dom : CoreDom) (s : State) : Host.Outcome State Fault Refusal :=
  s.on fun s => s.reqReadmitDomain dom.val

/-- The unit's switches all read open: the isolation is complete, and a domain stops (Table 12-7 steps 5 and 6,
R526). -/
def Block.isoDone (s : Block) (u : Bool × Nat) : Block :=
  match s.fc.isolating.find? fun (x : Bool × Nat × Ft) => x.1 == u.1 && x.2.1 == u.2 with
  | none => s
  | some x =>
    if (unitTiles u).any fun t => !(s.post t).open_ then s
    else
      let op := if u.1 then 1 else 0
      let s := { s with fc := { s.fc with isolating := s.fc.isolating.filter (· != x) } }
      let s := (s.isoStep op u.2 (isoLast u)).isoResult op u.2 1
      let s := if x.2.2.toNat + 50000 < s.now then s.raise 24 0 (unitInst u) else s
      if u.1 then s.disableDomain u.2 else s

/-- The Relay registers an isolation order (Table 12-7 steps 1-4), and the stretch of step 2 with it; a grant that step 1
does not revoke and whose window has not begun is withdrawn (R314). -/
def Block.isolate (s : Block) (u : Bool × Nat) (ft : Ft) : Block :=
  let ts := unitTiles u
  let n := if u.1 then u.2 else domOfTile u.2
  let s := s.forAll ts fun s t => s.setTile t { s.tile t with isolated := true }
  let s := ((s.showIso u true).revokeAfter (n / 16) ts (s.now + 64)).forAll ts fun s t => s.withdrawTile t
  let s := s.forAll ts fun s t => s.setPost t { s.post t with closePend := false }
  let s := (s.orderSwitches ts).refloor n
  let s := { s with fc := { s.fc with isolating := s.fc.isolating ++ [(u.1, u.2, ft)] } }
  (s.isoStep (if u.1 then 1 else 0) u.2 2).isoDone u

def execIsolationOrder (domain : Bool) (index : Tile) (now : Ft) (s : State) : Host.Outcome State Fault Refusal :=
  s.on fun s =>
    let s := s.advance now
    let i := index.val
    match s.fc.orders.find? fun (o : Bool × Nat × Ft) => o.1 == domain && o.2.1 == i with
    | some o => match s.takeDown (unitDie (domain, i)) 0x21 (orderWord (domain, i)) with
      | some (_, s) => ({ s with fc := { s.fc with orders := s.fc.orders.filter (· != o) } }).isolate (domain, i) o.2.2
      | none => s
    | none => s

/-- Every ordered switch of a domain that stops reads open: STOPPING begins (R421). -/
def Block.stopIfOpen (s : Block) (n : Nat) : Block :=
  if (s.vdom n).opening ∧ !((tilesOf n).any fun t => !(s.post t).open_) then s.enterStopping n else s

/-- One more switch of an isolating unit has opened: FC_ISO_STATUS passes step 3, then 4. -/
def Block.isoOpened (s : Block) (u : Bool × Nat) : Block :=
  s.isoStep (if u.1 then 1 else 0) u.2 (min 4 (max 2 (s.fld F.FC_ISO_STATUS_step) + 1))

/-- TSW_OPEN reads open for a switch that was ordered open, once its last segment has opened (R420, R421, R525). -/
def Block.switchOpened (s : Block) (t : Nat) : Block :=
  let n := domOfTile t
  let s := s.postOff t
  let s := { s with
    wce := { s.wce with switched := s.wce.switched ++ [(s.tick / 16, n)] }
    fc := { s.fc with readmits := s.fc.readmits.filter fun r => !(r.tile == t && r.lbistOnly) } }
  let s := s.refloor n
  let s := (s.isoOpened (false, t)).isoOpened (true, n)
  ((s.isoDone (false, t)).isoDone (true, n)).stopIfOpen n

def execSwitchOpened (tile : Tile) (now : Ft) (s : State) : Host.Outcome State Fault Refusal :=
  s.on fun s =>
    let s := s.advance now
    s.when (!(s.post tile.val).open_ && (s.post tile.val).opened s.now == 4) fun s => s.switchOpened tile.val

/-! ## Re-admission (R530-R533) -/

/-- The re-admission of a tile stands at a step. -/
def Block.readmitAt (s : Block) (t step : Nat) : Bool := s.fc.readmits.any fun r => r.tile == t && r.step == step

/-- Change a re-admission, and show its step. -/
def Block.mapReadmit (s : Block) (t : Nat) (f : Readmit → Readmit) : Block :=
  let s := { s with fc := { s.fc with readmits := s.fc.readmits.map fun (r : Readmit) => if r.tile == t then f r else r } }
  match s.fc.readmits.find? (·.tile == t) with
  | some r => match r.ofDom with
    | none => s.isoStep 2 t r.step
    | some n => s.isoStep 3 n
        (minN 8 ((s.fc.readmits.filter fun x => x.ofDom == some n).map (·.step)))
  | none => s

/-- Step 1 ends: the hub slot is clear, and the VID rises to include the tile's floor (steps 1 and 2). -/
def execReadmitResetDone (tile : Tile) (s : State) : Host.Outcome State Fault Refusal :=
  s.on fun s =>
    let t := tile.val
    s.when (s.readmitAt t 1) fun s =>
      let s := s.clearSlot t
      let s := s.setPost t { s.post t with closePend := true }
      (s.mapReadmit t fun r => { r with step := 2 }).refloor (domOfTile t)

/-- The VID stands at a target that includes the floor: the switch closes and the Post is released into LBIST
(steps 3 and 4). -/
def execReadmitSwitchClosed (tile : Tile) (s : State) : Host.Outcome State Fault Refusal :=
  s.on fun s =>
    let t := tile.val
    let n := domOfTile t
    s.when (s.readmitAt t 2 && s.vstate n == Vs.run && s.vidSettled n) fun s =>
      let s := s.setPost t { s.post t with powered := true, open_ := false, segs := 15, closePend := false }
      let s := s.postReset t
      let s := s.setPost t { s.post t with lbist := true }
      let s := { s with wce := { s.wce with switched := s.wce.switched ++ [(s.tick / 16, n)] } }
      s.mapReadmit t fun r => { r with step := 4 }

/-- LBIST ends with a signature, compared with the one the fuse shadow holds (R748). A failure ends a re-admission;
POST_LBIST opens the switch again whatever the signature (R654). -/
def execLbistEnd (tile : Tile) (signature : DWord) (now : Ft) (s : State) : Host.Outcome State Fault Refusal :=
  s.on fun s =>
    let s := s.advance now
    let t := tile.val
    match s.fc.readmits.find? fun r => r.tile == t && r.step == 4 with
    | none => s
    | some r => s.when (s.post t).lbist fun s =>
      let s := s.setFld F.BTC_POST_MISR_misr signature.toNat
      let s := s.setPost t { s.post t with lbist := false }
      let ok := signature.toNat == s.shadow.misr
      let s := if ok then s else s.relayFault (dieOfTile t) 9 7 t
      if r.lbistOnly then s.orderSwitches [t]
      else if ok then s.mapReadmit t fun r => { r with step := 5 }
      else s.dropReadmit t 0 2

/-- 16 good Sheafs in a row: the tile rejoins at the next epoch boundary (step 8). -/
def execReadmitRejoin (tile : Tile) (s : State) : Host.Outcome State Fault Refusal :=
  s.on fun s =>
    let t := tile.val
    s.when (s.fc.readmits.any fun r => r.tile == t && r.step == 7 && decide (16 ≤ r.good)) fun s =>
      s.mapReadmit t fun r => { r with step := 8 }

/-- The tile rejoins (step 8, at an epoch boundary), and its silence ends (R500). -/
def Block.rejoin (s : Block) (t : Nat) : Block :=
  let s := s.setTile t { s.tile t with isolated := false }
  let s := if s.fc.active.contains (9, 6, t) then s.relayFault (dieOfTile t) 9 6 t true else s
  ((s.showIso (false, t) false).endReadmit t 1).refloor (domOfTile t)

/-- 64 ticks after step 6 the 16 good Sheafs have not come (R531). -/
def execReadmitTimeout (tile : Tile) (now : Ft) (s : State) : Host.Outcome State Fault Refusal :=
  s.on fun s =>
    let s := s.advance now
    let t := tile.val
    s.when (s.fc.readmits.any fun r => r.tile == t && r.step == 7 && decide (64 ≤ r.ticks)) fun s =>
      s.dropReadmit t 0 2

/-- Domains in RUN that bring-up waits for (Table 18-5, steps 9 and 11). -/
def Block.bootRuns (s : Block) : Block :=
  let run (l : List Nat) : Bool := l.all fun d => s.vstate d == Vs.run
  let s := if run [68, 69, 70, 71] ∧ !s.flag F.HUB_BOOT_STATUS_uncore_up then
      { s with power := { s.power with uncoreAt := some s.now } }.setFld F.HUB_BOOT_STATUS_uncore_up 1 else s
  let s := if run [64, 65, 66, 67] then s.setFld F.HUB_BOOT_STATUS_array_up 1 else s
  let core := (List.range 64).filter fun n => s.vstate n != Vs.failed && !s.isoDom n
  if !core.isEmpty ∧ run core then s.setFld F.HUB_BOOT_STATUS_core_up 1 else s

/-- ref_q has reached the target: RUN (R417). The tiles of a core domain close their switches, or are re-admitted
(R354, R533).
Marks: DEDUCED, log entry 54. -/
def execSoftstartComplete (dom : Dom) (s : State) : Host.Outcome State Fault Refusal :=
  s.live fun s =>
    let d := dom.val
    let v := s.vdom d
    s.when (s.vstate d == Vs.soft && v.refQ == s.fld (F.VRC_DOM_VID_vid_in_force d) * 4096) fun s =>
      let s := (s.setFld (F.VRC_DOM_STATUS_state d) Vs.run).setFld (F.VRC_DOM_CMD_cur d) 1
      let s := s.setVdom d { s.vdom d with runRun := 0, stillRun := 0 }
      let s := { s with power := { s.power with waking := s.power.waking.filter (· != d) } }
      let s := s.bootRuns
      if 64 ≤ d then s
      else
        let s := if s.fc.readmitDom = some d then
            let s := { s with fc := { s.fc with readmitDom := none } }
            s.forAll (tilesOf d) fun s t => s.startReadmit t (some d) false
          else s
        let s := s.forAll ((tilesOf d).filter fun t => (s.post t).open_ && !(s.tile t).isolated) fun s t =>
          s.setPost t { s.post t with closePend := true }
        s.refloor d

/-! ## Failure-risk score (R534-R536) -/

/-- The totals of an interval that ends at the present boundary (R534).
Marks: DEDUCED, log entry 61. -/
def Block.riskCapture (s : Block) : Block :=
  let failed := ((List.range 240).filter fun p => s.phState p == 4 || s.phState p == 5).length
  let m := match s.fc.riskM with | some v => (clampI 0 16 (v.fdiv 16)).toNat | none => 16
  { s with fc := { s.fc with
    riskLast := [s.fc.riskG, s.fc.riskC, s.fc.riskT, failed, m, s.fc.riskN]
    riskG := 0, riskC := 0, riskT := 0, riskM := none, riskN := 0 } }

/-- The score of R535.
Marks: DEDUCED, log entry 61. -/
def Block.riskScore (s : Block) : Nat :=
  let x := fun i => s.fc.riskLast.getD i 0
  satU 16 (s.fld F.FC_RISK_CFG_base + s.fld F.FC_RISK_W0_wg * (x 0 / 1024) + s.fld F.FC_RISK_W0_wc * x 1 +
    s.fld F.FC_RISK_W1_wt * x 2 + s.fld F.FC_RISK_W1_wf * x 3 + s.fld F.FC_RISK_W2_wm * (16 - x 4) +
    s.fld F.FC_RISK_W2_wr * (x 5 / 64))

/-- The score stands at or above the threshold of 25.0. -/
def Block.riskHigh (s : Block) : Bool := Nat.ble (s.fld F.FC_RISK_CFG_risk_thr) (s.fld F.FC_RISK_score)

/-- 25.0 follows the score (R536). -/
def Block.riskFollow (s : Block) : Block := s.follow 25 0 0 s.riskHigh

/-- 4,096 ns after the boundary that ends an interval the score is visible, and 25.0 follows it (R536).
Marks: DEDUCED, log entry 61. -/
def execRiskInterval (s : State) : Host.Outcome State Fault Refusal :=
  s.on fun s =>
    let k := s.tick / 1048576
    s.when (decide (s.fc.riskSeen < k) && decide (4 ≤ s.tick % 1048576)) fun s =>
      let s := { s with fc := { s.fc with riskSeen := k, riskIn := s.fc.riskLast } }
      let s := (s.setFld F.FC_RISK_interval ((k - 1) % 65536)).setFld F.FC_RISK_score s.riskScore
      s.riskFollow

end Sys2Proof.Machine
end

