-- ==== Sys2Proof/Machine/Lifecycle.lean ====
section
/-! DEFINITION. Lifecycle, keys, security version, ceilings and their fuse operations (20_lifecycle_and_security.md,
06_limits_and_budgets.md R286-R291). -/
namespace Sys2Proof.Machine
open Sys2Proof

/-- Further status codes of Table 15-6. -/
def stNoResource : Nat := 0x13
def stBusy : Nat := 0x15

def Block.lcState (s : Block) : Nat := s.fld F.LFC_LC_state

/-! ## States and accesses -/

/-- The access map of a state (Table 20-3). -/
def accessOf (state : Nat) : Nat :=
  match state with
  | 0 => 0x0F
  | 2 => 0x51
  | 3 => 0x01
  | 5 => 0x01
  | _ => 0xFF

/-- The transitions of Table 20-2. -/
def lcPermitted (old new : Nat) : Bool :=
  match old with
  | 0 => new == 1
  | 1 => new == 2 || new == 5
  | 2 => new == 3 || new == 4 || new == 5
  | 3 => new == 4 || new == 5
  | 4 => new == 2 || new == 5
  | _ => false

/-- A transition out of FIELD or FIELD_SEALED to RETURNED or SCRAPPED takes an authorisation record. -/
def lcNeedsAuth (old new : Nat) : Bool := (old == 2 || old == 3) && (new == 4 || new == 5)

/-- Classes of opcodes a lifecycle state accepts (Table 15-4). -/
def lcAccepts (state op : Nat) : Bool :=
  match state with
  | 0 => op / 16 == 0 || op == 0x60 || op == 0xA0 || op == 0xA1
  | 3 => !(op == 0x66 || op == 0x67 || op == 0x94)
  | 5 => op / 16 == 0 || op == 0x60 || op == 0x90 || op == 0xA0
  | _ => true

/-! ## Authorisation records (R772-R774) -/

/-- The nonce of a transition count and a request counter, under the device-unique secret (R774).
Marks: DESIGN CHOICE, log entry 129. -/
def nonceOf (key : BitVec 384) (transitions reqs : Nat) : BitVec 128 :=
  BitVec.ofNat 128 (ofLe ((Config.hmac384 key (leBytes 8 (transitions * 72057594037927936 + reqs)).reverse).take 16))

def Block.scanEn (s : Block) : Bool := s.flag F.BTC_STATUS_scan_en

/-- LFC_AUTH_NONCE shows the nonce of the request counter, or 0 under scan and in SCRAPPED. -/
def Block.showNonce (s : Block) : Block :=
  let v := if s.scanEn || s.lcState == 5 then 0 else (nonceOf s.lfc.secrets.unique (s.fld F.LFC_LC_transitions) s.lfc.reqs).toNat
  s.forAll (List.range 4) fun s k => s.setFld (F.LFC_AUTH_NONCE_nonce k) (getBits v (32 * k) 32)

/-- The checks of R773, in order.
Marks: DEDUCED, log entry 99. -/
def Block.authStatus (s : Block) (r : List Byte) (action target : Nat) : Nat :=
  let nonce := (List.range 4).foldl (fun n k => n + s.fld (F.LFC_AUTH_NONCE_nonce k) <<< (32 * k)) 0
  if r.length ≠ 256 ∨ rdAt r 0 4 ≠ 0x52415651 ∨ rdAt r 4 2 ≠ 1 ∨ !zeroAt r 0x22 14 ∨ !zeroAt r 0x91 15 then stBadParam
  else if rdAt r 6 1 ≠ action ∨ rdAt r 7 1 ≠ target then stBadParam
  else if rdAt r 8 8 ≠ s.fld F.LFC_SERIAL_serial ∨ rdAt r 0x10 16 ≠ nonce ∨ rdAt r 0x20 1 ≠ s.fld F.LFC_LC_transitions ∨
      s.scanEn ∨ s.lcState = 5 then stBadParam
  else if 4 ≤ rdAt r 0x21 1 ∨ !s.keyGood (rdAt r 0x21 1) then stLocked
  else if Config.sha384 ((r.drop 0x30).take 97) ≠ s.keyHash (rdAt r 0x21 1) then stBadParam
  else if !Config.ecdsaVerify ((r.drop 0x30).take 97) (r.take 0xA0) ((r.drop 0xA0).take 96) then stBadParam
  else stOk

/-- Check a record and form a new nonce, whether it passes or fails.
Marks: DEDUCED, log entry 44. -/
def Block.authCheck (s : Block) (r : List Byte) (action target : Nat) : Nat × Block :=
  (s.authStatus r action target,
    (({ s with lfc := { s.lfc with reqs := (s.lfc.reqs + 1) % 72057594037927936 } }).crypto r).showNonce)

/-- Every secret is written with zero and reads back zero (R759, R766). -/
def Block.zeroise (s : Block) : Block :=
  ({ s with lfc := { s.lfc with secrets := Secrets.zero } }).setFld F.BTC_STATUS_zeroised 1

/-! ## Requests -/

/-- Identity of a requester (R289): P0, P4, P6. -/
def Block.requesterOf (s : Block) (src : Nat) : Nat :=
  if src < 64 then 0x1000 + s.fld F.HIU_SESSION_session % 4096 else 0x2000 + (src - 64)
def requesterP6 : Nat := 0x3000

/-- One fuse operation runs at a time, until it has taken effect (R779, log entry 120).
Marks: DESIGN CHOICE, log entry 113; DEDUCED, log entry 120. -/
def Block.fuseBusy (s : Block) : Bool := s.lfc.op.isSome || s.lfc.due.isSome

def Block.fuseStart (s : Block) (k : FuseKind) (req : Nat) : Block :=
  let s := { s with lfc := { s.lfc with op := some ⟨k, req, s.ft⟩, done := none } }.setFld F.LFC_LC_busy 1
  match k with
  | .ceiling _ _ => s.setFld F.LFC_CEIL_STATUS_busy 1
  | _ => s

/-- A request ends with a refusal, or starts its operation; a refusal with BUSY is an event of core 0's (R779).
Marks: DEDUCED, log entry 44; DESIGN CHOICE, log entry 113. -/
def Block.fuseRequest (s : Block) (st : Nat) (k : FuseKind) (req : Nat) : Nat × Block :=
  if st = stOk then (st, s.fuseStart k req)
  else
    let s := if st = stBusy then s.logEvent (s.boundCore 0) s.ft else s
    (st, s.setFld F.LFC_LC_last_result 2)

/-- Programmed slots of ceiling `c`. -/
def usedF (c : Nat) : Fld :=
  match c with
  | 0 => F.LFC_CEIL_STATUS_used_p
  | 1 => F.LFC_CEIL_STATUS_used_v
  | _ => F.LFC_CEIL_STATUS_used_t

/-- The range of a ceiling (Table 06-8): mW, mV, 1/16 degree. -/
def ceilRange (c : Nat) : Nat × Nat :=
  match c with
  | 0 => (300000, 1600000)
  | 1 => (600, 1000)
  | _ => (1600, 1840)

/-- A ceiling update (R288).
Marks: DEDUCED, log entry 120. -/
def Block.ceilingRequest (s : Block) (c value req : Nat) : Nat × Block :=
  let lc := s.lcState
  let st :=
    if 3 ≤ c ∨ value < (ceilRange c).1 ∨ (ceilRange c).2 < value then stBadParam
    else if lc = 0 ∨ lc = 5 ∨ ((lc = 2 ∨ lc = 3) ∧ s.fld (F.LFC_CEIL_value c) ≤ value) ∨
        (!s.access 7 ∧ s.fld (F.LFC_CEIL_value c) < value) then stLocked
    else if 4 ≤ s.fld (usedF c) then stNoResource
    else if s.fuseBusy then stBusy
    else stOk
  s.fuseRequest st (.ceiling c value) req

/-- An image key slot and a bundle key slot 0 are good (Table 20-2). -/
def Block.fieldReady (s : Block) : Bool := s.keyGood 0 && s.keyGood 4

/-- A transition request (R763, R764, R768). Before SCRAPPED every secret is zeroised (R766). -/
def Block.transitionRequest (s : Block) (target : Nat) (r : List Byte) (req : Nat) : Nat × Block :=
  let old := s.lcState
  if 6 ≤ target then s.fuseRequest stBadParam (.transition target) req
  else if s.lfc.lcBad ∨ !lcPermitted old target ∨ (target = 2 ∧ !s.fieldReady) then
    s.fuseRequest stLocked (.transition target) req
  else
    let c := if lcNeedsAuth old target then s.authCheck r 1 target else (stOk, s)
    let st :=
      if c.1 ≠ stOk then c.1
      else if 12 ≤ s.fld F.LFC_LC_transitions then stNoResource
      else if s.scanEn ∨ s.updState ≠ 0 ∨ s.fuseBusy then stBusy
      else stOk
    let b := if st = stOk ∧ target = 5 then c.2.zeroise else c.2
    b.fuseRequest st (.transition target) req

/-- A revocation (R656, R770): kind 0 image, 1 bundle. -/
def Block.revokeRequest (s : Block) (kind slot : Nat) (r : List Byte) (req : Nat) : Nat × Block :=
  let j := 4 * kind + slot
  if 2 ≤ kind ∨ 4 ≤ slot then s.fuseRequest stBadParam (.revoke j) req
  else
    let others := (List.range 4).any fun i => i != slot && s.keyGood i
    let signs := kind == 0 && !s.flag F.FWC_STATUS_rom_wait && s.fld F.FWC_IMAGE_INFO_key_index == slot
    if !s.keyGood j ∨ (kind = 0 ∧ !others) ∨ signs then s.fuseRequest stLocked (.revoke j) req
    else
      let c := s.authCheck r 2 (16 * kind + slot)
      let st :=
        if c.1 ≠ stOk then c.1
        else if 8 ≤ s.lfc.revRecs then stNoResource
        else if s.fuseBusy then stBusy
        else stOk
      c.2.fuseRequest st (.revoke j) req

/-- A raise of the minimum security version (R656, R771). -/
def Block.raiseRequest (s : Block) (svn req : Nat) : Nat × Block :=
  let st :=
    if 64 ≤ svn ∨ svn ≤ s.fld F.LFC_SVN_min_svn ∨ s.fld F.FWC_IMAGE_INFO_svn < svn then stBadParam
    else if 12 ≤ s.fld F.LFC_SVN_raises then stNoResource
    else if s.fuseBusy then stBusy
    else stOk
  s.fuseRequest st (.raise svn) req

/-- A key slot hash over P6 (R769). -/
def Block.keyRequest (s : Block) (slot : Nat) (hash : List Byte) : Nat × Block :=
  let prog := if slot < 4 then bit (s.fld F.LFC_KEYS_img_prog) slot else bit (s.fld F.LFC_KEYS_bnd_prog) (slot - 4)
  let st :=
    if 8 ≤ slot ∨ hash.length ≠ 48 then stBadParam
    else if !s.access 3 ∨ prog then stLocked
    else if 8 ≤ s.lfc.keyRecs then stNoResource
    else if s.fuseBusy then stBusy
    else stOk
  s.fuseRequest st (.key slot hash) requesterP6

/-- An entry of the fused repair map over P6 (R747, R822): the map has 512 entries. -/
def Block.repairRequest (s : Block) (entry : Nat) : Nat × Block :=
  let st :=
    if !s.access 3 then stLocked
    else if 512 ≤ s.lfc.repairs.length then stNoResource
    else if s.fuseBusy then stBusy
    else stOk
  s.fuseRequest st (.repair entry) requesterP6

/-! ## The end of an operation (R290, R776) -/

/-- The entry of LFC_EVT_LOG (R775). -/
def Block.evtLog (s : Block) (k kind value : Nat) (op : FuseOp) : Block :=
  let s := (s.setFld (F.LFC_EVT_LOG_INFO_kind k) kind).setFld (F.LFC_EVT_LOG_INFO_value k) value
  (s.setFld (F.LFC_EVT_LOG_REQ_requester k) op.requester).setFld (F.LFC_EVT_LOG_FT_ft k) op.ft.toNat

/-- The operation ends with a status, and the packet that waits for it completes. -/
def Block.fuseEnd (s : Block) (ok : Bool) : Block :=
  let s := { s with lfc := { s.lfc with op := none, due := none, done := some (if ok then stOk else stFaulted) } }
  ((s.setFld F.LFC_LC_busy 0).setFld F.LFC_CEIL_STATUS_busy 0).setFld F.LFC_LC_last_result (if ok then 1 else 3)

/-- The operation has ended and waits for the next tick boundary. -/
def Block.fuseDue (s : Block) (op : FuseOp) (ok : Bool) : Block :=
  { s with lfc := { s.lfc with op := none, due := some (op, ok, s.tick) } }

/-- A failed verification raises 22.0. -/
def Block.fuseFail (s : Block) (ok : Bool) : Block := if ok then s else s.raise 22 0 0

/-- Free values for `n` words of 32 bits. -/
def Block.freeWords (s : Block) (n : Nat) (put : Block → Nat → Nat → Block) : Block :=
  s.forAll (List.range n) fun s i => let v := s.free; put v.2 i (getBits v.1.toNat 0 32)

/-- A ceiling slot verifies or fails: it is used up either way; a failed slot reads a free value.
Marks: DEDUCED, log entry 43. -/
def Block.ceilingEnd (s : Block) (op : FuseOp) (c value : Nat) (ok : Bool) : Block :=
  let k := s.fld (usedF c)
  let s := s.setFld (usedF c) (k + 1)
  let s := (s.setFld (F.LFC_CEIL_LOG_REQ_requester c k) op.requester).setFld (F.LFC_CEIL_LOG_FT_ft c k) op.ft.toNat
  let s := if ok then s.setFld (F.LFC_CEIL_LOG_VALUE_value c k) value
    else (s.freeWords 1 fun s _ v => s.setFld (F.LFC_CEIL_LOG_VALUE_value c k) v).setFld F.LFC_CEIL_STATUS_fail_seen 1
  (s.fuseDue op ok).fuseFail ok

def execCeilingProgramComplete (ok : Bool) (now : Ft) (s : State) : Host.Outcome State Fault Refusal :=
  s.on fun s =>
    let s := s.advance now
    match s.lfc.op with
    | some op => match op.kind with
      | .ceiling c value => s.ceilingEnd op c value ok
      | _ => s
    | none => s

/-- The new ceiling takes effect at a tick boundary: the value, or the lower of old and new after a failure (R290).
Marks: DEDUCED, log entry 43. -/
def Block.ceilTick (s : Block) : Block :=
  match s.lfc.due with
  | some (op, ok, at_) => match op.kind with
    | .ceiling c value =>
      if at_ < s.tick then
        let old := s.fld (F.LFC_CEIL_value c)
        let s := s.setFld (F.LFC_CEIL_value c) (if ok then value else min old value)
        let s := if c = 1 then s.forAll (List.range 64) fun s n => s.applyFreq n else s
        s.fuseEnd ok
      else s
    | _ => s
  | none => s

/-- A key record verifies, or its slot is treated as revoked and its hash reads as its bits verified.
Marks: DEDUCED, log entry 43. -/
def Block.keyEnd (s : Block) (op : FuseOp) (slot : Nat) (hash : List Byte) (ok : Bool) : Block :=
  let s := s.evtLog (12 + s.lfc.keyRecs) 2 slot op
  let s := { s with lfc := { s.lfc with keyRecs := s.lfc.keyRecs + 1 } }
  let s := if ok then s.forAll (List.range 12) fun s w => s.setFld (F.LFC_KEY_HASH_hash slot w) (rdAt hash (4 * w) 4)
    else s.freeWords 12 fun s w v => s.setFld (F.LFC_KEY_HASH_hash slot w) v
  let (prog, rev, i) := if slot < 4 then (F.LFC_KEYS_img_prog, F.LFC_KEYS_img_revoked, slot)
    else (F.LFC_KEYS_bnd_prog, F.LFC_KEYS_bnd_revoked, slot - 4)
  let s := s.setMapBit prog i true
  if ok then s else s.setMapBit rev i true

def Block.revokeEnd (s : Block) (op : FuseOp) (slot : Nat) (set : Bool) : Block :=
  let s := s.evtLog (20 + s.lfc.revRecs) 3 slot op
  let s := { s with lfc := { s.lfc with revRecs := s.lfc.revRecs + 1 } }
  if slot < 4 then s.setMapBit F.LFC_KEYS_img_revoked slot set else s.setMapBit F.LFC_KEYS_bnd_revoked (slot - 4) set

/-- A raise leaves the bits that read back; they only add to the old minimum.
Marks: DEDUCED, log entry 43. -/
def Block.raiseEnd (s : Block) (op : FuseOp) (svn : Nat) : Block :=
  let n := s.fld F.LFC_SVN_raises
  let s := s.evtLog (28 + n) 4 svn op
  (s.setFld F.LFC_SVN_raises (n + 1)).setFld F.LFC_SVN_min_svn (max svn (s.fld F.LFC_SVN_min_svn))

/-- The end of an operation other than a ceiling update: `rb` says what a failed one left: for a transition and a
revocation whether a bit verified set, for a raise the version its bits read. -/
def Block.fuseComplete (s : Block) (op : FuseOp) (ok : Bool) (rb : Nat) : Block :=
  match op.kind with
  | .ceiling _ _ => s
  | .transition _ => if ok || rb != 0 then (s.fuseDue op ok).fuseFail ok else (s.fuseEnd false).fuseFail false
  | .key slot hash => ((s.keyEnd op slot hash ok).fuseEnd ok).fuseFail ok
  | .revoke slot => ((s.revokeEnd op slot (ok || rb != 0)).fuseEnd ok).fuseFail ok
  | .raise svn => ((s.raiseEnd op (if ok then svn else min svn rb)).fuseEnd ok).fuseFail ok
  | .repair entry =>
    let s := { s with lfc := { s.lfc with repairs := s.lfc.repairs ++ [entry] } }
    let s := s.setSat F.BTC_REPAIR_fuse_used (s.lfc.repairs.length / 2)
    (s.fuseEnd ok).fuseFail ok

/-- A fuse operation verifies or fails, with its readback. -/
def execFuseOpComplete (ok : Bool) (readback : Fin 64) (now : Ft) (s : State) : Host.Outcome State Fault Refusal :=
  s.on fun s =>
    let s := s.advance now
    match s.lfc.op with
    | none => s
    | some op => s.fuseComplete op ok readback.val

/-! ## A transition takes effect (R766, R767) -/

/-- An armed injection that the state does not admit is disarmed, with result 3. -/
def Block.injDisarm (s : Block) : Block :=
  match s.fc.armed with
  | some (det, _, _, _) =>
    if s.injAllowed det then s
    else { s with fc := { s.fc with armed := none } }.setFld F.FC_INJ_STATUS_result 3
  | none => s

/-- Debug is closed: halted cores resume, breakpoints are disarmed, drain_on_break is cleared. -/
def Block.debugClose (s : Block) : Block :=
  let s := s.forAll (List.range 5) fun s c => s.resumeCore c
  let s := s.forAll (List.range 5) fun s c => s.forAll (List.range 4) fun s k => s.setFld (F.FWC_BP_kind c k) 0
  (s.setFld F.FWC_DBG_CTRL_drain_on_break 0).drainFollow

def Block.transitionEffect (s : Block) (op : FuseOp) (target : Nat) (ok : Bool) : Block :=
  let n := s.fld F.LFC_LC_transitions
  let s := s.evtLog n 1 target op
  let s := (s.setFld F.LFC_LC_transitions (n + 1)).setFld F.LFC_LC_state target
  let old := s.fld F.LFC_ACCESS_access
  let new := old &&& accessOf target
  let s := (s.setFld F.LFC_ACCESS_access new).injDisarm
  let s := if bit old 4 && !bit new 4 then s.debugClose else s
  let s := if target = 5 then s.forAll (List.range 64) fun s d => s.disableDomain d else s
  (s.fuseEnd ok).showNonce

/-- The first tick boundary after the record has verified. -/
def execLcTransitionEffect (s : State) : Host.Outcome State Fault Refusal :=
  s.on fun s =>
    match s.lfc.due with
    | some (op, ok, at_) => match op.kind with
      | .transition target => s.when (Nat.blt at_ s.tick) fun s => s.transitionEffect op target ok
      | _ => s
    | none => s

end Sys2Proof.Machine
end

