-- ==== Sys2Proof/Machine/Telemetry.lean ====
section
/-! DEFINITION. Telemetry intervals, trace and digest records, and the global stop (16_telemetry_trace_debug.md). -/
namespace Sys2Proof.Machine
open Sys2Proof

/-- 2,048 ns after the end of an interval its records are written (R663-R665). -/
def execTelemetryIntervalEnd (ring : Fin 4) (now : Ft) (s : State) : Host.Outcome State Fault Refusal :=
  s.on fun s =>
    let s := s.advance now
    let s := if s.telDue ring.val (s.now / 1024) then s.telSwitch ring.val else s
    match s.telEnded ring.val s.tick with
    | some i => s.when (Nat.ble (i * 1024 + 2048) s.now) fun s => s.telWrite ring.val (i * 1024)
    | none => s

/-- Places a message takes in a Relay's VC3 buffer (R670). -/
def Vc3.places : Vc3 → Nat
  | .boundary _ => 3
  | .digest _ => 10
  | .loss _ => 0

/-- The oldest VC3 message of a Relay leaves it. -/
def Block.popVc3 (s : Block) (die : Nat) (m : Vc3) (rest : List Vc3) : Block :=
  let q := s.relay die
  s.setRelay die { q with vc3 := rest, vc3Fill := q.vc3Fill - m.places }

/-- The flits of a VC3 message, by type, and the source in their headers (R669, R670, R675). -/
def Vc3.flits : Vc3 → List (Nat × DWord)
  | .boundary r => r.flits
  | .digest r => r.flits
  | .loss n => [(7, BitVec.ofNat 64 (packBits [(48, 16, satU 16 n)]))]
def Vc3.source (die : Nat) : Vc3 → Nat
  | .boundary r => r.tile
  | .digest r => r.tile
  | .loss _ => srcRelay die

/-- The oldest VC3 message of a Relay goes up the link, behind what waits on VC0 (R66). -/
def Block.sendVc3 (s : Block) (die : Nat) (m : Vc3) (rest : List Vc3) : Option Block :=
  (s.sbLows die 3 (m.source die) m.flits).map fun s => s.popVc3 die m rest

/-- A boundary record goes on: from a tile's Post to its Relay, or, with no tile named, the oldest boundary record or
loss flit of a Relay to the TTU (R669-R671). -/
def execTraceRecord (die : Die) (tile : Option Tile) (s : State) : Host.Outcome State Fault Refusal :=
  s.on fun s =>
    match tile with
    | some t => s.when (s.post t.val).powered fun s => s.postTrace t.val
    | none =>
      let d := die.val
      match (s.relay d).vc3 with
      | .boundary r :: rest => match s.sendVc3 d (.boundary r) rest with
        | some s => s.traceArrive (traceOf s.now (r.flits.map (·.2)))
        | none => s
      | .loss n :: rest => match s.sendVc3 d (.loss n) rest with
        | some s => { s with ttu := { s.ttu with relayLost := s.ttu.relayLost.set d (s.ttu.relayLost.getD d 0 + satU 16 n) } }
        | none => s
      | _ => s

/-- The oldest VC3 message of a Relay, a digest record, reaches the TTU (R675, R676). -/
def execDigestRecord (die : Die) (s : State) : Host.Outcome State Fault Refusal :=
  s.on fun s =>
    let d := die.val
    match (s.relay d).vc3 with
    | .digest r :: rest => match s.sendVc3 d (.digest r) rest with
      | some s => s.digestEntries (digestOf s.now (r.flits.map (·.2)))
      | none => s
    | _ => s

/-! ## Global stop (R679-R683) -/

/-- Arm the stop with the FT that TTU_STOP_FT holds.
Marks: DEDUCED, log entry 67. -/
def Block.stopArm (s : Block) : Block :=
  if s.fld F.TTU_STOP_STATUS_state = 0 then (s.setFld F.TTU_STOP_CTRL_arm 1).setFld F.TTU_STOP_STATUS_state 1 else s

def execStopArm (s : State) : Host.Outcome State Fault Refusal := s.on fun s => s.stopArm

/-- A record of the capture area (Table 16-16). -/
def CapItem.bytes (i : CapItem) : List Byte :=
  u8 i.kind.val ++ u8 (b2n i.down) ++ leBytes 2 i.num.toNat ++ leBytes 4 i.seq.toNat ++ leBytes 8 i.ft.toNat ++
    leBytes 4 i.word.toNat ++ List.replicate 4 0 ++ leBytes 8 i.body.toNat

/-- The cut: the Posts' gates close, the boost is 0, and the items in flight across the crossings are recorded, at most
16,382 (R680-R682, Table 16-15).
Marks: DEDUCED, log entry 67. -/
def Block.stopCut (s : Block) (items : List CapItem) : Block :=
  let s := s.forAll (s.posts.map (·.1)) fun s t => s.setPost t { s.post t with gate := false }
  let s := s.forAll (s.vdoms.map (·.1)) fun s d => s.setVdom d { s.vdom d with boost := 0 }
  let s := s.forAll (List.range 64) fun s n => s.setFld (F.LG_MARGIN_DOM_boost_mv n) 0
  let l := (items.take 16382).map CapItem.bytes
  let s := { s with ttu := { s.ttu with capture := l } }
  let s := ((s.setFld F.TTU_STOP_CTRL_arm 0).setFld F.TTU_STOP_STATUS_state 2).setFld F.TTU_STOP_STATUS_records l.length
  s.setFld F.TTU_STOP_STATUS_overflow (b2n (decide (16382 < items.length)))

/-- `items`: what lay on the links, crossings and pulse counts at the cut. -/
def execGlobalStopCut (items : List CapItem) (now : Ft) (s : State) : Host.Outcome State Fault Refusal :=
  s.on fun s =>
    let s := s.advance now
    s.when (s.fld F.TTU_STOP_STATUS_state == 1 && Nat.ble (s.fld F.TTU_STOP_FT_stop_ft) s.now) fun s => s.stopCut items

/-- The stop capture area, header and records (R682). -/
def Block.captureArea (s : Block) : List Byte :=
  leBytes 8 (s.fld F.TTU_STOP_FT_stop_ft) ++ leBytes 4 s.ttu.capture.length ++
    leBytes 1 (s.fld F.TTU_STOP_STATUS_overflow) ++ List.replicate 51 0 ++ s.ttu.capture.flatten

end Sys2Proof.Machine
end

