-- ==== Sys2Proof/Machine/Rings.lean ====
section
/-! DEFINITION. Rings, doorbells, the fetch and the checks of packets, completions, heartbeats and sessions
(14_rings_and_negotiation.md, 15_control_packets.md R621-R636). -/
namespace Sys2Proof.Machine
open Sys2Proof

/-- Further status codes of Table 15-6. -/
def stBadOpcode : Nat := 0x10
def stNotNegotiated : Nat := 0x12
def stSuperseded : Nat := 1
def stClamped : Nat := 2
def stDeferred : Nat := 3

/-! ## Rings (R585-R593) -/

def Block.ringEntries (s : Block) (r : Nat) : Nat := 2 ^ s.fld (F.HIU_RING_CFG_log2_size r)
def Block.prod (s : Block) (r : Nat) : Nat := s.fld (F.HIU_RING_PROD_pos r)
def Block.cons (s : Block) (r : Nat) : Nat := s.fld (F.HIU_RING_CONS_pos r)

/-- Entries a ring holds, modulo 2^32 (R589). -/
def Block.held (s : Block) (r : Nat) : Nat := (s.prod r + 4294967296 - s.cons r) % 4294967296

/-- The bytes of a ring, from its offset in the region on. -/
def Block.ringOff (s : Block) (r : Nat) : Nat := s.fld (F.HIU_RING_BASE_off r) * 4096
def Block.ringEnd (s : Block) (r : Nat) : Nat := s.ringOff r + 64 * s.ringEntries r

/-- The conditions of R587. -/
def Block.ringOk (s : Block) (r : Nat) : Bool :=
  let n := s.fld (F.HIU_RING_CFG_log2_size r)
  decide (6 ≤ n) && decide (n ≤ 16) && Nat.ble (s.ringEnd r) 67108864 &&
    (decide (64 ≤ r) || (s.flag (F.HIU_RING_CFG_en (r + 64)) && Nat.ble (s.ringEntries r) (s.ringEntries (r + 64))))

/-- A write of en = 1 (R587, R588, R593). -/
def Block.ringEnable (s : Block) (r : Nat) : Block :=
  if s.flag (F.HIU_RING_CFG_en r) then s
  else if s.ringOk r then
    let s := ((s.setFld (F.HIU_RING_PROD_pos r) 0).setFld (F.HIU_RING_CONS_pos r) 0).setFld (F.HIU_RING_CFG_en r) 1
    (s.setFld (F.HIU_RING_STATUS_dropped r) 0).setFld (F.HIU_RING_STATUS_stopped r) 0
  else s.setFld (F.HIU_RING_STATUS_proto_err_seen r) 1

def execRingEnable (ring : Ring) (s : State) : Host.Outcome State Fault Refusal := s.on fun s => s.ringEnable ring.val

/-- A write of en = 0 (R588). -/
def Block.ringDisable (s : Block) (r : Nat) : Block := s.setFld (F.HIU_RING_CFG_en r) 0

def execRingDisable (ring : Ring) (s : State) : Host.Outcome State Fault Refusal := s.on fun s => s.ringDisable ring.val

/-- The HIU stops a ring (R591, R601). -/
def Block.ringStop (s : Block) (r : Nat) (seen : Fld) (src : Nat) : Block :=
  let s := (s.setFld (F.HIU_RING_STATUS_stopped r) 1).setFld seen 1
  { s with hiu := { s.hiu with stopAt := Tab.set zeroN s.hiu.stopAt r s.now } }.raise 17 src r

/-- A doorbell value: the host's side of the ring moves, or the ring stops (R590, R591).
Marks: DEDUCED, log entry 69. -/
def Block.doorbell (s : Block) (r v : Nat) : Block :=
  if !s.ringOn r then s
  else
    let f := if r < 64 then F.HIU_RING_PROD_pos r else F.HIU_RING_CONS_pos r
    let back := Nat.ble 2147483648 ((v + 4294967296 - s.fld f) % 4294967296)
    let s' := s.setFld f v
    if back || Nat.blt (s.ringEntries r) (s'.held r) then s.ringStop r (F.HIU_RING_STATUS_proto_err_seen r) 1 else s'

def execDoorbell (ring : Ring) (value : Word) (now : Ft) (s : State) : Host.Outcome State Fault Refusal :=
  s.on fun s => (s.advance now).doorbell ring.val value.toNat

/-! ## Sessions (R602-R606) -/

/-- The contract minor of the running image (Table 13-8). -/
def Block.imageMinor (s : Block) : Nat := (⟨s.region s.fwc.boot.active⟩ : Image).contract % 256

/-- Marks: DEDUCED, log entry 108. -/
def Block.mgmtOf (s : Block) (eid : Nat) : Option Mgmt := s.hiu.mgmt.find? (·.eid == eid)

/-- The minor a source's packets are read under (R608, step 2 of Table 15-3). -/
def Block.minorOf (s : Block) (src : Nat) : Nat :=
  if src < 64 then if s.fld F.HIU_SESSION_session = 0 then s.imageMinor else s.fld F.HIU_SESSION_minor
  else match s.mgmtOf (src - 64) with
    | some m => if m.num = 0 then s.imageMinor else m.minor
    | none => s.imageMinor

/-- The committed features of a source. -/
def Block.featsOf (s : Block) (src : Nat) : Nat :=
  if src < 64 then (List.range 8).foldl (fun n k => n + s.fld (F.HIU_FEAT_committed k) <<< (32 * k)) 0
  else match s.mgmtOf (src - 64) with
    | some m => m.feats
    | none => 0

/-- The session state of a source: 0 DETACHED, 1 NEGOTIATING, 2 ATTACHED, 3 UNATTENDED. -/
def Block.sessionOf (s : Block) (src : Nat) : Nat :=
  if src < 64 then s.fld F.HIU_SESSION_state
  else match s.mgmtOf (src - 64) with
    | some m => if m.neg.isSome then 1 else if m.attached then 2 else 0
    | none => 0

/-! ## The opcodes (Tables 15-8 to 15-18) -/

/-- Minimum inline length of an opcode (R622); `none` for an opcode that no table lists. -/
def minLen (op : Nat) : Option Nat :=
  match op with
  | 0x00 => some 0 | 0x01 => some 0x28 | 0x02 => some 0x22 | 0x03 => some 0 | 0x04 => some 0
  | 0x10 => some 0x0C | 0x11 => some 0x0C | 0x12 => some 6 | 0x13 => some 1 | 0x14 => some 1 | 0x15 => some 1
  | 0x16 => some 1
  | 0x20 => some 0x14 | 0x21 => some 0x12 | 0x22 => some 0 | 0x23 => some 8 | 0x24 => some 0
  | 0x30 => some 2 | 0x31 => some 8 | 0x32 => some 0x20 | 0x33 => some 1 | 0x34 => some 2
  | 0x40 => some 0 | 0x41 => some 0x10 | 0x42 => some 2 | 0x43 => some 0x20 | 0x44 => some 1 | 0x45 => some 3
  | 0x46 => some 0x20 | 0x47 => some 4
  | 0x50 => some 0x10 | 0x51 => some 6 | 0x52 => some 0x0C | 0x53 => some 1
  | 0x60 => some 0 | 0x61 => some 4 | 0x62 => some 3 | 0x63 => some 0x20 | 0x64 => some 4 | 0x65 => some 4
  | 0x66 => some 5 | 0x67 => some 5 | 0x68 => some 0x20 | 0x69 => some 0
  | 0x70 => some 5 | 0x71 => some 0 | 0x72 => some 0 | 0x73 => some 0
  | 0x80 => some 0x10 | 0x81 => some 0x20 | 0x82 => some 0
  | 0x90 => some 1 | 0x91 => some 1 | 0x92 => some 1 | 0x93 => some 2 | 0x94 => some 8 | 0x95 => some 0
  | 0xA0 => some 0 | 0xA1 => some 1 | 0xA2 => some 2 | 0xA3 => some 1
  | _ => none

/-- The minor that introduced an opcode. -/
def minMinor (op : Nat) : Nat :=
  match op with
  | 0x34 => 1 | 0x47 => 2 | 0x69 => 3 | 0x95 => 2
  | _ => 0

/-- The feature bit an opcode needs (Table 14-4); `none` for class 0x0_. -/
def featOf (op : Nat) : Option Nat :=
  match op / 16 with
  | 0 => none
  | 2 => if op = 0x23 ∨ op = 0x24 then some 2 else some 0
  | 3 => some 5
  | 4 => some 11
  | 5 => some (match op with | 0x51 => 6 | 0x52 => 7 | _ => 8)
  | 6 => if op = 0x66 ∨ op = 0x67 then some 10 else some 0
  | 7 => some 3
  | 8 => some 4
  | _ => some 0

/-- The ports that serve an opcode: any ring, ring 0 only, P4. -/
def onPort (op src : Nat) : Bool :=
  let p4 := decide (64 ≤ src)
  let ring0 := src == 0
  match op / 16 with
  | 2 => true
  | 4 => !p4 || op == 0x42 || op == 0x46
  | 6 => ring0 || (p4 && !(op == 0x66 || op == 0x67))
  | 7 => ring0
  | 8 => p4 || op != 0x80
  | 9 => !p4 || op == 0x90 || op == 0x91
  | _ => ring0 || p4

/-- The home core of an opcode (Table 13-4); 4 is the supervisor.
Marks: DEDUCED, log entry 76. -/
def homeOf (op : Nat) : Nat :=
  match op / 16 with
  | 1 => 1
  | 2 => 1
  | 3 => 1
  | 4 => if op = 0x46 then 1 else 2
  | 5 => 3
  | 6 => 3
  | 7 => 4
  | 8 => 1
  | 9 => if op = 0x95 then 3 else 0
  | 10 => 4
  | _ => 0

/-- The tasks of a home core run. -/
def Block.homeRuns (s : Block) (h : Nat) : Bool :=
  if h = 4 then s.supRuns && !s.flag F.FWC_STATUS_rom_wait else s.coreRuns h

/-! ## Outcomes -/

/-- A job that a packet becomes. -/
def Block.push (s : Block) (j : Job) : Block := { s with hiu := { s.hiu with jobs := s.hiu.jobs ++ [j] } }

/-- A packet has its outcome. -/
def Block.finish (s : Block) (p : Pkt) (status : Nat) (result : List Byte := []) (buf : List Byte := []) : Block :=
  s.push ⟨p, .none, status, 0, false, 0, s.now, some ⟨status, 0, result, buf⟩⟩

/-- A packet of class B or H waits for its event. -/
def Block.await (s : Block) (p : Pkt) (w : Wait) (status notes : Nat) (arg : Nat := 0) : Block :=
  s.push ⟨p, w, status, notes, true, arg, s.now, none⟩

/-- A packet of class B or H has taken effect at once. -/
def Block.effect (s : Block) (p : Pkt) (status notes : Nat) (arg : Nat := 0) : Block :=
  let j : Job := ⟨p, .none, status, notes, true, arg, s.now, none⟩
  s.push { j with out := some ⟨status, s.now, s.jobResult j, []⟩ }

/-! ## Fetch and checks (R594, R595, R600, R628) -/

/-- Packets of a source that have not completed. -/
def Block.outstandingOf (s : Block) (src : Nat) : List Pkt :=
  (s.hiu.fetched ++ s.hiu.accepted ++ s.hiu.jobs.map (·.pkt)).filter fun (p : Pkt) => p.src == src

/-- Step 1 of Table 15-3. -/
def Block.headerOk (s : Block) (p : Pkt) : Bool :=
  decide (p.flags < 4) && rdAt p.entry 5 1 == 0 && decide (p.length ≤ 48) &&
    p.ctx == (if p.src < 64 then p.src else 0) && !(s.outstandingOf p.src).any fun q => q.tag == p.tag

/-- Steps 2-5 of Table 15-3. -/
def Block.acceptStatus (s : Block) (p : Pkt) : Nat :=
  let op := p.opcode
  let feats := s.featsOf p.src
  let needs := (match featOf op with | some b => !bit feats b | none => false) || (p.flags != 0 && !bit feats 1)
  let inState := s.sessionOf p.src == 2 || (op / 16 == 0 && (p.src == 0 || p.onP4))
  if (minLen op).isNone ∨ s.minorOf p.src < minMinor op then stBadOpcode
  else if !inState ∨ needs then stNotNegotiated
  else if !onPort op p.src then stLocked
  else if !lcAccepts s.lcState op then stLocked
  else stOk

/-- Fetched packets go on, one of each source at a time, in fetch order. -/
def Block.takeNext (s : Block) : Block :=
  s.hiu.fetched.foldl (fun (s : Block) (p : Pkt) =>
    if s.hiu.accepted.any fun (q : Pkt) => q.src == p.src then s
    else
      let s := { s with hiu := { s.hiu with fetched := s.hiu.fetched.erase p } }
      let st := s.acceptStatus p
      if st = stOk then { s with hiu := { s.hiu with accepted := s.hiu.accepted ++ [p] } } else s.finish p st) s

/-- A packet arrives: its event, with the ft of its header (R623), step 1, then its place in the order.
Marks: DESIGN CHOICE, log entry 130. -/
def Block.takePacket (s : Block) (p : Pkt) : Block :=
  let s := s.logEvent (s.boundCore 0) (BitVec.ofNat 64 p.ft)
  if s.headerOk p then ({ s with hiu := { s.hiu with fetched := s.hiu.fetched ++ [p] } }).takeNext
  else s.finish p stBadParam

/-- 64 bytes of an entry. -/
def entryOf (l : List Byte) : List Byte := l.take 64 ++ List.replicate (64 - min 64 l.length) 0

/-- Firmware fetches the next entry of a submission ring: the bytes the DMA read, and the payload buffer's, `none`
after an error status (R594, R600, R601). A packet-carried error of a buffer is met when the packet is carried out.
Marks: DEDUCED, log entry 69. -/
def execPacketFetch (ring : Ctx) (entry payload : Option (List Byte)) (now : Ft) (s : State) :
    Host.Outcome State Fault Refusal :=
  s.on fun s =>
    let s := s.advance now
    let r := ring.val
    let room := Nat.blt (s.held (r + 64) + (s.outstandingOf r).length) (s.ringEntries (r + 64))
    s.when (s.coreRuns 0 && s.ringOn r && s.ringOn (r + 64) && s.held r != 0 && room) fun s =>
      match entry, s.stim 8 r with
      | _, some _ =>
        (s.setStim 8 r none).injecting true fun s => s.ringStop r (F.HIU_RING_STATUS_proto_err_seen r) 1
      | none, none => s.ringStop r (F.HIU_RING_STATUS_dma_err_seen r) 2
      | some e, none =>
        let s := s.incWrap (F.HIU_RING_CONS_pos r)
        s.takePacket ⟨r, entryOf e, s.cons r % 65536, payload, s.now, 0⟩

/-- Take the first accepted packet of an opcode for which no earlier packet of its home core waits, and carry it out;
then the next packets go on. -/
def Block.serve (s : Block) (op : Nat) (f : Block → Pkt → Block) : Block :=
  let h := homeOf op
  match s.hiu.accepted.find? fun (p : Pkt) => homeOf p.opcode == h with
  | some p =>
    if p.opcode = op ∧ s.homeRuns h then
      (f { s with hiu := { s.hiu with accepted := s.hiu.accepted.erase p } } p).takeNext
    else s
  | none => s

/-! ## Steps 7 of every opcode (R622, R625, R626, R814) -/

def Pkt.bufOff (p : Pkt) : Nat := p.arg 0x20 4
def Pkt.bufLen (p : Pkt) : Nat := p.arg 0x24 4
def Pkt.resOff (p : Pkt) : Nat := p.arg 0x28 4
def Pkt.resLen (p : Pkt) : Nat := p.arg 0x2C 4
def Pkt.hasBuf (p : Pkt) : Bool := bit p.flags 0
def Pkt.hasRes (p : Pkt) : Bool := bit p.flags 1

/-- A buffer lies in the region and clear of every enabled ring (R626). -/
def Block.bufferClear (s : Block) (off len : Nat) : Bool :=
  Nat.ble (off + len) 67108864 &&
    (List.range 134).all fun r => !s.flag (F.HIU_RING_CFG_en r) || Nat.ble (off + len) (s.ringOff r) || Nat.ble (s.ringEnd r) off

/-- The alignment and the length of a buffer (Table 15-2). -/
def bufferForm (off len least : Nat) : Bool := off % 8 == 0 && Nat.ble least len && Nat.ble len 131072

/-- The buffers of a ring's packet lie where R626 admits them: in the region, clear of enabled rings and of each other. -/
def Block.buffersClear (s : Block) (p : Pkt) : Bool :=
  (!p.hasBuf || s.bufferClear p.bufOff p.bufLen) && (!p.hasRes || s.bufferClear p.resOff p.resLen) &&
    (!(p.hasBuf && p.hasRes) || Nat.ble (p.bufOff + p.bufLen) p.resOff || Nat.ble (p.resOff + p.resLen) p.bufOff)

/-- The descriptor of a packet is good. -/
def Block.descriptorOk (s : Block) (p : Pkt) : Bool :=
  if p.onP4 then
    (!p.hasBuf || (decide (1 ≤ p.bufLen) && p.payload.any fun l => l.length == p.bufLen)) &&
      (!p.hasRes || (decide (8 ≤ p.resLen) && Nat.ble p.resLen 4096))
  else
    (!p.hasBuf || bufferForm p.bufOff p.bufLen 1) && (!p.hasRes || bufferForm p.resOff p.resLen 8) && s.buffersClear p

/-- The payload buffer's bytes. -/
def Pkt.buf (p : Pkt) : List Byte := if p.hasBuf then (p.payload.getD []).take p.bufLen else []

/-- A packet with a good length and descriptor and a fetched buffer goes on; others complete, with 17.2 for a buffer that
cannot be read or lies where it may not (R601, R622, R626). -/
def Block.checked (s : Block) (p : Pkt) (f : Block → Block) : Block :=
  let least := max ((minLen p.opcode).getD 0) (if p.flags = 0 then 0 else 0x30)
  if p.length < least then s.finish p stBadParam
  else if !s.descriptorOk p then (if p.onP4 || s.buffersClear p then s else s.raise 17 2 p.src).finish p stBadParam
  else if p.hasBuf ∧ p.payload.isNone then (s.raise 17 2 p.src).finish p stFaulted
  else f s

/-- Carry out an opcode whose step 6 has no refusal of its own. -/
def Block.opcode (s : Block) (op : Nat) (f : Block → Pkt → Block) : Block :=
  s.serve op fun s p => s.checked p fun s => f s p

/-- A result of an opcode that returns a buffer: to the result buffer, when it is long enough; on P4 the part asked for. -/
def Block.finishBuf (s : Block) (p : Pkt) (inline buf : List Byte) (st : Nat := stOk) : Block :=
  if !p.hasRes then s.finish p st inline
  else if p.onP4 then
    let part := ((buf.drop p.resOff).take p.resLen)
    s.finish p st inline part
  else if p.resLen < buf.length then s.finish p stBadParam
  else s.finish p st inline buf

/-! ## Completions (R597-R599, R627, R632) -/

/-- The 48 result bytes of a completion. -/
def Job.result (j : Job) (o : Outc) : List Byte :=
  if j.tail then layout [(0, o.result), (0x24, u8 j.notes), (0x28, u64 o.applied)]
  else layout [(0, o.result), (48, [])]

/-- The 64 bytes of a completion, its phase bit 0 (Table 14-2). -/
def Block.completion (s : Block) (j : Job) (o : Outc) : List Byte :=
  let p := j.pkt
  u16 p.tag ++ u8 p.opcode ++ u8 o.status ++ u8 p.ctx ++ u8 (if o.buf.isEmpty then 0 else 2) ++ u16 p.subCons ++
    u64 s.now ++ j.result o

/-- The phase of an entry at a position. -/
def phaseOf (q size : Nat) : Nat := 1 - q / size % 2

/-- Write an entry at the producer position: bytes 8-3F, bytes 0-7 with the phase, the position, the interrupt. -/
def Block.writeEntry (s : Block) (r : Nat) (l : List Byte) : Block × Writes :=
  let n := s.ringEntries r
  let q := s.prod r
  let off := s.ringOff r + 64 * (q % n)
  let l := l.set 5 (BitVec.ofNat 8 (putBits (rdAt l 5 1) 0 1 (phaseOf q n)))
  let s := s.incWrap (F.HIU_RING_PROD_pos r)
  (if s.flag (F.HIU_RING_CFG_irq_en r) then
    { s with hiu := { s.hiu with irqs := s.hiu.irqs ++ [s.fld (F.HIU_RING_CFG_irq_vec r)] } }
  else s, [(off + 8, l.drop 8), (off, l.take 8)])

/-- A DMA write fails: counted, 17.2, and the position stays (R601).
Marks: DEDUCED, log entry 70. -/
def Block.writeFailed (s : Block) (r : Nat) : Block := (s.loseEntries r 1).raise 17 2 r

/-- The oldest completed packet of a source. -/
def Block.doneJob (s : Block) (p : Job → Bool) : Option (Job × Outc) :=
  s.hiu.jobs.findSome? fun (j : Job) => if p j then j.out.map fun o => (j, o) else none

def Block.dropJob (s : Block) (j : Job) : Block := { s with hiu := { s.hiu with jobs := s.hiu.jobs.erase j } }

/-- A completion goes to its ring: the result buffer first.
Marks: DEDUCED, log entry 70. -/
def Block.writeCompletion (s : Block) (r : Nat) (j : Job) (o : Outc) (fail : Bool) : Block × Writes :=
  let s := s.dropJob j
  if !s.ringOn r then (s, [])
  else if fail then (s.writeFailed r, [])
  else
    let e := s.writeEntry r (s.completion j o)
    (e.1, (j.pkt.resOff, o.buf) :: e.2)

/-- A TTU entry's bytes (Table 16-1). -/
def Entry.bytes (e : Entry) (lost : Nat) : List Byte :=
  layout [(0, u8 e.kind ++ u8 e.part ++ u16 (satU 16 lost) ++ u8 e.aux ++ u8 0 ++ u16 e.count ++ u64 e.ft.toNat ++ e.body),
    (64, [])]

/-- The first queued entry of a ring is written or lost (R596, R658, R659).
Marks: DEDUCED, log entry 69. -/
def Block.writeTtu (s : Block) (r : Nat) (fail : Bool) : Block × Writes :=
  match s.ttu.queue.find? fun (e : Entry) => e.ring == r with
  | none => (s, [])
  | some e =>
    if s.ttu.queue.any fun (x : Entry) => decide (x.ring < r) then (s, [])
    else
      let s := { s with ttu := { s.ttu with queue := s.ttu.queue.erase e } }
      let s := if r = 133 then
        s.setFld F.TTU_STATUS_trace_fill (s.ttu.queue.filter fun (x : Entry) => x.ring == 133).length else s
      if !s.ringOn r then (s, [])
      else if fail then (s.writeFailed r, [])
      else if s.ringEntries r ≤ s.held r then (s.loseEntries r 1, [])
      else
        let b := e.bytes (Tab.get zeroN s.ttu.lost r)
        { s with ttu := { s.ttu with lost := Tab.set zeroN s.ttu.lost r 0 } }.writeEntry r b

/-- The enterprise number in the byte order of DSP0236, and a response body (R812). -/
def Block.vendorMsg (s : Block) (cmd seq cc : Nat) (data : List Byte) : List Byte :=
  u8 0x7F ++ (u32 (s.fld F.MPU_MCTP_VENDOR_enterprise)).reverse ++ u8 (cmd + 128) ++ u8 seq ++ u8 cc ++ u8 0 ++ data

/-- The MPU sends something; a new message has lost no arbitration yet (R809).
Marks: DESIGN CHOICE, log entry 90. -/
def Block.send (s : Block) (t : Tx) : Block := { s with mpu := { s.mpu with tx := s.mpu.tx ++ [t], arbLost := 0 } }

/-- Write DRAINING to a context. -/
def Block.drainCtx (s : Block) (c : Nat) : Block :=
  let s := { s with hiu := { s.hiu with drainAt := Tab.set zeroN s.hiu.drainAt c s.now } }
  s.setFld (F.SILO_CTX_CFG_state c) 2

/-- The host session becomes UNATTENDED (R612, R613). -/
def Block.unattended (s : Block) (fault : Bool) : Block :=
  let s := s.setFld F.HIU_SESSION_state 3
  let l := ((List.range 63).map (· + 1)).filter fun c =>
    s.fld (F.SILO_CTX_CFG_state c) == 1 && s.flag (F.SILO_CTX_CFG_needs_host c)
  let s := s.forAll l fun s c => s.drainCtx c
  if fault then s.raise 17 3 0 else s

/-- What the completion of a GOODBYE ends: the host session becomes UNATTENDED; on P4 the session of the endpoint ends
(R613).
Marks: DEDUCED, log entry 108. -/
def Block.leaves (s : Block) (j : Job) (o : Outc) : Block :=
  if j.pkt.opcode ≠ 0x03 ∨ o.status ≠ 0 then s
  else if j.pkt.onP4 then
    let l := s.hiu.mgmt.filter fun (x : Mgmt) => x.eid + 64 != j.pkt.src
    ({ s with hiu := { s.hiu with mgmt := l } }).setFld F.MPU_STATUS_sessions l.length
  else s.unattended false

/-- A completed packet of P4 is answered (R627, R816). -/
def Block.answerP4 (s : Block) (j : Job) (o : Outc) : Block :=
  let b := s.completion j o ++ o.buf
  ((s.dropJob j).leaves j o).send (.msg (j.pkt.src - 64) (s.vendorMsg 0x01 j.pkt.seq 0 b))

/-- The HIU writes the next completion or TTU entry of a ring, or, with no ring, the MPU answers the oldest completed
packet of P4. `fail`: a DMA write returned an error. -/
def Block.completionWrite (s : Block) (ring : Option Ring) (fail : Bool) : Block × Writes :=
  match ring with
  | none => match s.coreRuns 0, s.doneJob fun (j : Job) => j.pkt.onP4 with
    | true, some (j, o) => (s.answerP4 j o, [])
    | _, _ => (s, [])
  | some r =>
    if 128 ≤ r.val then s.writeTtu r.val fail
    else match s.coreRuns 0, s.doneJob fun (j : Job) => decide (j.pkt.src + 64 = r.val) with
      | true, some (j, o) =>
        let x := s.writeCompletion r.val j o fail
        (x.1.leaves j o, x.2)
      | _, _ => (s, [])

def execCompletionWrite (ring : Option Ring) (fail : Bool) (now : Ft) (s : State) : Host.Outcome State Fault Refusal :=
  s.writing false fun s => (s.advance now).completionWrite ring fail

/-- By stop_ft + 250 µs the completion of GLOBAL_STOP is written, and the stop is complete (R683).
Marks: DEDUCED, log entry 67. -/
def Block.stopComplete (s : Block) : Block × Writes :=
  let s := s.setFld F.TTU_STOP_STATUS_state 3
  match s.hiu.jobs.find? fun (j : Job) => j.wait == .stop && j.out.isNone with
  | some j =>
    let cut := s.fld F.TTU_STOP_FT_stop_ft
    let o : Outc := ⟨worse 0 j.status, cut, u64 cut ++ u32 (s.fld F.TTU_STOP_STATUS_records), []⟩
    s.writeCompletion (j.pkt.src + 64) j o false
  | none => (s, [])

def execGlobalStopComplete (now : Ft) (s : State) : Host.Outcome State Fault Refusal :=
  s.writing true fun s =>
    let s := s.advance now
    if s.fld F.TTU_STOP_STATUS_state = 2 then s.stopComplete else (s, [])

/-! ## Heartbeats (R610-R613) -/

/-- Any write of HIU_HB is a heartbeat. -/
def Block.heartbeat (s : Block) (v : Nat) : Block := (s.setFld F.HIU_HB_value v).setFld F.HIU_HB_LAST_ft s.now

def execHeartbeat (value : Word) (now : Ft) (s : State) : Host.Outcome State Fault Refusal :=
  s.on fun s => (s.advance now).heartbeat value.toNat

def execHeartbeatTimeout (now : Ft) (s : State) : Host.Outcome State Fault Refusal :=
  s.on fun s =>
    let s := s.advance now
    let base := max (s.fld F.HIU_HB_LAST_ft) s.hiu.commitAt.toNat
    s.when (s.fld F.HIU_SESSION_state == 2 && s.coreRuns 0 &&
        Nat.ble (base + s.fld F.HIU_HB_CFG_timeout_ms * 1000000) s.now) fun s => s.unattended true

end Sys2Proof.Machine
end

