-- ==== Sys2Proof/Machine/PacketOps.lean ====
section
/-! DEFINITION. What several packets share: clamped fields, free results, and requests of several masters for one setting
(15_control_packets.md R632, R633; 06_limits_and_budgets.md R293, R294). -/
namespace Sys2Proof.Machine
open Sys2Proof

/-- A packet's command: time advances, and the first packet of the opcode is carried out. -/
def State.packet (s : State) (now : Ft) (op : Nat) (f : Block → Pkt → Block) : Host.Outcome State Fault Refusal :=
  s.on fun s => (s.advance now).opcode op f

/-- The same, for an opcode with a refusal of Table 15-5: `some` status where it applies. -/
def State.packetIf (s : State) (now : Ft) (op : Nat) (refuse : Block → Pkt → Option Nat) (f : Block → Pkt → Block) :
    Host.Outcome State Fault Refusal :=
  s.on fun s => (s.advance now).serve op fun s p =>
    match refuse s p with
    | some st => s.finish p st
    | none => s.checked p fun s => f s p

/-- `n` bytes of free values.
Marks: DESIGN CHOICE, log entry 1. -/
def Block.freeBytes (s : Block) (n : Nat) : List Byte × Block :=
  let k := (n + 7) / 8
  (((List.range k).flatMap fun i => u64 (Config.freeValue (s.freeCounter + i)).toNat).take n,
    { s with freeCounter := s.freeCounter + k })

/-- CLAMPED and its note, or OK. -/
def clampSt (c : Bool) : Nat := if c then stClamped else stOk

/-- A domain operand of class 0x3_: the domains it names, none for a bad one (R641). -/
def domsOf (d : Nat) : List Nat := if d = 0xFF then List.range 64 else if d < 64 then [d] else []

/-- The count of a range of tiles lies outside 1-1,024 and is taken as the nearest limit (R12, R628). -/
def Pkt.tilesCl (p : Pkt) : Bool := !p.hasBuf && clampN 1 1024 (p.arg 4 2) != p.arg 4 2

/-- Tiles that a packet names: a range, or the bitmap of the payload buffer; `none` for a bad one.
Marks: DEDUCED, log entry 72. -/
def Pkt.tiles (p : Pkt) : Option (List Nat) :=
  if p.hasBuf then
    if p.bufLen = 128 then
      let m := ofLe p.buf
      some ((List.range 1024).filter (bit m))
    else none
  else
    let first := p.arg 2 2
    let n := clampN 1 1024 (p.arg 4 2)
    if first + n ≤ 1024 then some ((List.range n).map (first + ·)) else none

/-! ## Single-valued settings (R293, R633) -/

/-- The settings a packet asks for, as (code, instance): codes of Table 16-8, and numbers of the model from 0x100 on.
Marks: DESIGN CHOICE, log entry 40. -/
def Pkt.keys (p : Pkt) : List (Nat × Nat) :=
  match p.opcode with
  | 0x10 => if 0 < p.arg 0 1 then [(0x23, p.arg 0 1)] else []
  | 0x11 => [(0x23, p.arg 0 1)]
  | 0x20 => [(p.arg 0 1, p.slot)]
  | 0x21 => [(0x10 + p.arg 0 1, p.slot)]
  | 0x30 => (domsOf (p.arg 0 1)).map fun n => (0x20, n)
  | 0x31 => (domsOf (p.arg 0 1)).map fun n => (0x100, n)
  | 0x32 => ((List.range 18).filter (bit (p.arg 0x1C 4))).map fun i => (0x101, i)
  | 0x43 => ((List.range 6).filter (bit (p.arg 0x1C 4))).map fun i => (0x102, i)
  | 0x46 => if bit (p.arg 0x1C 4) 1 then [(0x22, 0)] else []
  | 0x50 => [(0x24, p.arg 0 1)]
  | 0x51 => (p.tiles.getD []).map fun t => (0x103, t)
  | 0x52 => (p.tiles.getD []).map fun t => (0x104, t)
  | _ => []

/-- The settings that a packet stores at once, before its completion is written (R642, R645). -/
def Pkt.nowKeys (p : Pkt) : List (Nat × Nat) :=
  match p.opcode with
  | 0x30 => p.keys
  | 0x46 => if bit (p.arg 0x1C 4) 0 then [(0x21, 0)] else []
  | _ => []

/-- The code and instance a decision on a setting is logged under; a setting that Table 16-8 does not list has a free code.
Marks: DEDUCED, log entries 39 and 114; DESIGN CHOICE, log entry 40. -/
def Block.logKey (s : Block) (key : Nat × Nat) : (Nat × Nat) × Block :=
  let f := s.free
  if key.1 < 0x20 then ((key.1, 0), s)
  else if key.1 = 0x103 ∨ key.1 = 0x104 then ((0x24, 133), s)
  else if key.1 < 0x100 then (key, s)
  else ((f.1.toNat % 65536, key.2), f.2)

/-- A decision SUPERSEDED (1) or DEFERRED (2) goes to the event ring and the LG log (R294). -/
def Block.decision (s : Block) (key : Nat × Nat) (what winner losers old new ft : Nat) : Block :=
  let l := s.logKey key
  l.2.setting l.1.1 l.1.2 what winner losers old new (BitVec.ofNat 64 ft)

def overlap (a b : List (Nat × Nat)) : Bool := a.any fun k => b.contains k

/-- What becomes of a packet whose setting is displaced: SUPERSEDED, at once unless another setting of it still waits.
Marks: DESIGN CHOICE, log entry 40. -/
def Block.displaced (s : Block) (j : Job) (waits : Bool) : Job :=
  match waits, j.out with
  | true, _ => { j with out := some ⟨worse stSuperseded j.status, 0, s.jobResult j, []⟩ }
  | false, some o => { j with out := some { o with status := worse stSuperseded o.status } }
  | false, none => { j with status := worse stSuperseded j.status }

/-- Earlier packets with one of these settings for the same boundary `k` are displaced, as long as their completion is not
written: masters and the jobs left. `same`: the waits of such packets.
Marks: DESIGN CHOICE, log entry 40. -/
def Block.displace (s : Block) (keys : List (Nat × Nat)) (k : Nat) (same : Wait → Bool) : List Nat × Block :=
  let mine (j : Job) : List (Nat × Nat) := if j.pkt.opcode = 0x10 then [(0x23, j.arg)] else j.pkt.keys
  let waits (j : Job) : Bool := j.out.isNone && same j.wait && overlap (mine j) keys
  let stored (j : Job) : Bool := j.at_ / 1024 + 1 == k && overlap j.pkt.nowKeys keys
  let hit (j : Job) : Bool := waits j || stored j
  let l := (s.hiu.jobs.filter hit).map fun (j : Job) => j.pkt.master
  let jobs := s.hiu.jobs.map fun (j : Job) => if hit j then s.displaced j (waits j) else j
  (l, { s with hiu := { s.hiu with jobs := jobs } })

/-- A request of the master of a rank for settings that take effect at boundary `k` (numbered by its kind, FT `ft`): false
where an earlier request of a higher master stands; else it stands, and what it displaces has lost. The value before and
the one asked for are for the log.
Marks: DESIGN CHOICE, log entry 40. -/
def Block.contend (s : Block) (keys : List (Nat × Nat)) (rank k ft old new : Nat) (same : Wait → Bool) : Bool × Block :=
  let mine (c : Claim) : Bool := keys.contains (c.code, c.inst) && c.at_ == k
  match s.hiu.claims.find? fun (c : Claim) => mine c && decide (c.rank < rank) with
  | some c => (false, s.decision (c.code, c.inst) 1 c.rank (2 ^ rank) c.old c.new ft)
  | none =>
    let old := ((s.hiu.claims.find? mine).map (·.old)).getD old
    let d := s.displace keys k same
    let lost := d.1 ++ ((s.hiu.claims.filter fun c => mine c && decide (rank < c.rank)).map (·.rank))
    let s := if lost.isEmpty then d.2
      else d.2.decision (keys.headD (0, 0)) 1 rank (lost.foldl (fun m r => setBit m r true) 0) old new ft
    let keep := s.hiu.claims.filter fun (c : Claim) => !mine c
    (true, { s with hiu := { s.hiu with claims := keep ++ keys.map fun q => ⟨q.1, q.2, rank, k, old, new⟩ } })

/-- A packet that loses its setting completes with SUPERSEDED. -/
def Block.superseded (s : Block) (p : Pkt) : Block :=
  s.push ⟨p, .none, stSuperseded, 0, true, 0, s.now, some ⟨stSuperseded, 0, [], []⟩⟩

/-- A setting that is asked for: its key, the value before and the one asked for (R294). -/
abbrev Ask : Type := (Nat × Nat) × Nat × Nat

/-- Requests for several settings, each decided for itself: the keys of those that stand. -/
def Block.contendAll (s : Block) (l : List Ask) (rank k ft : Nat) (same : Wait → Bool) : List (Nat × Nat) × Block :=
  l.foldl (fun acc x =>
    let r := acc.2.contend [x.1] rank k ft x.2.1 x.2.2 same
    (if r.1 then acc.1 ++ [x.1] else acc.1, r.2)) ([], s)

/-- The numbers of keys as a mask. -/
def keyMask (l : List (Nat × Nat)) : Nat := l.foldl (fun m q => setBit m q.2 true) 0

/-- A packet's request for single-valued settings: those that stand are stored, with SUPERSEDED where one is lost; a packet
that loses them all stores nothing (R293, R632).
Marks: DESIGN CHOICE, log entry 40. -/
def Block.single (s : Block) (p : Pkt) (k ft : Nat) (same : Wait → Bool) (l : List Ask)
    (store : Block → List (Nat × Nat) → Nat → Block) : Block :=
  let r := s.contendAll l p.master k ft same
  if r.1.isEmpty ∧ !l.isEmpty then r.2.superseded p
  else store r.2 r.1 (if r.1.length < l.length then stSuperseded else stOk)

/-- A request against a setting that the LG holds is stored and deferred (R293). -/
def Block.deferred (s : Block) (key : Nat × Nat) (rank old new : Nat) : Block :=
  s.decision key 2 0 (2 ^ rank) old new s.now

end Sys2Proof.Machine
end

