-- ==== Sys2Proof/Machine/SessionPk.lean ====
section
/-! DEFINITION. Session packets, class 0x0_ (15_control_packets.md R636; 14_rings_and_negotiation.md R602-R606, R613). -/
namespace Sys2Proof.Machine
open Sys2Proof

def execNop (now : Ft) (s : State) : Host.Outcome State Fault Refusal := s.packet now 0x00 fun s p => s.finish p stOk

/-- The features the running image and the part support (Table 14-6). -/
def Block.featSup (s : Block) : Nat :=
  (List.range 8).foldl (fun n k => n + s.fld (F.HIU_FEAT_SUP_supported k) <<< (32 * k)) 0

/-- The eight profile words of HIU_PROFILES. -/
def Block.profiles (s : Block) : List Nat :=
  (List.range 4).flatMap fun k => [s.fld (F.HIU_PROFILES_prof_lo k), s.fld (F.HIU_PROFILES_prof_hi k)]

/-- Marks: DEDUCED, log entry 108. -/
def Block.setMgmt (s : Block) (m : Mgmt) : Block :=
  let l := s.hiu.mgmt.filter fun (x : Mgmt) => x.eid != m.eid
  let s := { s with hiu := { s.hiu with mgmt := l ++ [m] } }
  s.setFld F.MPU_STATUS_sessions s.hiu.mgmt.length

/-- The answer to a HELLO stands for the session of its source. -/
def Block.setNeg (s : Block) (src : Nat) (n : Neg) : Block :=
  if src < 64 then ({ s with hiu := { s.hiu with neg := some n } }).setFld F.HIU_SESSION_state 1
  else
    let m := (s.mgmtOf (src - 64)).getD ⟨src - 64, none, false, 0, 0, s.fld F.HIU_PROFILE_native, 0⟩
    s.setMgmt { m with neg := some n }

def Block.hello (s : Block) (p : Pkt) : Block :=
  if p.arg 0 1 ≠ 1 then s.finish p stNotNegotiated
  else if p.onP4 ∧ (s.mgmtOf (p.src - 64)).isNone ∧ 4 ≤ s.hiu.mgmt.length then s.finish p stNoResource
  else
    let m := min (p.arg 1 1) s.imageMinor
    let inter := p.arg 8 32 &&& s.featSup
    let prof := s.profiles
    let r := layout [(0, leBytes 16 inter), (0x10, u8 1), (0x11, u8 m), (0x12, u8 (prof.filter (· != 0)).length),
      (0x14, u16 (s.fld F.HIU_PROFILE_native)), (0x18, prof.flatMap u16)]
    (s.setNeg p.src ⟨m, inter, p.arg 4 4⟩).finish p stOk r

def execHello (now : Ft) (s : State) : Host.Outcome State Fault Refusal := s.packet now 0x01 fun s p => s.hello p

/-- The answer that waits for a COMMIT of a source. -/
def Block.negOf (s : Block) (src : Nat) : Option Neg :=
  if src < 64 then if s.fld F.HIU_SESSION_state = 1 then s.hiu.neg else none
  else match s.mgmtOf (src - 64) with
    | some m => m.neg
    | none => none

/-- The session number after one (R604). -/
def nextSession (n : Nat) : Nat := if n = 4095 then 1 else n + 1

/-- The effects of a host COMMIT: HIU_FEAT, HIU_SESSION, HIU_PROFILE, the timeout, and the end of 17.3. -/
def Block.commitHost (s : Block) (m feats prof hb : Nat) : Block :=
  let s := s.forAll (List.range 8) fun s k => s.setFld (F.HIU_FEAT_committed k) (getBits feats (32 * k) 32)
  let s := ((s.setFld F.HIU_SESSION_major 1).setFld F.HIU_SESSION_minor m).setFld F.HIU_PROFILE_selected prof
  let s := s.setFld F.HIU_SESSION_session (nextSession (s.fld F.HIU_SESSION_session))
  let s := (s.setFld F.HIU_SESSION_state 2).setFld F.HIU_HB_CFG_timeout_ms hb
  ({ s with hiu := { s.hiu with neg := none, commitAt := s.ft } }).unraise 17 3 0

def Block.commit (s : Block) (p : Pkt) : Block :=
  let feats := p.arg 0 32
  let prof := p.arg 0x20 2
  match s.negOf p.src with
  | none => s.finish p stNotNegotiated
  | some n =>
    let anyCtx := (List.range 63).any fun c => s.fld (F.SILO_CTX_CFG_state (c + 1)) != 0
    if feats &&& n.feats ≠ feats ∨ !bit feats 0 then s.finish p stBadParam
    else if prof = 0 ∨ !s.profiles.contains prof then s.finish p stBadParam
    else if prof ≠ s.fld F.HIU_PROFILE_selected ∧ anyCtx then s.finish p stLocked
    else if p.onP4 then
      match s.mgmtOf (p.src - 64) with
      | none => s
      | some m =>
        let num := nextSession m.num
        (s.setMgmt ⟨m.eid, none, true, n.minor, feats, prof, num⟩).finish p stOk (u16 num ++ u8 n.minor)
    else
      let hb := clampN 100 10000 n.hb
      let s := s.commitHost n.minor feats prof hb
      s.finish p (clampSt (hb != n.hb)) (layout [(0, u16 (s.fld F.HIU_SESSION_session)), (2, u8 n.minor), (4, u32 hb)])

def execCommit (now : Ft) (s : State) : Host.Outcome State Fault Refusal := s.packet now 0x02 fun s p => s.commit p

/-- GOODBYE completes before the state changes: what it ends, it ends when its completion has gone (R613). -/
def Block.goodbye (s : Block) (p : Pkt) : Block :=
  let st := s.sessionOf p.src
  if st < 2 then s.finish p stNotNegotiated
  else s.finish p stOk

def execGoodbye (now : Ft) (s : State) : Host.Outcome State Fault Refusal := s.packet now 0x03 fun s p => s.goodbye p

def Block.identify (s : Block) : List Byte :=
  let img : Image := ⟨s.region s.fwc.boot.active⟩
  u32 (s.reg 0).toNat ++ u32 (s.reg 4).toNat ++ u32 (s.reg 8).toNat ++ u32 (s.fld F.FWC_IMAGE_version) ++
    u16 img.contract ++ u8 s.lcState ++ u8 0 ++ s.profiles.flatMap u16

def execIdentify (now : Ft) (s : State) : Host.Outcome State Fault Refusal :=
  s.packet now 0x04 fun s p => s.finish p stOk s.identify

end Sys2Proof.Machine
end

