-- ==== Sys2Proof/Machine/CtxPk.lean ====
section
/-! DEFINITION. Context packets, class 0x1_ (15_control_packets.md R637, R638). -/
namespace Sys2Proof.Machine
open Sys2Proof

/-- The epoch at which a write of a context record takes effect: the first division that starts after it (R340). -/
def Block.ctxEpoch (s : Block) : Nat := if s.silo.divided = some s.epoch then s.epoch + 2 else s.epoch + 1

/-- A budget record as a packet gives it, within the ranges of Table 06-9: minimum, maximum, priority, weight; and whether
a value was clamped.
Marks: DEDUCED, log entry 45. -/
def Block.budgetOf (s : Block) (p : Pkt) : (Nat × Nat × Nat × Nat) × Bool :=
  let mx := min (p.arg 8 4) s.cP
  let mn := min (p.arg 4 4) mx
  let pr := min (p.arg 2 1) 7
  let wt := max 1 (p.arg 3 1)
  ((mn, mx, pr, wt), mx != p.arg 8 4 || mn != p.arg 4 4 || pr != p.arg 2 1 || wt != p.arg 3 1)

/-- The record would raise the sum of the minima above the pool of the current epoch (R297): one that lowers or keeps its
context's own minimum raises no sum.
Marks: DEDUCED, log entry 44; DESIGN CHOICE, log entry 136. -/
def Block.overPool (s : Block) (create : Bool) (c mn : Nat) : Bool :=
  let rest := sumN ((s.activeCtxs.filter (· != c)).map fun x => s.fld (F.SILO_CTX_MIN_min_mw x))
  let own := if create then 0 else s.fld (F.SILO_CTX_MIN_min_mw c)
  Nat.blt (s.silo.pool.getD (s.fld F.SILO_POOL_pool_mw)) (rest + mn) && Nat.blt own mn

def Block.storeBudget (s : Block) (c flags : Nat) (b : Nat × Nat × Nat × Nat) : Block :=
  let s := (s.setFld (F.SILO_CTX_MIN_min_mw c) b.1).setFld (F.SILO_CTX_MAX_max_mw c) b.2.1
  let s := (s.setFld (F.SILO_CTX_CFG_priority c) b.2.2.1).setFld (F.SILO_CTX_CFG_weight c) b.2.2.2
  (s.setFld (F.SILO_CTX_CFG_state_securing c) (getBits flags 0 1)).setFld (F.SILO_CTX_CFG_needs_host c) (getBits flags 1 1)

/-- Map a tile to a context in SILO_TILE_CTX. -/
def Block.mapTile (s : Block) (t c : Nat) : Block := s.setFld ⟨0xA800 + 4 * (t / 4), 8 * (t % 4), 6⟩ c

/-- Marks: DEDUCED, log entry 45. -/
def Block.ctxCreate (s : Block) (p : Pkt) : Block :=
  let named := p.arg 0 1
  let free (c : Nat) : Bool := s.fld (F.SILO_CTX_CFG_state c) == 0
  if 63 < named ∨ 4 ≤ p.arg 1 1 ∨ (named ≠ 0 ∧ !free named) then s.finish p stBadParam
  else match (if named ≠ 0 then some named else ((List.range 63).map (· + 1)).find? free) with
    | none => s.finish p stNoResource
    | some c =>
      let (b, cl) := s.budgetOf p
      if s.overPool true c b.1 then s.finish p stNoResource
      else
        let k := s.ctxEpoch
        let old := s.fld (F.SILO_CTX_MAX_max_mw c)
        let s := (s.storeBudget c (p.arg 1 1) b).setFld (F.SILO_CTX_CFG_state c) 1
        let s := s.forAll ((List.range 1024).filter fun t => s.tileCtxReg t == c) fun s t => s.mapTile t 0
        let label := if 3 ≤ s.minorOf p.src then p.arg 0x10 8 else 0
        let s := { s with hiu := { s.hiu with labels := Tab.set zeroN s.hiu.labels c label } }
        let s := (s.contend [(0x23, c)] p.master k (k * 16384) old b.2.1 (· == .epoch k)).2
        s.await p (.epoch k) (clampSt cl) (b2n cl) c

/-- Creation is refused from any port while the host session is UNATTENDED (Table 15-5). -/
def execCtxCreate (now : Ft) (s : State) : Host.Outcome State Fault Refusal :=
  s.packetIf now 0x10 (fun s _ => if s.fld F.HIU_SESSION_state = 3 then some stLocked else none) fun s p => s.ctxCreate p

/-- A target context that exists. -/
def Block.forCtx (s : Block) (p : Pkt) (f : Nat → Block) : Block :=
  let c := p.arg 0 1
  if c = 0 ∨ 63 < c then s.finish p stBadParam else f c

def execCtxSetBudget (now : Ft) (s : State) : Host.Outcome State Fault Refusal :=
  s.packet now 0x11 fun s p => s.forCtx p fun c =>
    if p.arg 8 4 < p.arg 4 4 ∨ 4 ≤ p.arg 1 1 then s.finish p stBadParam
    else
      let (b, cl) := s.budgetOf p
      let k := s.ctxEpoch
      if s.overPool false c b.1 then s.finish p stNoResource
      else s.single p k (k * 16384) (· == .epoch k) [((0x23, c), s.fld (F.SILO_CTX_MAX_max_mw c), b.2.1)] fun s _ _ =>
        (s.storeBudget c (p.arg 1 1) b).await p (.epoch k) (clampSt cl) (b2n cl)

/-- Tiles are added from context 0 or FREE contexts only; a removed tile goes to context 0. -/
def execCtxSetTiles (now : Ft) (s : State) : Host.Outcome State Fault Refusal :=
  s.packet now 0x12 fun s p => s.forCtx p fun c =>
    let k := s.ctxEpoch
    match p.arg 1 1, p.tiles with
    | 0, some l =>
      if l.all fun t => s.tileCtxReg t == 0 || s.fld (F.SILO_CTX_CFG_state (s.tileCtxReg t)) == 0 then
        (s.forAll l fun s t => s.mapTile t c).await p (.epoch k) (clampSt p.tilesCl) (b2n p.tilesCl)
      else s.finish p stBadParam
    | 1, some l => (s.forAll (l.filter fun t => s.tileCtxReg t == c) fun s t => s.mapTile t 0).await p (.epoch k)
        (clampSt p.tilesCl) (b2n p.tilesCl)
    | _, _ => s.finish p stBadParam

/-- Marks: DEDUCED, log entry 45. -/
def execCtxDrain (now : Ft) (s : State) : Host.Outcome State Fault Refusal :=
  s.packet now 0x13 fun s p => s.forCtx p fun c => (s.drainCtx c).await p (.drained c) stOk 0

/-- Marks: DEDUCED, log entry 45. -/
def execCtxFree (now : Ft) (s : State) : Host.Outcome State Fault Refusal :=
  s.packet now 0x14 fun s p => s.forCtx p fun c => (s.drainCtx c).await p (.freed c) stOk 0

/-- From P4, a needs_host context is not activated while the host is UNATTENDED (Table 15-5). -/
def execCtxActivate (now : Ft) (s : State) : Host.Outcome State Fault Refusal :=
  s.packetIf now 0x15 (fun s p =>
      if s.fld F.HIU_SESSION_state = 3 ∧ p.onP4 ∧ 1 ≤ p.arg 0 1 ∧ p.arg 0 1 < 64 ∧ s.flag (F.SILO_CTX_CFG_needs_host (p.arg 0 1))
      then some stLocked else none)
    fun s p => s.forCtx p fun c =>
      if s.fld (F.SILO_CTX_CFG_state c) = 2 then
        let k := s.ctxEpoch
        (s.setFld (F.SILO_CTX_CFG_state c) 1).await p (.epoch k) stOk 0
      else s.finish p stBadParam

def execCtxQuery (now : Ft) (s : State) : Host.Outcome State Fault Refusal :=
  s.packet now 0x16 fun s p => s.forCtx p fun c =>
    let credit := sumI ((List.range 4).map fun d => s.credit d c)
    let label := if 3 ≤ s.minorOf p.src then Tab.get zeroN s.hiu.labels c else 0
    s.finish p stOk (layout [(0, u8 (s.fld (F.SILO_CTX_CFG_state c)) ++ u8 (s.fld (F.SILO_CTX_STAT_drained c))),
      (4, u32 (s.fld (F.SILO_CTX_SHARE_share_mw c))), (8, u32 (s.fld (F.SILO_CTX_STAT_busy_tiles c))),
      (0xC, u32 (s.fld (F.SILO_CTX_STAT_waits c))), (0x10, u64 (s.fld (F.SILO_CTX_EACC_eacc_nj c))),
      (0x18, leBytes 8 (ofSigned 64 credit)), (0x20, u64 label)])

end Sys2Proof.Machine
end

