-- ==== Sys2Proof/Machine/LimitPk.lean ====
section
/-! DEFINITION. Limit and margin packets, classes 0x2_ and 0x3_ (15_control_packets.md R639-R642). -/
namespace Sys2Proof.Machine
open Sys2Proof

/-! ## Limits (R639) -/

/-- A write of a request slot replaces an earlier one of the same slot for the same tick (R633). -/
def Block.unschedule (s : Block) (k : Nat) (same : Sched → Bool) : Block :=
  { s with time := { s.time with sched := s.time.sched.filter fun (x : Nat × Sched) => !(x.1 == k && same x.2) } }
def Block.schedule (s : Block) (k : Nat) (a : Sched) (same : Sched → Bool) : Block :=
  let s := s.unschedule k same
  { s with time := { s.time with sched := s.time.sched ++ [(k, a)] } }

/-- A named tick (R99): 0 means the next boundary. -/
def Block.namedTick (s : Block) (at_ : Nat) : Option Nat :=
  if at_ = 0 then some (s.tick + 1) else if s.tick + 8 ≤ at_ then some at_ else none

/-- A request for a slot: written at once when it takes effect at the next boundary, else scheduled (R269). -/
def Block.slotRequest (s : Block) (p : Pkt) (f : Fld) (v : Nat) (cl : Bool) (a : Sched) (same : Sched → Bool) : Block :=
  match s.namedTick (p.arg 8 8) with
  | none => s.finish p stBadParam
  | some k =>
    s.single p k (k * 1024) (· == .tick k) (p.keys.map fun q => (q, s.fld f, v)) fun s _ _ =>
      let s := if p.arg 8 8 = 0 then (s.unschedule k same).setFld f v else s.schedule k a same
      s.await p (.tick k) (clampSt cl) (b2n cl)

def Block.limitSet (s : Block) (p : Pkt) : Block :=
  let n := p.arg 0 1
  let m := p.slot
  if n = 0 ∨ 4 < n then s.finish p stBadParam
  else
    let v := clampN (if n = 1 then 1600 else 300000) (s.limTop (n - 1)) (p.arg 0x10 4)
    s.slotRequest p (limSlotF n m) v (v != p.arg 0x10 4) (.limit n m v) fun a => match a with
      | .limit n' m' _ => n' == n && m' == m
      | _ => false

/-- L4 is refused to the board of a lending member (Table 15-5).
Marks: DEDUCED, log entry 41. -/
def execLimitSet (now : Ft) (s : State) : Host.Outcome State Fault Refusal :=
  s.packetIf now 0x20 (fun s p => if p.onP4 ∧ p.arg 0 1 = 4 ∧ 2 ≤ s.lend.cfg.n then some stLocked else none)
    fun s p => s.limitSet p

/-- Range of a thermal threshold (Table 06-4), 1/16 degree. -/
def Block.thermRange (s : Block) (which : Nat) : Int × Int :=
  match which with
  | 0 => (960, 1760)
  | 1 => (1120, 1760)
  | 2 => (1600, s.fld (F.LFC_CEIL_value 2))
  | _ => (1120, 1520)

def Block.thermalSet (s : Block) (p : Pkt) : Block :=
  let w := p.arg 0 1
  let m := p.slot
  if 4 < w then s.finish p stBadParam
  else
    let r := s.thermRange w
    let v := clampI r.1 r.2 (p.argI 0x10 2)
    s.slotRequest p (thermSlot w m) v.toNat (v != p.argI 0x10 2) (.thermal w m v.toNat) fun a => match a with
      | .thermal w' m' _ => w' == w && m' == m
      | _ => false

def execThermalSet (now : Ft) (s : State) : Host.Outcome State Fault Refusal := s.packet now 0x21 fun s p => s.thermalSet p

def execLimitQuery (now : Ft) (s : State) : Host.Outcome State Fault Refusal :=
  s.packet now 0x22 fun s p => s.finish p stOk (layout [(0, u16 (s.fld F.LG_LIM1_EFF_thr)),
    (4, u32 (s.fld (F.LG_LIM_EFF_thr 0))), (8, u32 (s.fld (F.LG_LIM_EFF_thr 1))), (0xC, u32 (s.fld (F.LG_LIM_EFF_thr 2))),
    (0x10, u32 (s.fld (F.LG_AVG_avg_mw 0))), (0x14, u32 (s.fld (F.LG_AVG_avg_mw 1))), (0x18, u32 (s.fld (F.LG_AVG_avg_mw 2))),
    (0x1C, s32 s.lg.adj), (0x20, u32 (s.fld F.LG_PKG_P_p_mw)), (0x24, u8 (s.fld F.LG_STATUS_level)),
    (0x25, u8 (s.fld F.LG_STATUS_dom))])

/-! ## Ceilings (R640) -/

def Block.ceilingUpdate (s : Block) (p : Pkt) : Block :=
  let c := p.arg 0 1
  let v := if c = 2 then (p.argI 4 2).toNat else p.arg 4 4
  let slot := s.fld (usedF c)
  match s.ceilingRequest c v (s.requesterOf p.src) with
  | (st, s) => if st = stOk then s.await p (.ceiling c) stOk 0 slot else s.finish p st

def execCeilingUpdate (now : Ft) (s : State) : Host.Outcome State Fault Refusal :=
  s.packet now 0x23 fun s p => s.ceilingUpdate p

def Block.ceilingLog (s : Block) : List Byte :=
  (List.range 3).flatMap fun c => (List.range 4).flatMap fun k =>
    u32 (s.fld (F.LFC_CEIL_LOG_VALUE_value c k)) ++ u16 (s.fld (F.LFC_CEIL_LOG_REQ_requester c k)) ++ u16 0 ++
      u64 (s.fld (F.LFC_CEIL_LOG_FT_ft c k))

def execCeilingQuery (now : Ft) (s : State) : Host.Outcome State Fault Refusal :=
  s.packet now 0x24 fun s p => s.finishBuf p
    ((List.range 3).flatMap (fun c => u32 (s.fld (F.LFC_CEIL_value c))) ++
      (List.range 3).flatMap (fun c => u8 (s.fld (usedF c)))) s.ceilingLog

/-! ## Margin (R641, R642) -/

/-- One domain's requested mode, asked for by the master of a rank, is stored, displaced by a higher master of the same
boundary, or deferred while the LG holds the domain (R371, R293). -/
def Block.modeRequest (s : Block) (rank n mode : Nat) : Nat × Block :=
  let k := s.tick + 1
  let old := s.fld (F.LG_MARGIN_MODE_req n)
  match s.contend [(0x20, n)] rank k (k * 1024) old mode fun _ => false with
  | (false, s) => (stSuperseded, s)
  | (true, s) =>
    let s := s.setFld (F.LG_MARGIN_MODE_req n) mode
    if s.flag (F.LG_MARGIN_MODE_held n) then (stDeferred, s.deferred (0x20, n) rank old mode) else (stOk, s)

/-- Marks: DESIGN CHOICE, log entry 53. -/
def Block.marginSetMode (s : Block) (p : Pkt) : Block :=
  let mode := p.arg 1 1
  let l := domsOf (p.arg 0 1)
  if l.isEmpty ∨ 2 < mode then s.finish p stBadParam
  else
    let r := l.foldl (fun (acc : Nat × Block) n => let x := acc.2.modeRequest p.master n mode; (worse acc.1 x.1, x.2)) (stOk, s)
    match l with
    | [n] => r.2.finish p r.1 (u8 (r.2.fld (F.LG_MARGIN_MODE_mode n)) ++ u8 (r.2.fld (F.LG_MARGIN_MODE_blocked n)) ++
        u8 (r.2.fld (F.LG_MARGIN_MODE_held n)))
    | _ => let f := r.2.freeBytes 3; f.2.finish p r.1 f.1

def execMarginSetMode (now : Ft) (s : State) : Host.Outcome State Fault Refusal :=
  s.packet now 0x30 fun s p => s.marginSetMode p

/-- The frequency that a request would bring into force. -/
def Block.freqFor (s : Block) (n freq : Nat) : Nat :=
  (s.admitted n (s.margin n).pen (if s.idleFreq then 800 else freq)).getD 800

/-- A request of frequencies: at once when nothing changes, else it waits for PLL lock; an earlier one whose target is
not yet reached is displaced (R641, Table 15-6).
Marks: DEDUCED, log entry 52; DESIGN CHOICE, log entry 53. -/
def Block.marginSetFreq (s : Block) (p : Pkt) : Block :=
  let l := domsOf (p.arg 0 1)
  let v := clampN 800000 2200000 (p.arg 4 4)
  let cl := v != p.arg 4 4
  let mhz := v / 25000 * 25
  if l.isEmpty then s.finish p stBadParam
  else
    let k := s.time.epoch + 1
    let same (w : Wait) : Bool := match w with | .pll _ _ => true | _ => false
    s.single p k (k * 16384) same (l.map fun n => ((0x100, n), s.fld (F.LG_MARGIN_FREQ_f_req n), mhz)) fun s won st =>
      let f := s.free
      let l := won.map (·.2)
      let s := s.forAll l fun s n => s.setFld (F.LG_MARGIN_FREQ_f_req n) mhz
      let still := l.all fun n => s.freqFor n mhz == s.fld (F.LG_MARGIN_FREQ_f_now n) && (s.margin n).pll == .idle
      let (arg, s) := if p.arg 0 1 < 64 then (0, s) else (f.1.toNat, { s with freeCounter := f.2.freeCounter })
      if still then s.effect p (worse st (clampSt cl)) (b2n cl) arg
      else s.await p (.pll k l) (worse st (clampSt cl)) (b2n cl) arg

def execMarginSetFreq (now : Ft) (s : State) : Host.Outcome State Fault Refusal :=
  s.packet now 0x31 fun s p => s.marginSetFreq p

/-- The fields of MARGIN_SET_PARAMS in payload order: register field, offset and size in the payload, range, and the form
of its register code: 0 as it stands, 1 a multiple of 5 mV above the range's bottom, 2 a ratio 2 or 4. -/
def marginParams : List (Fld × Nat × Nat × Nat × Nat × Nat) :=
  [(F.LG_MARGIN_PEN_pen_static, 0, 2, 40, 100, 0), (F.LG_MARGIN_PEN_pen_adp, 2, 2, 25, 60, 0),
    (F.LG_MARGIN_PEN_pen_ant, 4, 2, 15, 40, 0), (F.LG_MARGIN_LANT_thr_static, 6, 2, 15, 60, 1),
    (F.LG_MARGIN_LANT_thr_adp, 8, 2, 15, 60, 1), (F.LG_MARGIN_LANT_thr_ant, 0xA, 2, 15, 60, 1),
    (F.LG_MARGIN_LANT_deep_off, 0xC, 2, 10, 25, 1), (F.LG_MARGIN_LANT_div, 0xE, 1, 2, 4, 2),
    (F.LG_MARGIN_LANT_str_hold, 0xF, 1, 8, 255, 0), (F.LG_MARGIN_CFG_glint_max_adp, 0x10, 1, 1, 255, 0),
    (F.LG_MARGIN_CFG_glint_max_ant, 0x11, 1, 1, 255, 0), (F.LG_MARGIN_CFG_conf_exit_margin, 0x12, 1, 0, 63, 0),
    (F.LG_MARGIN_CFG_reentry_16, 0x13, 1, 1, 255, 0), (F.LG_MARGIN_PEN_fb_slew, 0x14, 2, 1, 20, 0),
    (F.LG_PB_CFG_pb_max_mv, 0x16, 2, 0, 30, 0), (F.LG_PB_CFG_pb_gain, 0x18, 2, 0, 255, 0),
    (F.LG_PB_CFG_pb_hold, 0x1A, 1, 1, 15, 0), (F.LG_PB_CFG_pb_lead, 0x1B, 1, 2, 15, 0)]

/-- Penumbras in order, and every threshold 5 mV below its mode's Penumbra (R356). -/
def Block.marginOk (s : Block) : Bool :=
  let ps := s.fld F.LG_MARGIN_PEN_pen_static
  let pa := s.fld F.LG_MARGIN_PEN_pen_adp
  let pn := s.fld F.LG_MARGIN_PEN_pen_ant
  let thr (f : Fld) : Nat := 15 + 5 * s.fld f
  decide (pa ≤ ps) && decide (pn ≤ pa) && decide (thr F.LG_MARGIN_LANT_thr_static + 5 ≤ ps) &&
    decide (thr F.LG_MARGIN_LANT_thr_adp + 5 ≤ pa) && decide (thr F.LG_MARGIN_LANT_thr_ant + 5 ≤ pn)

/-- Write the fields of a mask: `none` for a bad encoding; else the block and whether a value was clamped. -/
def Block.writeParams (s : Block) (p : Pkt) (mask : Nat) : Option (Block × Bool) :=
  (marginParams.zipIdx.filter fun x => bit mask x.2).foldl (fun (acc : Option (Block × Bool)) x =>
    match acc, x.1 with
    | some (s, cl), (f, off, size, lo, hi, form) =>
      let v := p.arg off size
      let w := clampN lo hi v
      if form = 1 then if v % 5 = 0 then some (s.setFld f ((w - lo) / 5), cl || w != v) else none
      else if form = 2 then if v = 2 ∨ v = 4 then some (s.setFld f (v / 4), cl) else none
      else some (s.setFld f w, cl || w != v)
    | none, _ => none) (some (s, false))

def Block.marginSetParams (s : Block) (p : Pkt) : Block :=
  match s.writeParams p (p.arg 0x1C 4) with
  | none => s.finish p stBadParam
  | some (s', cl) =>
    if !s'.marginOk then s.finish p stBadParam
    else
      let k := s.time.epoch + 1
      let f (i : Nat) : Fld := (marginParams.map (·.1)).getD i F.LG_MARGIN_PEN_pen_static
      s.single p k (k * 16384) (· == .epoch k) (p.keys.map fun q => (q, s.fld (f q.2), s'.fld (f q.2))) fun s won st =>
        match s.writeParams p (keyMask won) with
        | some (s, _) => s.await p (.epoch k) (worse st (clampSt cl)) (b2n cl)
        | none => s

def execMarginSetParams (now : Ft) (s : State) : Host.Outcome State Fault Refusal :=
  s.packet now 0x32 fun s p => s.marginSetParams p

def Block.marginState (s : Block) (n : Nat) : List Byte :=
  let m (f : Nat → Fld) : Nat := s.fld (f n)
  layout [(0, u8 (m F.LG_MARGIN_MODE_mode) ++ u8 (m F.LG_MARGIN_MODE_trans) ++ u8 (m F.LG_MARGIN_MODE_req) ++
      u8 (m F.LG_MARGIN_MODE_blocked) ++ u8 (m F.LG_MARGIN_MODE_held) ++ u8 (m F.LG_MARGIN_MODE_fb_run) ++
      u16 (m F.LG_MARGIN_DOM_pen_mv) ++ u16 (m F.LG_MARGIN_DOM_floor_mv) ++ u16 (m F.LG_MARGIN_DOM_boost_mv)),
    (0xC, u32 (1000 * m F.LG_MARGIN_FREQ_f_now)), (0x10, u16 (m F.LG_MARGIN_GLINT_cur)),
    (0x12, u16 (m F.LG_MARGIN_GLINT_last)), (0x14, u16 (m F.VRC_DOM_VID_vid_in_force))]

/-- Marks: DESIGN CHOICE, log entry 53. -/
def execMarginQuery (now : Ft) (s : State) : Host.Outcome State Fault Refusal :=
  s.packet now 0x33 fun s p =>
    match domsOf (p.arg 0 1) with
    | [] => s.finish p stBadParam
    | [n] => s.finish p stOk (s.marginState n)
    | _ => let f := s.freeBytes 22; f.2.finish p stOk f.1

def execLanternCal (now : Ft) (s : State) : Host.Outcome State Fault Refusal :=
  s.packet now 0x34 fun s p =>
    let t := p.arg 0 2
    if 1023 < t then s.finish p stBadParam
    else if s.isoTile t ∨ !(s.post t).powered then s.finish p stFaulted
    else (s.calReq t).await p (.cal t) stOk 0

end Sys2Proof.Machine
end

