-- ==== Sys2Proof/Machine/CalPk.lean ====
section
/-! DEFINITION. Calibration, bundle and cooling packets, class 0x4_ (15_control_packets.md R643-R645). -/
namespace Sys2Proof.Machine
open Sys2Proof

/-! ## Bundle loads (R644, R193-R199, R244-R249, R318, R459) -/

/-- A bundle load is in progress. -/
def Block.bundleBusy (s : Block) : Bool := s.hiu.loading.isSome || s.silo.loading || s.wce.pendingSet.isSome

/-- The source of EA data after its swap: 1 factory, 2 field (R201). -/
def envSrc (b : List Byte) : Nat := if bit (rdAt b 0x21 1) 0 then 1 else 2

/-- The bank that an EA load fills: the other part is a copy of the active bank (R193).
Marks: DEDUCED, log entry 27. -/
def Block.eaWith (s : Block) (f : EaBank → EaBank) : EaBank := f (s.eaBank (s.flag F.EA_STATUS_bank_active))

/-- A load into a bank of the EA or the TME begins: what the inactive bank held is no accepted load any more.
Marks: DEDUCED, log entry 73. -/
def Block.startLoad (s : Block) (l : Load) : Block :=
  let s := { s with hiu := { s.hiu with loading := some l } }
  match l with
  | .ea _ => s.setFld F.EA_STATUS_inactive_valid 0
  | .tme _ => s.setFld F.TME_STATUS_inactive_valid 0

/-- What a payload type does once the envelope has passed: `none` when its own checks refuse the payload, or the status
and the load that begins. -/
def Block.bundleStart (s : Block) (b : List Byte) : Nat × (Block → Block) :=
  let x := envPayload b
  let src := envSrc b
  match envType b with
  | 0x11 => match factoryParse x with
    | none => (stBadParam, id)
    | some (l, dig) =>
      if s.digLocked.any (· != dig) then (stLocked, id)
      else (if s.bundleBusy then stBusy else stOk, fun s => { s with wce := { s.wce with
        pendingSet := some (l, src == 1, dig, s.time.epoch) } })
  | 0x21 => match leakParse x with
    | none => (stBadParam, id)
    | some (l, f) => (if s.bundleBusy || s.eaBusy then stBusy else stOk,
        fun s => s.startLoad (.ea (s.eaWith fun a => { a with leak := some l, factors := f, src := src })))
  | 0x22 => match netsParse x with
    | none => (stBadParam, id)
    | some l => (if s.bundleBusy || s.eaBusy then stBusy else stOk,
        fun s => s.startLoad (.ea (s.eaWith fun a => { a with nets := some l, src := src })))
  | 0x31 => match classParse x with
    | none => (stBadParam, id)
    | some c => (if s.bundleBusy || s.silo.swapAt.isSome then stBusy else stOk, fun s => s.loadClasses c)
  | _ => match tmeParse x with
    | none => (stBadParam, id)
    | some t => (if s.bundleBusy || s.tme.swapAt.isSome then stBusy else stOk, fun s => s.startLoad (.tme t))

/-- The bank a payload type loads: 0 A, 1 B; a free value for the factory set, which has no bank.
Marks: DEDUCED, log entry 73. -/
def Block.loadedBank (s : Block) (type : Nat) : Nat × Block :=
  match type with
  | 0x11 => let f := s.free; (f.1.toNat % 256, f.2)
  | 0x31 => (1 - s.fld F.SILO_STATUS_table_bank, s)
  | 0x41 => (1 - s.fld F.TME_STATUS_bank_active, s)
  | _ => (1 - s.fld F.EA_STATUS_bank_active, s)

def Block.bundleLoad (s : Block) (p : Pkt) : Block :=
  let b := p.buf
  let st := if p.hasBuf then s.envCheck b else stBadParam
  let s := if p.hasBuf then s.crypto b else s
  if st ≠ stOk then s.finish p st
  else
    let r := s.bundleStart b
    if r.1 ≠ stOk then s.finish p r.1
    else
      let k := s.loadedBank (envType b)
      (r.2 k.2).await p (.bundle (envType b)) stOk 0
        (envType b + rdAt b 0x18 8 * 65536 + k.1 * 1208925819614629174706176)

def execBundleLoad (now : Ft) (s : State) : Host.Outcome State Fault Refusal :=
  s.packetIf now 0x40 (fun s _ => if s.updState = 0 then none else some stBusy) fun s p => s.bundleLoad p

/-- The inactive bank of the EA or the TME holds the verified load. -/
def Block.loadVerified (s : Block) : Block :=
  let l := s.hiu.loading
  let s := { s with hiu := { s.hiu with loading := none } }
  match l with
  | some (.ea b) => s.eaLoad b
  | some (.tme b) => (s.tmeLoad b).setFld F.TME_STATUS_inactive_valid 1
  | none => s

def execBundleLoadVerified (s : State) : Host.Outcome State Fault Refusal := s.on fun s => s.loadVerified

/-! ## Bank swaps (R194, R318, R459) -/

/-- An accepted load waits in the unit's inactive bank, and no swap has claimed it. -/
def Block.swapReady (s : Block) (u : Nat) : Bool :=
  match u with
  | 0 => s.flag F.EA_STATUS_inactive_valid && s.ea.swapAt.isNone
  | 1 => s.flag F.SILO_STATUS_inactive_valid && s.silo.swapAt.isNone
  | _ => s.flag F.TME_STATUS_inactive_valid && s.tme.swapAt.isNone

/-- Marks: DEDUCED, log entry 72. -/
def Block.bundleSwap (s : Block) (p : Pkt) : Block :=
  let u := p.arg 0 1
  let k := p.arg 8 8
  if 2 < u then s.finish p stBadParam
  else if u = 1 ∧ s.silo.loading then s.finish p stBusy
  else if !s.swapReady u ∨ k < s.tick + 8 then s.finish p stBadParam
  else (s.swapSchedule u k).await p (.swap u) stOk 0

def execBundleSwap (now : Ft) (s : State) : Host.Outcome State Fault Refusal := s.packet now 0x41 fun s p => s.bundleSwap p

/-! ## Winnow (R643, R233, R250) -/

/-- The domains of WINNOW_CTRL; none for a bad one. -/
def winnowDoms (d : Nat) : List Nat := if d = 0xFF then List.range 72 else if d < 72 then [d] else []

def Block.winnowCtrl (s : Block) (p : Pkt) : Block :=
  let l := winnowDoms (p.arg 0 1)
  let done (s : Block) : Block := s.effect p stOk 0
  if l.isEmpty then s.finish p stBadParam
  else match p.arg 1 1 with
    | 0 => done (s.forAll l fun s d => s.setFld (F.WCE_DOM_CTRL_hold d) 1)
    | 1 => done (s.forAll l fun s d => s.setFld (F.WCE_DOM_CTRL_hold d) 0)
    | 2 =>
      let s := if p.arg 0 1 = 0xFF then s.reqRestoreAll else s.forAll l fun s d => s.reqRestore d
      s.await p (.epoch (s.time.epoch + 1)) stOk 0
    | 3 => done (s.setFld F.WCE_CTRL_fit_en 0)
    | 4 => done (s.setFld F.WCE_CTRL_fit_en 1)
    | 5 => done (s.setFld F.WCE_CTRL_pub_en 0)
    | 6 => done (s.setFld F.WCE_CTRL_pub_en 1)
    | _ => s.finish p stBadParam

def execWinnowCtrl (now : Ft) (s : State) : Host.Outcome State Fault Refusal := s.packet now 0x42 fun s p => s.winnowCtrl p

/-- The fields of WINNOW_CFG in payload order: register field, offset, size, range (Tables 05-13 and 05-14). -/
def winnowParams : List (Fld × Nat × Nat × Nat × Nat) :=
  [(F.WCE_CFG_conf_enter, 0, 1, 192, 255), (F.WCE_CFG_rej_limit, 1, 1, 4, 255), (F.WCE_CFG_outlier_k, 2, 1, 2, 15),
    (F.WCE_CFG_step_shift, 3, 1, 4, 10), (F.WCE_CFG_forget_shift, 4, 1, 6, 14), (F.WCE_PUB_CFG_swap_delay, 6, 2, 32, 512)]

/-- Write the fields of a mask of a list, clamped; and whether a value was clamped (R12). -/
def Block.writeFields (s : Block) (p : Pkt) (fields : List (Fld × Nat × Nat × Nat × Nat)) (mask : Nat) : Block × Bool :=
  (fields.zipIdx.filter fun x => bit mask x.2).foldl (fun (acc : Block × Bool) x =>
    let (f, off, size, lo, hi) := x.1
    let v := p.arg off size
    let w := clampN lo hi v
    (acc.1.setFld f w, acc.2 || w != v)) (s, false)

/-- The same, for the packet's own mask. -/
def Block.writeMasked (s : Block) (p : Pkt) (fields : List (Fld × Nat × Nat × Nat × Nat)) : Block × Bool :=
  s.writeFields p fields (p.arg 0x1C 4)

/-- The next tick that begins a WCE update: 24 ticks after an epoch boundary (Table 05-7); and the next publication
boundary. -/
def Block.nextCycle0 (s : Block) : Nat := (s.tick + 8) / 16 * 16 + 8
def Block.nextPublication (s : Block) : Nat := (s.tick / 1024 + 1) * 1024

/-- A change takes effect at WCE cycle 0, and of swap_delay at a publication boundary: the later of those it names.
Marks: DESIGN CHOICE, log entry 71. -/
def Block.winnowCfg (s : Block) (p : Pkt) : Block :=
  let mask := p.arg 0x1C 4
  let k := if bit mask 5 then s.nextPublication else s.nextCycle0
  let all := s.writeMasked p winnowParams
  let f (i : Nat) : Fld := (winnowParams.map (·.1)).getD i F.WCE_CFG_conf_enter
  s.single p k (k * 1024) (· == .tick k) (p.keys.map fun q => (q, s.fld (f q.2), all.1.fld (f q.2))) fun s won st =>
    (s.writeFields p winnowParams (keyMask won)).1.await p (.tick k) (worse st (clampSt all.2)) (b2n all.2)

def execWinnowCfg (now : Ft) (s : State) : Host.Outcome State Fault Refusal := s.packet now 0x43 fun s p => s.winnowCfg p

/-- The 2,536 bytes of an instance. -/
def Block.winnowBytes (s : Block) (d : Nat) : List Byte :=
  let x := s.winst d
  let conf := s.fld (F.WCE_DOM_CONF_conf d)
  let out := s.fld (F.WCE_DOM_CONF_outcome d)
  layout [(0, x.theta.flatMap fun w => u32 w.toNat), (0x88, x.p.flatMap fun w => u32 w.toNat),
    (0x9D4, u16 x.nAcc), (0x9D6, u16 x.rejRun), (0x9D8, u32 x.sig2.toNat), (0x9DC, u32 x.ybar.toNat),
    (0x9E0, u8 conf ++ u8 out), (2536, [])]

/-- A result buffer is needed. -/
def Block.needBuf (s : Block) (p : Pkt) (inline buf : List Byte) : Block :=
  if p.hasRes then s.finishBuf p inline buf else s.finish p stBadParam

def execWinnowRead (now : Ft) (s : State) : Host.Outcome State Fault Refusal :=
  s.packet now 0x44 fun s p =>
    let d := p.arg 0 1
    if 71 < d then s.finish p stBadParam
    else s.needBuf p (u8 (s.fld (F.WCE_DOM_CONF_conf d)) ++ u8 (s.fld (F.WCE_DOM_CONF_outcome d)) ++
      u16 (s.fld (F.WCE_DOM_CONF_n_acc d))) (s.winnowBytes d)

/-! ## EA tables (R197, R198) -/

/-- A network record; a domain without a network has an all-zero one. -/
def netBytes : Option Net → List Byte
  | none => List.replicate 640 0
  | some n => layout [(0, n.w1.flatMap (fun i => leBytes 1 (ofSigned 8 i)) ++ n.b1.flatMap s16 ++
      n.w2.flatMap (fun i => leBytes 1 (ofSigned 8 i)) ++ s16 n.b2 ++ u16 n.gain ++ u8 n.psh1 ++ u8 n.psh2 ++
      u8 n.ash ++ u8 n.inShift ++ n.k.flatMap s16 ++ s16 n.y0 ++ n.m.flatMap fun i => leBytes 1 (ofSigned 8 i)), (640, [])]

/-- Marks: DESIGN CHOICE, log entry 29. -/
def Block.eaBytes (s : Block) (b : EaBank) (what d : Nat) : List Byte :=
  match what with
  | 0 => (List.range 528).flatMap fun i => u16 (b.entry (i / 176) (i / 11 % 16) (i % 11))
  | 1 => (List.range 1032).flatMap fun i => u16 (s.leakFactor b i)
  | _ => netBytes (((b.nets.getD []).getD d none))

/-- An inactive bank into which nothing has been loaded holds free values.
Marks: DESIGN CHOICE, log entry 29. -/
def Block.eaRead (s : Block) (p : Pkt) : Block :=
  let what := p.arg 0 1
  let d := p.arg 1 1
  let inactive := p.arg 2 1 == 1
  if 2 < what ∨ (what = 2 ∧ 71 < d) ∨ 1 < p.arg 2 1 then s.finish p stBadParam
  else
    let b := s.eaBank (s.flag F.EA_STATUS_bank_active != inactive)
    let n := match what with | 0 => 1056 | 1 => 2064 | _ => 640
    if inactive && b.src == 0 then let f := s.freeBytes n; f.2.needBuf p [] f.1
    else s.needBuf p [] (s.eaBytes b what d)

def execEaRead (now : Ft) (s : State) : Host.Outcome State Fault Refusal := s.packet now 0x45 fun s p => s.eaRead p

/-! ## Cooling (R645, R454, R467) -/

/-- The override: displaced by a higher master of the same tick, deferred while the LG holds cool_req, or in force
(R293, R467). -/
def Block.coolOverride (s : Block) (rank v : Nat) : Nat × Block :=
  let k := s.tick + 1
  let old := s.fld F.TME_COOL_override
  match s.contend [(0x21, 0)] rank k (k * 1024) old v fun _ => false with
  | (false, s) => (stSuperseded, s)
  | (true, s) =>
    let s := (s.setFld F.TME_COOL_override v).coolUpdate
    if s.fld F.TME_COOL_source = 1 then (stDeferred, s.deferred (0x21, 0) rank old v) else (stOk, s)

/-- Store a report of the inlet temperature (R454). -/
def Block.storeAmb (s : Block) (v : Int) : Block :=
  let s := (s.setFldS F.TME_AMB_t_amb v).setFld F.TME_AMB_amb_default 0
  { s with tme := { s.tme with ambAt := s.ft } }

/-- Note 1 of a deferred request (R632). -/
def deferNote (st : Nat) : Nat := if st = stDeferred then 2 else 0

/-- Marks: DESIGN CHOICE, log entry 13. -/
def Block.coolSet (s : Block) (p : Pkt) : Block :=
  let mask := p.arg 0x1C 4
  if bit mask 0 && decide (1 < p.arg 0 1) then s.finish p stBadParam
  else
    let r := if bit mask 0 then s.coolOverride p.master (p.arg 0 1) else (stOk, s)
    let s := r.2
    let t := p.argI 2 2
    let v := clampI 0 960 t
    let cl := v != t
    if bit mask 1 then
      let k := s.time.step + 1
      s.single p k (k * 131072) (· == .step k) [((0x22, 0), s.fld F.TME_AMB_t_amb, v.toNat)] fun s _ _ =>
        (s.storeAmb v).await p (.step k) (worse r.1 (clampSt cl)) (b2n cl + deferNote r.1)
    else if r.1 = stOk then s.effect p stOk 0
    else
      let j : Job := ⟨p, .none, r.1, deferNote r.1, true, 0, s.now, none⟩
      s.push { j with out := some ⟨r.1, 0, s.jobResult j, []⟩ }

def execCoolSet (now : Ft) (s : State) : Host.Outcome State Fault Refusal := s.packet now 0x46 fun s p => s.coolSet p

def execThermalRead (now : Ft) (s : State) : Host.Outcome State Fault Refusal :=
  s.packet now 0x47 fun s p =>
    let first := p.arg 0 2
    let n := clampN 1 1120 (p.arg 2 2)
    if 1120 < first + n then s.finish p stBadParam
    else s.finishBuf p (st := clampSt (n != p.arg 2 2)) (u64 (s.fld F.TME_LAST_STEP_ft))
      ((List.range n).flatMap fun i => u16 (s.fld (F.TME_NODE_T_temp (first + i))))

end Sys2Proof.Machine
end

