-- ==== Sys2Proof/Machine/TtuPk.lean ====
section
/-! DEFINITION. Telemetry and trace packets, class 0x5_ (15_control_packets.md R646; 16_telemetry_trace_debug.md R662,
R663, R676). -/
namespace Sys2Proof.Machine
open Sys2Proof

/-- The setting of a telemetry ring, in force from the next epoch boundary on.
Marks: DESIGN CHOICE, log entry 71; DEDUCED, log entry 101. -/
def Block.telemConfig (s : Block) (p : Pkt) : Block :=
  let r := p.arg 0 1
  let i := p.arg 4 4
  let mask := p.arg 8 8
  if 3 < r ∨ i % 16 ≠ 0 ∨ 512 ≤ mask then s.finish p stBadParam
  else
    let v := clampN 16 1048576 i
    let k := s.time.epoch + 1
    s.single p k (k * 16384) (· == .epoch k) [((0x24, r), s.fld (F.TTU_TELEM_INT_interval r), v)] fun s _ _ =>
      ((s.setFld (F.TTU_TELEM_MASK_mask r) mask).setFld (F.TTU_TELEM_INT_interval r) v).await p (.epoch k)
        (clampSt (v != i)) (b2n (v != i))

def execTelemConfig (now : Ft) (s : State) : Host.Outcome State Fault Refusal := s.packet now 0x50 fun s p => s.telemConfig p

/-- A setting of tiles waits for the boundary of an epoch. -/
def Block.schedEpoch (s : Block) (k : Nat) (a : Sched) : Block :=
  { s with time := { s.time with sched := s.time.sched ++ [(16 * k, a)] } }

/-- Marks: DESIGN CHOICE, log entry 71. -/
def Block.traceConfig (s : Block) (p : Pkt) : Block :=
  match p.tiles with
  | none => s.finish p stBadParam
  | some l =>
    if 1 < p.arg 0 1 then s.finish p stBadParam
    else
      let k := s.time.epoch + 1
      let old (t : Nat) : Nat := s.fld (F.POST_CTRL_trace_en t)
      s.single p k (k * 16384) (· == .epoch k) (l.map fun t => ((0x103, t), old t, p.arg 0 1)) fun s won st =>
        (s.schedEpoch k (.trace (won.map (·.2)) (p.arg 0 1 == 1))).await p (.epoch k) (worse st (clampSt p.tilesCl))
          (b2n p.tilesCl)

def execTraceConfig (now : Ft) (s : State) : Host.Outcome State Fault Refusal := s.packet now 0x51 fun s p => s.traceConfig p

/-- The code of an element width in bits (Table 03-11). -/
def widthCode (w : Nat) : Option Nat := match w with | 4 => some 0 | 8 => some 1 | 16 => some 2 | 32 => some 3 | _ => none

/-- Bits [23:6] of POST_DIG_CFG from the packet's channel 1 fields and window. -/
def digCfgOf (p : Pkt) (w : Nat) : Nat :=
  packBits [(10, 8, p.arg 0xB 1), (9, 1, p.arg 6 1), (6, 3, p.arg 7 1), (4, 2, w), (3, 1, p.arg 9 1), (0, 3, min 7 (p.arg 0xA 1))]

/-- Marks: DESIGN CHOICE, log entry 71. -/
def Block.digestConfig (s : Block) (p : Pkt) : Block :=
  match p.tiles, widthCode (p.arg 8 1) with
  | some l, some w =>
    if 1 < p.arg 6 1 ∨ 5 < p.arg 7 1 ∨ 1 < p.arg 9 1 then s.finish p stBadParam
    else
      let k := s.time.epoch + 1
      let cl := decide (7 < p.arg 0xA 1) || p.tilesCl
      let old (t : Nat) : Nat := getBits (s.reg (F.POST_DIG_CFG_window t).off).toNat 6 18
      s.single p k (k * 16384) (· == .epoch k) (l.map fun t => ((0x104, t), old t, digCfgOf p w)) fun s won st =>
        (s.schedEpoch k (.digest (won.map (·.2)) (digCfgOf p w))).await p (.epoch k) (worse st (clampSt cl)) (b2n cl)
  | _, _ => s.finish p stBadParam

def execDigestConfig (now : Ft) (s : State) : Host.Outcome State Fault Refusal :=
  s.packet now 0x52 fun s p => s.digestConfig p

/-- A trace or digest setting takes effect: powered Posts take it, the mask covers the tiles named. -/
def Block.traceApply (s : Block) (l : List Nat) (on : Bool) : Block :=
  s.forAll (l.filter fun t => (s.post t).powered) fun s t => s.setFld (F.POST_CTRL_trace_en t) (b2n on)

def Block.digestApply (s : Block) (l : List Nat) (cfg : Nat) : Block :=
  let s := s.forAll l fun s t => s.setMapBit (F.TTU_DIG_MASK_map (t / 32)) (t % 32) true
  s.forAll (l.filter fun t => (s.post t).powered) fun s t =>
    s.storeDigest t (putBits (s.reg (F.POST_DIG_CFG_window t).off).toNat 6 18 cfg)

/-- The counters of a set, in order (Table 16-3). -/
def CntS.set (c : CntS) (n : Nat) : List Nat :=
  match n with
  | 0 => (List.range 32).map fun i => Tab.get zeroN c.pkg i
  | 1 => (List.range 4096).map fun i => Tab.get zeroN c.tiles i
  | 2 => (List.range 288).map fun i => if i % 4 = 1 then c.eacc.getD (i / 4) 0 else Tab.get zeroN c.doms i
  | 3 => (List.range 208).map fun i => Tab.get zeroN c.faults i
  | _ => (List.range 166).map fun i => Tab.get zeroN c.transport i

def execCountersRead (now : Ft) (s : State) : Host.Outcome State Fault Refusal :=
  s.packet now 0x53 fun s p =>
    let n := p.arg 0 1
    if 4 < n then s.finish p stBadParam
    else
      let l := s.ttu.sample.set n
      s.needBuf p [] (u64 s.ttu.sample.b ++ u32 n ++ u32 l.length ++ l.flatMap u64)

end Sys2Proof.Machine
end

