-- ==== Sys2Proof/Machine/FaultPk.lean ====
section
/-! DEFINITION. Fault packets, class 0x6_ (15_control_packets.md R647, R648). -/
namespace Sys2Proof.Machine
open Sys2Proof

/-- One group's record of FAULT_READ. -/
def Block.groupRecord (s : Block) (g : Nat) : List Byte :=
  u8 (s.fld (F.FC_GRP_STICKY_sticky g)) ++ u8 (s.fld (F.FC_GRP_STICKY_forced g)) ++ u16 0 ++
    u32 (s.reg (0x10808 + 0x20 * g)).toNat ++ u32 (s.reg (0x10810 + 0x20 * g)).toNat ++ u32 0 ++
    u64 (s.fld (F.FC_GRP_LAST_FT_ft g))

def execFaultRead (now : Ft) (s : State) : Host.Outcome State Fault Refusal :=
  s.packet now 0x60 fun s p => s.finishBuf p
    (u64 (s.reg 0x10000).toNat ++ u32 (s.reg 0x10010).toNat ++
      u32 (putBits (s.reg 0x10014).toNat 31 1 (s.fld F.FC_FIRST_valid)) ++ u64 (s.fld F.FC_FIRST_FT_ft) ++
      u32 (s.reg 0x1000C).toNat ++ u16 (s.fld F.FC_RISK_score))
    ((List.range 26).flatMap s.groupRecord)

/-- Marks: DESIGN CHOICE, log entry 53. -/
def Block.faultClear (s : Block) (p : Pkt) : Block :=
  let g := p.arg 0 1
  let mask := p.arg 1 1
  if (26 ≤ g ∧ g ≠ 0xFF) ∨ 1 < p.arg 2 1 ∨ 1 < p.arg 3 1 then s.finish p stBadParam
  else
    let s := s.forAll (if g = 0xFF then List.range 26 else [g]) fun s g => s.grpClr g mask
    let s := if p.arg 2 1 = 1 then s.firstClr else s
    let s := if p.arg 3 1 = 1 then s.alertClr else s
    if g = 0xFF then let f := s.freeBytes 1; f.2.finish p stOk f.1
    else s.finish p stOk (u8 (s.fld (F.FC_GRP_STICKY_sticky g)))

def execFaultClear (now : Ft) (s : State) : Host.Outcome State Fault Refusal := s.packet now 0x61 fun s p => s.faultClear p

def Block.faultSetSev (s : Block) (p : Pkt) : Block :=
  let g := p.arg 0 1
  let k := p.arg 1 1
  let v := p.arg 2 1
  if 26 ≤ g ∨ !sourceExists g k ∨ 5 ≤ v then s.finish p stBadParam
  else if sevFixed g k then s.finish p stLocked
  else
    let s := (s.setSev g k v).showFc
    s.finish p stOk (u8 (s.fld (sevField g k)))

def execFaultSetSev (now : Ft) (s : State) : Host.Outcome State Fault Refusal :=
  s.packet now 0x62 fun s p => s.faultSetSev p

def Block.faultSetCtrl (s : Block) (p : Pkt) : Block :=
  if bit (p.arg 0x1C 4) 3 && decide (1 < p.arg 3 1) then s.finish p stBadParam
  else
    let r := s.writeMasked p [(F.FC_CTRL_fault_n_min, 0, 1, 0, 4), (F.FC_CTRL_alert_min, 1, 1, 0, 4),
      (F.FC_CTRL_first_min, 2, 1, 0, 4), (F.FC_CTRL_log_to_ring, 3, 1, 0, 1)]
    r.1.showFc.finish p (clampSt r.2)

def execFaultSetCtrl (now : Ft) (s : State) : Host.Outcome State Fault Refusal :=
  s.packet now 0x63 fun s p => s.faultSetCtrl p

/-- While a request of FC_ISO_REQ runs (Table 15-5). -/
def isoRefused (s : Block) (_ : Pkt) : Option Nat := if s.flag F.FC_ISO_STATUS_busy then some stBusy else none

/-- A unit of ISOLATE and READMIT: kind 0 a tile, 1 a core domain. -/
def Pkt.unit (p : Pkt) : Option (Bool × Nat) :=
  let t := p.arg 2 2
  match p.arg 0 1 with
  | 0 => if t < 1024 then some (false, t) else none
  | 1 => if t < 64 then some (true, t) else none
  | _ => none

def execIsolate (now : Ft) (s : State) : Host.Outcome State Fault Refusal :=
  s.packetIf now 0x64 isoRefused fun s p =>
    match p.unit with
    | some u => (s.reqIsolate u).await p .iso stOk 0
    | none => s.finish p stBadParam

def execReadmit (now : Ft) (s : State) : Host.Outcome State Fault Refusal :=
  s.packetIf now 0x65 isoRefused fun s p =>
    match p.unit with
    | some (false, t) => (s.reqReadmitTile t).await p .iso stOk 0
    | some (true, n) => (s.reqReadmitDomain n).await p .iso stOk 0
    | none => s.finish p stBadParam

def Block.faultForce (s : Block) (p : Pkt) : Block :=
  let g := p.arg 0 1
  let k := p.arg 1 1
  let i := p.arg 2 2
  if 26 ≤ g ∨ !sourceExists g k ∨ 4096 ≤ i ∨ 1 < p.arg 4 1 then s.finish p stBadParam
  else
    let s := (s.setFld F.FC_CTRL_force_dry (p.arg 4 1)).setFld F.FC_FORCE_INST_instance i
    (s.grpForce g (2 ^ k)).finish p stOk

def execFaultForce (now : Ft) (s : State) : Host.Outcome State Fault Refusal := s.packet now 0x66 fun s p => s.faultForce p

/-- Modes and instances of an injection point (Table 12-6); a column without an entry takes any value.
Marks: DEDUCED, log entry 72. -/
def injNames (det mode inst : Nat) : Bool :=
  match det with
  | 0 => decide (mode < 2 ∧ inst < 1024)
  | 1 => decide (mode < 4 ∧ inst < 1024)
  | 2 => decide (mode < 2 ∧ inst < 240)
  | 3 => decide (mode < 2 ∧ inst < if mode = 0 then 240 else 72)
  | 4 => decide (mode < 2 ∧ 0 < sramSize inst)
  | 5 => decide (mode < 4 ∧ inst < 5)
  | 6 => decide (mode < 4 ∧ inst < 3)
  | 7 => decide (mode < 4 ∧ inst < 2048)
  | 8 => decide (mode < 4 ∧ (inst < 64 ∨ (128 ≤ inst ∧ inst < 134)))
  | 9 => decide (mode < 3 ∧ inst < 4096)
  | _ => false

def Block.faultInject (s : Block) (p : Pkt) : Block :=
  let det := p.arg 0 1
  -- param of det 1 is 1-255
  let low := det = 1 ∧ p.arg 4 1 = 0
  if !injNames det (p.arg 1 1) (p.arg 2 2) then s.finish p stBadParam
  else
    let s := (s.setFld F.FC_INJ_CTRL_det det).setFld F.FC_INJ_CTRL_mode (p.arg 1 1)
    let s := ((s.setFld F.FC_INJ_CTRL_instance (p.arg 2 2)).setFld F.FC_INJ_CTRL_param (if low then 1 else p.arg 4 1)).injGo
    let r := s.fld F.FC_INJ_STATUS_result
    s.finish p (if r = 1 then clampSt low else stLocked) (u8 r)

/-- Refused while an injection is armed (Table 15-5). -/
def execFaultInject (now : Ft) (s : State) : Host.Outcome State Fault Refusal :=
  s.packetIf now 0x67 (fun s _ => if s.fc.armed.isSome then some stBusy else none) fun s p => s.faultInject p

/-- The fields of RISK_CFG in payload order. -/
def riskParams : List (Fld × Nat × Nat × Nat × Nat) :=
  [(F.FC_RISK_CFG_risk_thr, 0, 2, 0, 65535), (F.FC_RISK_CFG_base, 2, 2, 0, 65535), (F.FC_RISK_W0_wg, 4, 2, 0, 65535),
    (F.FC_RISK_W0_wc, 6, 2, 0, 65535), (F.FC_RISK_W1_wt, 8, 2, 0, 65535), (F.FC_RISK_W1_wf, 0xA, 2, 0, 65535),
    (F.FC_RISK_W2_wm, 0xC, 2, 0, 65535), (F.FC_RISK_W2_wr, 0xE, 2, 0, 65535)]

/-- 25.0 follows a new threshold (R536). -/
def execRiskCfg (now : Ft) (s : State) : Host.Outcome State Fault Refusal :=
  s.packet now 0x68 fun s p =>
    let r := s.writeMasked p riskParams
    r.1.riskFollow.finish p (clampSt r.2)

def Block.riskRecord (s : Block) : List Byte :=
  let x (i : Nat) : Nat := s.fc.riskIn.getD i 0
  layout [(0, u16 (s.fld F.FC_RISK_score)), (8, u64 (s.fc.riskSeen * 1073741824)), (0x10, u32 (x 0) ++ u32 (x 1)),
    (0x18, u16 (x 2) ++ u16 (x 3) ++ u8 (x 4)), (0x20, u32 (x 5))]

def execRiskRead (now : Ft) (s : State) : Host.Outcome State Fault Refusal :=
  s.packet now 0x69 fun s p => s.finish p stOk s.riskRecord

end Sys2Proof.Machine
end

