-- ==== Sys2Proof/Machine/UpdPk.lean ====
section
/-! DEFINITION. Firmware update packets, class 0x7_, and lending packets, class 0x8_ (15_control_packets.md R649-R652;
13_firmware_complex.md R566, R567; 11_budget_lending.md R474-R478). -/
namespace Sys2Proof.Machine
open Sys2Proof

/-! ## Update (R649, R650, R567) -/

/-- States 3-7 refuse a load and a discard (Table 15-5). -/
def updRefused (s : Block) (_ : Pkt) : Option Nat := if 3 ≤ s.updState then some stBusy else none

/-- A packet whose load is discarded while it still waits for its authentication is superseded.
Marks: DEDUCED, log entry 66. -/
def Block.dropAuth (s : Block) : Block :=
  let jobs := s.hiu.jobs.map fun (j : Job) =>
    if j.out.isNone && j.wait == .auth then { j with out := some ⟨stSuperseded, 0, s.jobResult j, []⟩ } else j
  { s with hiu := { s.hiu with jobs := jobs }, fwc := { s.fwc with lastChunk := false } }

/-- Bytes of the load so far. -/
def Block.loaded (s : Block) : Nat := if s.updState = 0 then 0 else (s.region s.shadowReg).length

/-- The chunk joins the shadow region; the last one waits for its authentication.
Marks: DEDUCED, log entry 66. -/
def Block.imageChunk (s : Block) (p : Pkt) : Block :=
  let off := p.arg 0 4
  let s := if off = 0 then s.dropAuth.setRegion s.shadowReg [] else s
  let l := s.region s.shadowReg ++ p.buf
  let s := (s.setRegion s.shadowReg l).setFld F.FWC_UPD_STATUS_state 1
  let s := s.eccWrite 0 (0x80000 * b2n s.shadowReg + off)
  let s := s.setFld F.FWC_IMAGE_INFO_shadow_valid 0
  if p.arg 4 1 = 1 then
    ({ s with fwc := { s.fwc with lastChunk := true, authDone := none } }).await p .auth stOk 0 l.length
  else s.finish p stOk (layout [(0, u8 s.updState), (4, u32 l.length)])

/-- Marks: DESIGN CHOICE, log entry 13; DEDUCED, log entry 66. -/
def Block.imageLoad (s : Block) (p : Pkt) : Block :=
  let off := p.arg 0 4
  if !p.hasBuf ∨ off % 8 ≠ 0 ∨ 1 < p.arg 4 1 then s.finish p stBadParam
  else if off ≠ 0 ∧ (off ≠ s.loaded ∨ s.fwc.lastChunk) then s.finish p stBadParam
  else if off ≠ 0 ∧ s.updState ≠ 1 then s.finish p stBusy
  else if Nat.blt 524288 (off + p.bufLen) then
    let s := if off = 0 ∧ s.updState = 0 then s else (s.dropAuth.setRegion s.shadowReg []).updIdle 2
    s.finish p stBadParam
  else s.imageChunk p

def execImageLoad (now : Ft) (s : State) : Host.Outcome State Fault Refusal :=
  s.packetIf now 0x70 updRefused fun s p => s.imageLoad p

/-- The refusals of R566 and R567 by state.
Marks: DEDUCED, log entry 64. -/
def activateRefused (s : Block) (_ : Pkt) : Option Nat :=
  let bad (c : Nat) : Bool := s.coreState c == 1 || s.coreState c == 2 || s.coreState c == 3
  if s.updState ≠ 2 ∨ (List.range 5).any bad ∨ s.bundleBusy then some stBusy else none

/-- QUIESCING begins; the packet waits for the commit or the abandonment. -/
def Block.activate (s : Block) (p : Pkt) : Block :=
  let i : Image := ⟨s.region s.shadowReg⟩
  let v := s.fld F.FWC_IMAGE_INFO_refl_max
  if v < i.reflMin ∨ i.reflMax < v then s.finish p stBadParam
  else
    let s := s.setFld F.FWC_UPD_STATUS_state 3
    ({ s with fwc := { s.fwc with updAt := s.now, supFail := false, actDone := none } }).await p .act stOk 0

def execImageActivate (now : Ft) (s : State) : Host.Outcome State Fault Refusal :=
  s.packetIf now 0x71 activateRefused fun s p => s.activate p

/-- The loaded image is discarded; the state is IDLE. -/
def Block.discard (s : Block) : Block :=
  if s.updState = 0 then s
  else
    let s := (s.dropAuth.setRegion s.shadowReg []).setFld F.FWC_UPD_STATUS_state 0
    s.setFld F.FWC_IMAGE_INFO_shadow_valid 0

def execImageDiscard (now : Ft) (s : State) : Host.Outcome State Fault Refusal :=
  s.packetIf now 0x72 updRefused fun s p => s.discard.finish p stOk

def execImageQuery (now : Ft) (s : State) : Host.Outcome State Fault Refusal :=
  s.packet now 0x73 fun s p =>
    let i : Image := ⟨s.region s.shadowReg⟩
    s.finish p stOk (u32 (s.reg 0x3004).toNat ++ u32 (s.reg 0x3008).toNat ++ u32 (s.reg 0x300C).toNat ++
      u32 (if s.flag F.FWC_IMAGE_INFO_shadow_valid then i.version else 0))

/-! ## Lending (R651, R652, R474-R478) -/

/-- One member record. -/
def memberAt (l : List Byte) (m : Nat) : Nat × Nat := (rdAt l (8 * m) 2, rdAt l (8 * m + 4) 4)

/-- The refusals of R475 and R652. -/
def Block.groupBad (s : Block) (p : Pkt) : Bool :=
  let n := p.arg 2 1
  let x := p.arg 8 8
  let l := (List.range n).map (memberAt p.buf)
  n == 1 || decide (16 < n) || Nat.blt x (s.now + 268435456) ||
    (n != 0 && (Nat.ble n (p.arg 3 1) || !p.hasBuf || p.bufLen != 8 * n || x % 134217728 != 0 ||
      l.any (fun m => Nat.blt m.2 300000 || Nat.blt (min 1100000 s.cP) m.2) ||
      Nat.blt (p.arg 4 4) (sumN (l.map (·.2)))))

/-- A configuration that waited is replaced, and its packet superseded (R478). -/
def Block.dropGroup (s : Block) : Block :=
  let old (w : Wait) : Bool := match w with | .group _ => true | _ => false
  let jobs := s.hiu.jobs.map fun (j : Job) =>
    if j.out.isNone && old j.wait then { j with out := some ⟨worse stSuperseded j.status, 0, s.jobResult j, []⟩ } else j
  { s with hiu := { s.hiu with jobs := jobs } }

/-- The registers report the configuration from its acceptance.
Marks: DEDUCED, log entry 74. -/
def Block.groupStore (s : Block) (p : Pkt) : Block :=
  let n := p.arg 2 1
  let s := (s.setFld F.HIU_LEND_GROUP_group_id (if n = 0 then 0 else max 1 (p.arg 0 2))).setFld F.HIU_LEND_GROUP_n n
  let s := (s.setFld F.HIU_LEND_GROUP_self (if n = 0 then 0 else p.arg 3 1)).setFld F.HIU_LEND_CAP_cap_mw (p.arg 4 4)
  let s := (s.setFld F.HIU_LEND_X_ft (p.arg 8 8)).setFld F.HIU_LEND_STATUS_pending 1
  s.forAll (List.range 16) fun s m =>
    let r := if m < n then memberAt p.buf m else (0, 0)
    (s.setFld (F.HIU_LEND_NODE_node m) r.1).setFld (F.HIU_LEND_SHARE_share_mw m) r.2

/-- Marks: DEDUCED, log entry 74. -/
def Block.groupSet (s : Block) (p : Pkt) : Block :=
  if s.groupBad p then s.finish p stBadParam
  else
    let cl := p.arg 2 1 != 0 && p.arg 0 2 == 0
    (s.dropGroup.groupStore p).await p (.group (p.arg 8 8)) (clampSt cl) (b2n cl)

def execGroupSet (now : Ft) (s : State) : Host.Outcome State Fault Refusal := s.packet now 0x80 fun s p => s.groupSet p

/-- Margins and step in whole watts, within the ranges of Table 11-5.
Marks: DESIGN CHOICE, log entry 13; DEDUCED, log entry 74. -/
def Block.lendCfg (s : Block) (p : Pkt) : Block :=
  let mask := p.arg 0x1C 4
  let w (k off : Nat) : Bool := bit mask k && p.arg off 4 % 1000 != 0
  let f (k off : Nat) : Bool := bit mask k && decide (1 < p.arg off 1)
  if f 0 0 || f 1 1 || w 2 4 || w 3 8 || w 4 0xC then s.finish p stBadParam
  else
    let watts (off : Nat) : Nat := p.arg off 4 / 1000
    let put (s : Block) (k : Nat) (fl : Fld) (v : Nat) : Block := if bit mask k then s.setFld fl v else s
    let s := put (put s 0 F.HIU_LEND_CFG_lend_en (p.arg 0 1)) 1 F.HIU_LEND_CFG_borrow_en (p.arg 1 1)
    let s := put (put s 2 F.HIU_LEND_CFG_lend_margin (min 255 (watts 4))) 3 F.HIU_LEND_CFG_want_margin (min 255 (watts 8))
    let s := put s 4 F.HIU_LEND_CFG_want_step (clampN 1 255 (watts 0xC))
    let cl := (bit mask 2 && decide (255 < watts 4)) || (bit mask 3 && decide (255 < watts 8)) ||
      (bit mask 4 && clampN 1 255 (watts 0xC) != watts 0xC)
    s.finish p (clampSt cl)

def execLendCfg (now : Ft) (s : State) : Host.Outcome State Fault Refusal := s.packet now 0x81 fun s p => s.lendCfg p

/-- Marks: DEDUCED, log entry 74. -/
def execLendQuery (now : Ft) (s : State) : Host.Outcome State Fault Refusal :=
  s.packet now 0x82 fun s p => s.finish p stOk (layout [
    (0, u8 (s.fld F.HIU_LEND_STATUS_role) ++ u8 (s.fld F.HIU_LEND_STATUS_leases)),
    (4, u32 (s.fld F.HIU_LEND_LENT_lent_mw) ++ u32 (s.fld F.HIU_LEND_BORROWED_borrowed_mw) ++
      u32 (s.fld F.LG_L5_ADJ_adj_mw) ++ u64 (s.reg 0x9030).toNat ++ u16 (s.fld F.HIU_LEND_RX_rx_discards) ++
      u16 (s.fld F.HIU_LEND_RX_late_acks))])

end Sys2Proof.Machine
end

