-- ==== Sys2Proof/Machine/DiagPk.lean ====
section
/-! DEFINITION. Diagnostics packets, class 0x9_, but for the wait-for graph, and lifecycle packets, class 0xA_
(15_control_packets.md R653-R656; 13_firmware_complex.md R552, R558-R560). -/
namespace Sys2Proof.Machine
open Sys2Proof

/-! ## Crash dumps (Table 13-7) -/

/-- Byte `i` of a dump from 0x18 on: zero where reserved, the event log at the freeze, oldest entry first, the count of
tasks within its bound, else a free value.
Marks: DESIGN CHOICE, log entry 63. -/
def Dump.byte (d : Dump) (i : Nat) : Byte :=
  let v := (Config.freeValue (d.free + i)).toNat
  if (0x20 ≤ i ∧ i < 0x40) ∨ (0x440 ≤ i ∧ i < 0x800) ∨ (0x1800 ≤ i ∧ i < 0x2000) then 0
  else if i = 0x1D then BitVec.ofNat 8 (v % 33)
  else if i = 0x1E then BitVec.ofNat 8 d.log.length
  else if i = 0x1F then BitVec.ofNat 8 (d.log.length / 256)
  else if 0x2000 ≤ i ∧ i < 0x2000 + 16 * d.log.length then
    match d.log[d.log.length - 1 - (i - 0x2000) / 16]? with
    | some e => e.bytes.getD (i % 16) 0
    | none => 0
  else BitVec.ofNat 8 v

/-- The first 24 bytes of a slot.
Marks: DESIGN CHOICE, log entry 63. -/
def Dump.head (d : Dump) : List Byte :=
  u32 0x504D4451 ++ u16 1 ++ u8 d.core ++ u8 d.cause ++ u64 d.ft.toNat ++ u32 d.version ++ u32 d.seq

/-- The 98,304 bytes of a slot. -/
def Dump.bytes (d : Dump) : List Byte := d.head ++ (List.range 98280).map fun i => d.byte (0x18 + i)

/-- A slot that is not valid holds free values.
Marks: DESIGN CHOICE, log entry 63. -/
def Block.dumpRead (s : Block) (p : Pkt) : Block :=
  let k := p.arg 0 1
  if 1 < k then s.finish p stBadParam
  else
    let valid := u8 (s.fld (slotValid k))
    match s.fwc.dumps.getD k none with
    | some d => s.finishBuf p valid d.bytes
    | none => let f := s.freeBytes (if p.hasRes then 98304 else 0); f.2.finishBuf p valid f.1

def execDumpRead (now : Ft) (s : State) : Host.Outcome State Fault Refusal := s.packet now 0x90 fun s p => s.dumpRead p

def Block.dumpClear (s : Block) (p : Pkt) : Block :=
  let s := s.granaryClr (p.arg 0 1 % 4)
  s.finish p stOk (u8 (s.fld (slotValid 0) + 2 * s.fld (slotValid 1)))

def execDumpClear (now : Ft) (s : State) : Host.Outcome State Fault Refusal := s.packet now 0x91 fun s p => s.dumpClear p

/-! ## Cores, LBIST and the global stop (R654, R679) -/

/-- A core that runs or is halted crashes; one that is down already completes as it comes up.
Marks: DEDUCED, log entry 64. -/
def Block.coreReset (s : Block) (c : Nat) : Block :=
  if s.coreState c = 0 ∨ s.coreState c = 1 then
    ((s.setMapBit F.FWC_DBG_STATUS_halted c false).crash c 4).drainFollow
  else s

def execCoreReset (now : Ft) (s : State) : Host.Outcome State Fault Refusal :=
  s.packet now 0x92 fun s p =>
    let c := p.arg 0 1
    if 3 < c then s.finish p stBadParam else (s.coreReset c).await p (.core c) stOk 0

def execPostLbist (now : Ft) (s : State) : Host.Outcome State Fault Refusal :=
  s.packetIf now 0x93 isoRefused fun s p =>
    let t := p.arg 0 2
    if 1023 < t then s.finish p stBadParam
    else if !s.mayReadmit t then s.finish p stLocked
    else (s.startReadmit t none true).await p (.lbist t) stOk 0

def Block.globalStop (s : Block) (p : Pkt) : Block :=
  let ft := p.arg 0 8
  if ft < s.now + 8192 then s.finish p stBadParam
  else if s.fld F.TTU_STOP_STATUS_state ≠ 0 ∨ s.updState ≠ 0 then s.finish p stBusy
  else ((s.setFld F.TTU_STOP_FT_stop_ft ft).stopArm).await p .stop stOk 0

def execGlobalStop (now : Ft) (s : State) : Host.Outcome State Fault Refusal := s.packet now 0x94 fun s p => s.globalStop p

/-! ## Lifecycle (R655, R656) -/

def execLcQuery (now : Ft) (s : State) : Host.Outcome State Fault Refusal :=
  s.packet now 0xA0 fun s p => s.finish p stOk (u8 s.lcState ++ u8 (s.fld F.LFC_LC_transitions) ++
    u8 (s.fld F.LFC_KEYS_img_prog) ++ u8 (s.fld F.LFC_KEYS_img_revoked) ++ u8 (s.fld F.LFC_KEYS_bnd_prog) ++
    u8 (s.fld F.LFC_KEYS_bnd_revoked) ++ u8 (s.fld F.LFC_SVN_min_svn))

/-- A request is refused with its status, or the packet waits for its fuses. -/
def Block.fusePacket (p : Pkt) (r : Nat × Block) : Block :=
  if r.1 = stOk then r.2.await p .fuse stOk 0 else r.2.finish p r.1

def execLcTransition (now : Ft) (s : State) : Host.Outcome State Fault Refusal :=
  s.packet now 0xA1 fun s p => Block.fusePacket p (s.transitionRequest (p.arg 0 1) p.buf (s.requesterOf p.src))

def execKeyRevoke (now : Ft) (s : State) : Host.Outcome State Fault Refusal :=
  s.packet now 0xA2 fun s p => Block.fusePacket p (s.revokeRequest (p.arg 0 1) (p.arg 1 1) p.buf (s.requesterOf p.src))

def execSvnRaise (now : Ft) (s : State) : Host.Outcome State Fault Refusal :=
  s.packet now 0xA3 fun s p => Block.fusePacket p (s.raiseRequest (p.arg 0 1) (s.requesterOf p.src))

end Sys2Proof.Machine
end

