-- ==== Sys2Proof/Machine/Clocks.lean ====
section
/-! DEFINITION. Clock sources, root switches, gating and crossings (17_clocks_and_crossings.md). -/
namespace Sys2Proof.Machine
open Sys2Proof

/-! ## Islands and switches (R698-R703) -/

def Block.rootSrc (s : Block) : Nat := s.fld F.CTU_CLK_STATUS_root_src
def Block.rootCmd (s : Block) : Nat × Bool := s.clk.next.getD (s.clk.root, s.clk.deep)
def Block.qualified (s : Block) (src : Nat) : Bool := bit (s.fld F.CTU_CLK_STATUS_qualified) src

/-- isl_i of CTU_ISL_STATUS: Hub islands, then the islands of Relay 0. -/
def islFld (i : Nat) : Fld := ⟨0x2120, 2 * i, 2⟩

/-- The islands a switch stops: every Hub island, and the engines and network islands of the Relays; a gated network
island is stopped already (R703, R705). -/
def Block.switchIslands (s : Block) : List Nat :=
  (List.range 14).filter fun i => !(decide (6 ≤ i) && i % 2 == 1 && s.clk.netClosed.contains ((i - 7) / 2))

/-- Command every island onto a root with its divisions (R701, R703): a switch in progress completes first (R696).
Marks: DEDUCED, log entry 22. -/
def Block.switchAll (s : Block) (root : Nat) (deep : Bool) : Block :=
  if !s.clk.stopped.isEmpty then { s with clk := { s.clk with next := some (root, deep) } }
  else if s.clk.root = root ∧ s.clk.deep = deep then s
  else
    let s := if s.clk.root = root then s else s.incSat F.CTU_CLK_STATUS_switches
    let l := s.switchIslands
    let s := { s with clk := { s.clk with root := root, deep := deep, stopped := l, next := none } }
    (s.forAll (l.filter (· < 8)) fun s i => s.setFld (islFld i) 2).setFld F.CTU_CLK_STATUS_switching 1

/-- The root moves, with the divisions that stand commanded.
Marks: DESIGN CHOICE, log entry 24. -/
def Block.switchRoot (s : Block) (root : Nat) : Block := s.switchAll root s.rootCmd.2

/-- The division changes, with the root that stands commanded (R735, R737). -/
def Block.switchDeep (s : Block) (deep : Bool) : Block := s.switchAll s.rootCmd.1 deep

/-- What an island shows once it runs: 0 on the PLL, 1 on the ring oscillator, 3 gated. -/
def Block.showIsl (s : Block) (i : Nat) : Block :=
  if 8 ≤ i then s
  else s.setFld (islFld i) (if i = 7 ∧ s.clk.netClosed.contains 0 then 3 else if s.clk.root = 2 then 1 else 0)

/-- The 25th edge of its new clock reaches an island (R701). The engines island shows the root in force, the firmware
island delivers a waiting interrupt, and the last one ends the switch (R694, R696). -/
def execIslandSwitchComplete (island : Fin 14) (s : State) : Host.Outcome State Fault Refusal :=
  s.on fun s =>
    let i := island.val
    s.when (s.clk.stopped.contains i) fun s =>
      let s := ({ s with clk := { s.clk with stopped := s.clk.stopped.filter (· != i) } }).showIsl i
      let s : Block := if i = 1 then
          let s := s.setFld F.CTU_CLK_STATUS_root_src s.clk.root
          let s := s.setFld F.CTU_ISL_STATUS_deep (b2n s.clk.deep)
          if s.clk.root = 2 then s else s.setFld F.HUB_BOOT_STATUS_root_pll 1
        else s
      let s : Block := if i = 2 ∧ s.clk.nmiWait then { s with clk := { s.clk with nmiWait := false, nmi := true } } else s
      if s.clk.stopped.isEmpty then
        let s := s.setFld F.CTU_CLK_STATUS_switching 0
        match s.clk.next with
        | some (root, deep) => ({ s with clk := { s.clk with next := none } }).switchAll root deep
        | none => s
      else s

/-! ## Sources (R687-R696) -/

/-- Source `src` may feed the PLL. -/
def Block.srcEnabled (s : Block) (src : Nat) : Bool :=
  if src = 0 then s.flag F.CTU_CLK_CTRL_src0_en else src == 1 && s.flag F.CTU_CLK_CTRL_src1_en

/-- The most preferred qualified source with its enable bit set. -/
def Block.bestRef (s : Block) : Option Nat := [0, 1].find? fun src => s.qualified src && s.srcEnabled src

/-- The PLL takes a reference; it has to lock to it anew. -/
def Block.setRef (s : Block) (r : Option Nat) : Block :=
  if s.clk.ref = r then s
  else ({ s with clk := { s.clk with ref := r } }).setFld F.CTU_CLK_STATUS_pll_lock 0

/-- Monitor 2 counts against source 1 while source 0 is not qualified (Table 17-2). -/
def Block.showAlt (s : Block) : Block := s.setFld (F.CTU_MON_alt_checker 2) (b2n !(s.qualified 0))

/-- A source fails (R690-R694, R696): disqualified, recorded, and a failover when it feeds the root.
Marks: DEDUCED, log entry 22. -/
def Block.failSource (s : Block) (src : Nat) : Block :=
  let s := s.setMapBit F.CTU_CLK_STATUS_failed_seen src true
  let s := (s.setFld (F.CTU_MON_fail src) 1).setFld (F.CTU_MON_good_run src) 0
  let s := s.setMapBit F.CTU_CLK_STATUS_qualified src false
  let s := if src = 0 then s.showAlt else s
  let excess := s.clk.ref == some src && s.rootSrc != 2 && s.rootCmd.1 != 2
  let lost := s.clk.ref == some src
  let s := if excess then
      let s := (s.incSat F.CTU_CLK_STATUS_failovers).switchRoot 2
      { s with clk := { s.clk with nmiWait := true } }
    else if lost && s.rootCmd.1 != 2 then s.switchRoot 2
    else s
  let s := s.raise 13 0 src
  if lost then
    let s := { s with clk := { s.clk with ref := none } }
    (s.setFld F.CTU_CLK_STATUS_pll_lock 0).setRef s.bestRef
  else s

/-- A source more preferred than the present reference is qualified: the islands go to the ring oscillator and the PLL
to it (R695). Without a reference the PLL takes the source at once.
Marks: DEDUCED, log entry 23. -/
def Block.preferBetter (s : Block) : Block :=
  match s.bestRef with
  | none => s
  | some b =>
    match s.clk.ref with
    | none => s.setRef (some b)
    | some r =>
      if b < r ∧ (s.flag F.CTU_CLK_CTRL_auto_return ∨ s.flag F.CTU_CLK_CTRL_ret_req) then
        (if s.rootCmd.1 = 2 then s else s.switchRoot 2).setRef (some b)
      else s

/-- The islands return to the PLL once it is locked and a return is allowed (R695). -/
def Block.returnRoot (s : Block) : Block :=
  match s.clk.ref with
  | some r =>
    if s.flag F.CTU_CLK_STATUS_pll_lock ∧ s.rootCmd.1 = 2 ∧
        (s.flag F.CTU_CLK_CTRL_auto_return ∨ s.flag F.CTU_CLK_CTRL_ret_req) then
      (s.switchRoot r).setFld F.CTU_CLK_CTRL_ret_req 0
    else s
  | none => s

/-- Tolerances of the monitors (Table 17-2). -/
def monitorRange (m : Nat) : Nat × Nat := [(65523, 65549), (60293, 70779), (61276, 65667)].getD m (0, 0)

/-- The fabric's markers vouch for the recovered clock (R691). -/
def Block.markersVouch (s : Block) : Bool :=
  s.timeState == 1 && s.time.offsets.length == 3 && s.time.offsets.all fun o => decide (-4 ≤ o ∧ o ≤ 4)

/-- A source enters service after q_windows good windows (R692).
Marks: DEDUCED, log entry 21. -/
def Block.qualify (s : Block) (m : Nat) : Block :=
  if s.fld F.CTU_CLK_CTRL_q_windows ≤ s.fld (F.CTU_MON_good_run m) then
    let s := (s.setMapBit F.CTU_CLK_STATUS_qualified m true).setFld (F.CTU_MON_fail m) 0
    (if m = 0 then s.showAlt else s).preferBetter
  else s

/-- A window of monitor `m` ends with `count` counts (R689, R691, R692). A window with a count shows that its source
gives edges again (R690).
Marks: DEDUCED, log entry 21. -/
def execMonitorWindow (m : Fin 3) (count : Nat) (now : Ft) (s : State) : Host.Outcome State Fault Refusal :=
  s.on fun s =>
    let s := s.advance now
    let m := m.val
    let s := s.setFldS (F.CTU_MON_dev m) ((count : Int) - 65536)
    let s := s.setFld (F.CTU_MON_stopped m) 0
    let s := if m = 2 then
        s.showAlt.setSat F.CTU_RING_ring_khz (count * 4000000 / 65536)
      else s
    let inj := (s.stim 6 m).isSome
    let s := if inj then s.setStim 6 m none else s
    let bad := inj || decide (count < (monitorRange m).1) || decide ((monitorRange m).2 < count)
    if bad then
      let src := if m = 0 ∧ !inj ∧ s.markersVouch then 1 else m
      s.injecting inj fun s => s.failSource src
    else (s.incSat (F.CTU_MON_good_run m)).qualify m

/-- A source gives no edge for 32 ns (R690). -/
def execSourceStop (src : Fin 3) (now : Ft) (s : State) : Host.Outcome State Fault Refusal :=
  s.on fun s =>
    let s := s.advance now
    s.when (!s.flag (F.CTU_MON_stopped src.val)) fun s => (s.setFld (F.CTU_MON_stopped src.val) 1).failSource src.val

/-- The root PLL locks to its reference (R688, R695); `lock` false: it loses lock, a failure of the reference in use.
Marks: DEDUCED, log entry 22. -/
def execRootPllLock (lock : Bool) (now : Ft) (s : State) : Host.Outcome State Fault Refusal :=
  s.on fun s =>
    let s := s.advance now
    match s.clk.ref with
    | none => s
    | some r =>
      if lock then
        s.when (s.qualified r && s.srcEnabled r && !s.flag F.CTU_CLK_STATUS_pll_lock) fun s =>
          -- from POR the islands move when the PLL first locks (R693)
          let s := s.setFld F.CTU_CLK_STATUS_pll_lock 1
          if s.flag F.HUB_BOOT_STATUS_root_pll ∨ s.rootCmd.1 ≠ 2 then s.returnRoot else s.switchRoot r
      else s.when (s.flag F.CTU_CLK_STATUS_pll_lock) fun s => s.failSource r

/-- A write of 1 to ret_req (R695): it clears itself where there is nothing to return to. -/
def Block.retReq (s : Block) : Block :=
  let s := s.setFld F.CTU_CLK_CTRL_ret_req 1
  let better := match s.bestRef, s.clk.ref with
    | some b, some r => decide (b < r)
    | some _, none => true
    | none, _ => false
  if better then s.preferBetter
  else if s.rootCmd.1 = 2 ∧ s.clk.ref.isSome then s.returnRoot
  else s.setFld F.CTU_CLK_CTRL_ret_req 0

def execRetReq (s : State) : Host.Outcome State Fault Refusal := s.on fun s => s.retReq

/-- A write of the enable bits: a reference that may feed the PLL no more gives way without a fault (Table 17-3). -/
def Block.clkEnables (s : Block) (src0 src1 : Bool) : Block :=
  let s := (s.setFld F.CTU_CLK_CTRL_src0_en (b2n src0)).setFld F.CTU_CLK_CTRL_src1_en (b2n src1)
  match s.clk.ref with
  | some r =>
    if s.srcEnabled r then s.preferBetter
    else (if s.rootCmd.1 = 2 then s else s.switchRoot 2).setRef s.bestRef
  | none => s.preferBetter

/-! ## Gating (R705-R707) -/

/-- A core domain of a die is not OFF. -/
def Block.dieRuns (s : Block) (die : Nat) : Bool := (List.range 16).any fun k => s.vstate (16 * die + k) != Vs.off

/-- in_use of CTU_GATE_STATUS (Table 17-5); an image is formed in the 4,096 ns after its snapshot (R238). PMBus transactions and stack polls are over within their command. -/
def Block.gateInUse (s : Block) (node : Nat) : Bool :=
  let w := s.now % 16384
  match node with
  | 0 => (decide (8192 ≤ w) && decide (w ≤ 16255) && s.fld F.HUB_PSTATE_STATUS_state != 5) ||
      (s.wce.formed.any fun f => Nat.ble s.now (f.at_ * 1024 + 4096)) || !s.wce.pendingRestore.isEmpty
  | 1 => decide (4096 ≤ s.now % 131072) && decide (s.now % 131072 ≤ 65536)
  | 3 => s.flag F.BTC_STATUS_scan_en || s.mpu.tapOut || s.posts.any (fun (p : Nat × PostS) => p.2.lbist)
  | 4 => s.flag (F.HIU_RING_CFG_en 133) || s.flag F.TTU_STATUS_trace_fill || 
      (decide (1 ≤ s.fld F.TTU_STOP_STATUS_state) && decide (s.fld F.TTU_STOP_STATUS_state ≤ 2))
  | 6 => (List.range 4).any s.dieRuns
  | n => decide (8 ≤ n) && decide (n ≤ 12)

/-- A node's gate_en bit. -/
def Block.gateEn (s : Block) (node : Nat) : Bool :=
  if node ≤ 6 then bit (s.fld F.CTU_GATE_EN_leaf_en) node
  else decide (8 ≤ node) && bit (s.fld F.CTU_GATE_EN_isl_en) (node - 8)

/-- Show whether node `node` is closed. -/
def Block.showGateBit (s : Block) (node : Nat) (closed : Bool) : Block :=
  s.setMapBit F.CTU_GATE_STATUS_closed node closed

/-- The Relay network island of a die closes or opens; node 6 reads closed while all four are (Table 17-12). -/
def Block.netGate (s : Block) (die : Nat) (closed : Bool) : Block :=
  let l := s.clk.netClosed.filter (· != die)
  let l := if closed then l ++ [die] else l
  (({ s with clk := { s.clk with netClosed := l } }).showIsl (if die = 0 then 7 else 8)).showGateBit 6
    (decide (l.length = 4))

/-- A node that is not in use closes (R705, R706); `die` names the Relay of node 6. The island nodes stay in use. -/
def execGateClose (node : Fin 13) (die : Die) (now : Ft) (s : State) : Host.Outcome State Fault Refusal :=
  s.on fun s =>
    let s := s.advance now
    let k := node.val
    if k = 6 then s.when (s.gateEn 6 && !s.dieRuns die.val && !s.clk.stopped.contains (7 + 2 * die.val)) fun s =>
      s.netGate die.val true
    else s.when (s.gateEn k && !s.gateInUse k) fun s => s.showGateBit k true

/-- A closed node that comes into use opens (R707). The ancestors of a leaf are islands, which are open. -/
def execGateOpen (node : Fin 13) (die : Die) (now : Ft) (s : State) : Host.Outcome State Fault Refusal :=
  s.on fun s =>
    let s := s.advance now
    let k := node.val
    if k = 6 then s.when (s.clk.netClosed.contains die.val && (s.dieRuns die.val || !s.gateEn 6)) fun s =>
      s.netGate die.val false
    else s.when (s.gateInUse k || !s.gateEn k) fun s => s.showGateBit k false

/-! ## Crossings (R708-R713, R719) -/

/-- The islands of a crossing's destination in the numbering of `stopped`: `none` in a Post or a PWM timebase. -/
def cdcDest (c : Nat) : Option Nat :=
  if c < 0x120 then some (c / 8 % 6)
  else if 0x200 ≤ c ∧ c < 0x400 then
    let d := (c - 0x200) / 0x80
    match (c - 0x200) % 0x80 / 8 % 3 with
    | 1 => some (6 + 2 * d)
    | 2 => some (7 + 2 * d)
    | _ => none
  else none

/-- The Hub's bundles, and a Relay's by their offset (Table 21-3); a number that is not listed carries no crossing. -/
def hubBundles : List Nat := [0x008, 0x030, 0x040, 0x042, 0x049, 0x04A, 0x04B, 0x052, 0x058, 0x05A, 0x068, 0x06A, 0x07A, 0x098,
  0x099, 0x0A2, 0x0B2, 0x0B8, 0x0CA, 0x0D0, 0x0DA, 0x0F8, 0x0FA]
def relayBundles : List Nat := [0x009, 0x00A, 0x00B, 0x018, 0x019, 0x02A, 0x02B, 0x03A, 0x03B]

/-- A crossing of Table 17-7 that carries kind `k`; a Post's number covers a level, an agreement and handshakes (R787). -/
def cdcValid (c k : Nat) : Bool :=
  let rel := (c - 0x200) % 0x80
  (decide (c < 0x120) && c % 8 == k && hubBundles.contains c) ||
    (decide (0x200 ≤ c) && decide (c < 0x400) && rel % 8 == k && relayBundles.contains rel) ||
    (decide (0x400 ≤ c) && decide (c < 0x800) && decide (k < 3))

/-- Record a fault of a crossing where its destination stands (R710, R712, R719). -/
def Block.cdcFault (s : Block) (c src : Nat) : Block :=
  if c < 0x120 then
    let s := if src = 0 then
        ((s.setFld F.CTU_CDC_STATUS_last_timeout c).setFld F.CTU_CDC_STATUS_timeout_seen 1).incSat F.CTU_CDC_COUNT_timeouts
      else ((s.setFld F.CTU_CDC_STATUS_last_ovf c).setFld F.CTU_CDC_STATUS_ovf_seen 1).incSat F.CTU_CDC_COUNT_overflows
    s.raise 14 src c
  else if c < 0x400 then s.relayFault ((c - 0x200) / 0x80) 14 src c
  else s.relayFault (dieOfTile (c - 0x400)) 14 src c

/-- 16 edges of disagreement at an agreement-sampled crossing: an agreement or a handshake (R710, R711). While the
destination island is stopped the timeout does not run (R704). -/
def execCdcAgreementTimeout (crossing : Fin 2048) (now : Ft) (s : State) : Host.Outcome State Fault Refusal :=
  s.on fun s =>
    let s := s.advance now
    let c := crossing.val
    let stopped := match cdcDest c with | some i => s.clk.stopped.contains i | none => false
    s.when ((cdcValid c 1 || cdcValid c 2) && !stopped) fun s =>
      let inj := (s.stim 7 c).isSome
      let s := if inj then s.setStim 7 c none else s
      s.injecting inj fun s => s.cdcFault c 0

/-- A snapshot with its overflow bit reaches the destination of a pulse-count crossing (R712). -/
def execPulseCountOverflow (crossing : Fin 2048) (now : Ft) (s : State) : Host.Outcome State Fault Refusal :=
  s.on fun s =>
    let s := s.advance now
    s.when (cdcValid crossing.val 3) fun s => s.cdcFault crossing.val 1

end Sys2Proof.Machine
end

