-- ==== Sys2Proof/Machine/Power.lean ====
section
/-! DEFINITION. Chip power states, the start of the core domains, and PLL lock (18_reset_states_bringup.md R731-R741,
08_droop_and_margin.md R354). -/
namespace Sys2Proof.Machine
open Sys2Proof

/-- The state takes a value (Table 18-7). -/
def Block.setPstate (s : Block) (st : Nat) (ph : PsPhase) : Block :=
  let s := (s.setFld F.HUB_PSTATE_STATUS_state st).setFld F.HUB_PSTATE_FT_ft s.now
  { s with power := { s.power with phase := ph } }

def Block.setPower (s : Block) (p : PowerS) : Block := { s with power := p }

/-- Every core domain follows its frequency (R353, R733, R734). -/
def Block.freqAll (s : Block) : Block := s.forAll (List.range 64) fun s n => s.applyFreq n

/-- A core domain drives its output. -/
def Block.drives (s : Block) (n : Nat) : Bool := s.vstate n == Vs.run || s.vstate n == Vs.soft

/-- Its VID stands at the target and its PLLs are locked; a domain that drives nothing is waited for by none (log
entry 14).
Marks: DESIGN CHOICE, log entry 14. -/
def Block.coreAtRest (s : Block) (n : Nat) : Bool :=
  !s.drives n || (s.vidSettled n && (s.margin n).pll == .idle)

/-- Duration of an exit that ends now, us (Table 18-7). -/
def Block.exitTime (s : Block) : Block :=
  s.setSat F.HUB_PSTATE_STATUS_last_exit_us ((s.now - s.power.x.toNat) / 1000)

/-- Deep entry is held (R732). -/
def Block.deepHeld (s : Block) : Bool :=
  s.fld F.FWC_UPD_STATUS_state != 0 || s.fld F.TTU_STOP_STATUS_state == 1 || s.fld F.TTU_STOP_STATUS_state == 2 ||
    s.flag F.FC_ISO_STATUS_busy

/-- Entry to Deep from Idle-Gated, or held there (R732, R735). -/
def Block.enterDeep (s : Block) : Block :=
  if s.deepHeld then s.setFld F.HUB_PSTATE_STATUS_held 1
  else
    let s := (s.setFld F.HUB_PSTATE_STATUS_held 0).setPstate 4 .deep
    let s := s.setPower { s.power with ret := true }
    s.forAll (List.range 4) Block.applyDeep

/-- Entry to Idle-Gated (R733 step 1). -/
def Block.enterIdle (s : Block) : Block := (s.setPstate 1 .drain).setPower { (s.setPstate 1 .drain).power with stop := true }

/-- The PLLs of every core domain that drives are locked, on the way out of Idle-Gated: Active, and grants resume
(R734). -/
def Block.idleExitDone (s : Block) : Block :=
  if s.power.phase = .raise ∧ (List.range 64).all (fun n => !s.drives n || (s.margin n).pll == .idle) then
    let s := (s.setPstate 0 .rest).exitTime
    s.setPower { s.power with stop := false }
  else s

/-- Exit from Idle-Gated (R734). -/
def Block.exitIdle (s : Block) : Block :=
  let s := (s.setFld F.HUB_PSTATE_STATUS_held 0).setPstate 3 .raise
  (s.setPower { s.power with x := s.ft }).freqAll.idleExitDone

/-- Exit from Deep, registered at X (R737 steps 1-3). -/
def Block.exitDeep (s : Block) (target : Nat) : Block :=
  let s := (s.switchDeep false).setPstate 6 .wake
  let l := (List.range 64).filter fun n => s.vstate n != Vs.failed && !s.isoDom n
  let s := s.setPower { s.power with x := s.ft, ret := false, toStart := l, waking := [], stop := decide (target = 1) }
  let s := s.forAll (List.range 4) Block.applyRet
  s.freqAll

/-- Act on the target while no transition runs (R732).
Marks: DEDUCED, log entry 80. -/
def Block.actTarget (s : Block) : Block :=
  if s.power.phase ≠ .rest ∨ s.lg.tripped then s
  else
    let t := s.fld F.HUB_PSTATE_CTRL_target
    match s.fld F.HUB_PSTATE_STATUS_state with
    | 0 => if t = 1 ∨ t = 2 then s.enterIdle else s
    | 2 => if t = 0 then s.exitIdle else if t = 2 then s.enterDeep else s.setFld F.HUB_PSTATE_STATUS_held 0
    | 5 => if t = 0 ∨ t = 1 then s.exitDeep t else s
    | _ => s

/-- A write of the target (R732): code 3 is ignored. A request of a lower master in the tick of a higher one's is lost
(R293).
Marks: DEDUCED, log entry 80. -/
def Block.writeTarget (s : Block) (rank value : Nat) : Block :=
  let k := s.tick
  if value = 3 then s
  else match s.contend [(0x105, 0)] rank k s.now (s.fld F.HUB_PSTATE_CTRL_target) value fun _ => false with
  | (false, s) => s
  | (true, s) =>
    let s := s.setFld F.HUB_PSTATE_CTRL_target value
    -- written while Deep is being left, Idle-Gated stops the grants at once
    let s := if s.power.phase = .wake then s.setPower { s.power with stop := decide (value = 1) } else s
    s.actTarget

/-- The rank of who writes a register (R293): host software (0, or P6), the management port (1), firmware (2). -/
def rankOf : Nat → Nat
  | 0 => 2
  | 1 => 1
  | _ => 4

/-- A write of the target by host software (0), the management port (1) or firmware (2). -/
def execPstateTarget (by_ : Fin 3) (value : Fin 4) (now : Ft) (s : State) : Host.Outcome State Fault Refusal :=
  s.on fun s => (s.advance now).writeTarget (rankOf by_.val) value.val

/-- No busy tile and no outstanding grant: the domains go to 800 MHz (R733 step 2). -/
def execIdleGatedDrained (now : Ft) (s : State) : Host.Outcome State Fault Refusal :=
  s.on fun s =>
    let s := s.advance now
    let busy := (List.range 63).any fun c => decide (0 < sumN ((List.range 4).map fun d => s.busyTiles d (c + 1)))
    let out := (List.range 4).any fun d => !(s.slice d).gs || (s.slice d).grants.any s.outstanding
    s.when (s.power.phase == .drain && !busy && !out) fun s => (s.setPstate 1 .lower).freqAll

/-- Every core VID has reached its target: Idle-Gated, and the target that stands is acted on (R732, R733). -/
def execIdleGatedReached (now : Ft) (s : State) : Host.Outcome State Fault Refusal :=
  s.on fun s =>
    let s := s.advance now
    s.when (s.power.phase == .lower && (List.range 64).all s.coreAtRest) fun s => (s.setPstate 2 .rest).actTarget

/-- The PLLs of a core domain report lock: a raised frequency is in force, a lowered one lets the VID follow (R354).
The last lock on the way out of Idle-Gated ends the exit (R734). -/
def execPllLock (dom : CoreDom) (now : Ft) (s : State) : Host.Outcome State Fault Refusal :=
  s.on fun s => ((s.advance now).pllLock dom.val).idleExitDone.actTarget

/-- Every core domain is OFF or FAILED: the islands go to their Deep divisions and the state reads Deep (R735). -/
def execDeepEntrySwitch (now : Ft) (s : State) : Host.Outcome State Fault Refusal :=
  s.on fun s =>
    let s := s.advance now
    let down := (List.range 64).all fun n => s.vstate n == Vs.off || s.vstate n == Vs.failed
    s.when (s.power.phase == .deep && down) fun s =>
      let s := (s.switchDeep true).setPstate 5 .rest
      (s.setPower { s.power with hold := true }).actTarget

/-- Core domain `dom` receives en = 1 at X + 1,024 + n × stagger ns (R737 step 3); one whose link carries nothing then
does not, and is waited for no more (R74).
Marks: DESIGN CHOICE, log entry 14. -/
def execDeepExitDomainStart (dom : CoreDom) (now : Ft) (s : State) : Host.Outcome State Fault Refusal :=
  s.on fun s =>
    let s := s.advance now
    let n := dom.val
    let at_ := s.power.x.toNat + 1024 + n * (s.fld F.HUB_PSTATE_CFG_stagger * 64)
    s.when (s.power.toStart.contains n && decide (at_ ≤ s.now)) fun s =>
      let s := s.setPower { s.power with toStart := s.power.toStart.filter (· != n) }
      if s.vstate n = Vs.failed ∨ s.isoDom n ∨ !s.linkUp (dieOfDom n) ∨ s.fld F.LFC_LC_state = 5 then s
      else (s.setPower { s.power with waking := s.power.waking ++ [n] }).setFld (F.VRC_DOM_CTRL_en n) 1

/-- Every started core domain is in RUN: Active (R737 step 5). One that has FAILED meanwhile is waited for no more (log
entry 14).
Marks: DESIGN CHOICE, log entry 14. -/
def execDeepExitComplete (now : Ft) (s : State) : Host.Outcome State Fault Refusal :=
  s.on fun s =>
    let s := s.advance now
    s.when (s.power.phase == .wake && s.power.toStart.isEmpty &&
        s.power.waking.all fun n => s.vstate n == Vs.run || s.vstate n == Vs.failed) fun s =>
      let s := (s.setPstate 0 .rest).exitTime
      (s.setPower { s.power with waking := [] }).actTarget

/-- Firmware starts the core domains at LOCKED, or 100 ms after U0-U3 have reached RUN (Table 18-5 step 11, R741), in
Static at f_req 1,000 MHz, with the stagger of R737.
Marks: DEDUCED, log entry 81. -/
def execCoreDomainStart (now : Ft) (s : State) : Host.Outcome State Fault Refusal :=
  s.on fun s =>
    let s := s.advance now
    let due := match s.power.uncoreAt with
      | some t => s.timeState == 1 || decide (t + 100000000 ≤ s.now)
      | none => false
    s.when (due && s.flag F.HUB_BOOT_STATUS_image_started && !s.flag F.HUB_BOOT_STATUS_core_up &&
        s.power.phase == .rest && s.fld F.HUB_PSTATE_STATUS_state == 0 && s.power.toStart.isEmpty) fun s =>
      let l := (List.range 64).filter fun n => s.vstate n == Vs.off && !s.flag (F.VRC_DOM_CTRL_en n) && !s.isoDom n
      let s := s.setPower { s.power with x := s.ft, toStart := l }
      s.forAll l fun s n =>
        ((s.setFld (F.LG_MARGIN_FREQ_f_req n) 1000).setFld (F.LG_MARGIN_MODE_req n) 0).applyFreq n

end Sys2Proof.Machine
end

