-- ==== Sys2Proof/Machine/Bist.lean ====
section
/-! DEFINITION. Self-test, ECC and page retirement (19_test_and_memory_protection.md). -/
namespace Sys2Proof.Machine
open Sys2Proof

/-! ## SRAMs (Table 19-1) -/

/-- Entries of BTC_RETIRE that serve an SRAM (Table 19-4). -/
def spares (n : Nat) : List Nat :=
  if n = 0 then List.range 8 else if n = 1 then [8, 9] else if n = 5 then (List.range 8).map (10 + ·) else []

/-- The bit of an SRAM in mbist_unrep. -/
def unrepBit (n : Nat) : Nat :=
  if n < 0x10 then n else if n < 0x14 then 8 + (n - 0x10) else 12 + (n - 0x14)

/-- The SRAMs of Table 19-1. -/
def srams : List Nat := [0, 1, 2, 3, 4, 5, 6, 0x10, 0x11, 0x12, 0x13, 0x14, 0x15, 0x16, 0x17]

/-! ## ECC in service (R750-R752) -/

/-- Write the ECC log (R752).
Marks: DEDUCED, log entry 109. -/
def Block.eccLog (s : Block) (sram kind by_ syn addr : Nat) : Block :=
  let n := s.fld F.BTC_ECC_STATUS_log_pos
  let k := n % 64
  let old := s.fld (F.BTC_ECC_LOG_INFO_kind k) != 0
  let s := if old then s.incSat F.BTC_ECC_STATUS_log_ovf else s
  let w := packBits [(20, 12, sram), (18, 2, kind), (16, 2, by_), (0, 8, syn)]
  let s := (s.setReg (0x1A100 + 0x10 * k) (BitVec.ofNat 64 w)).setFld (F.BTC_ECC_LOG_ADDR_addr k) addr
  (s.setFld (F.BTC_ECC_LOG_FT_ft k) s.now).incWrap F.BTC_ECC_STATUS_log_pos

/-- The word is known to be uncorrectable; poisoned where a retirement copied it. -/
def Block.badWord (s : Block) (sram addr : Nat) : Option Bool :=
  (s.btc.bad.find? fun (x : Nat × Nat × Bool) => x.1 == sram && x.2.1 == addr / 8 * 8).map (·.2.2)

/-- A full write of a word replaces it (R752).
Marks: DEDUCED, log entry 88. -/
def Block.wordWritten (s : Block) (sram addr : Nat) : Block :=
  { s with btc := { s.btc with
    bad := s.btc.bad.filter fun (x : Nat × Nat × Bool) => !(x.1 == sram && x.2.1 == addr / 8 * 8) } }

/-- An injection of `mode` bits waits at an SRAM, or has flipped them in a word that nobody has read yet (det 4 of
Table 12-6). -/
def Block.eccStim (s : Block) (sram mode : Nat) : Bool := (s.stim 4 sram).any fun m => m.1 == mode || m.1 == mode + 2

/-- A fault of an SRAM: one of a Relay goes up its queue (R501, R502). -/
def Block.sramFault (s : Block) (src sram : Nat) : Block :=
  if 0x10 ≤ sram then s.relayFault (sram % 4) 16 src sram else s.raise 16 src sram

/-- A single-bit error is corrected, written back and logged (R750). -/
def Block.eccCorrected (s : Block) (sram addr syn by_ : Nat) : Block :=
  let inj := s.eccStim sram 0
  let s := if inj then s.setStim 4 sram none else s
  let s := (s.eccLog sram 1 by_ syn addr).setFld F.BTC_ECC_STATUS_ce_seen 1
  let s := { s with btc := { s.btc with weak := s.btc.weak.filter (· != (sram, addr / 8 * 8)) } }
  s.injecting inj fun s => s.sramFault 0 sram

/-- An uncorrectable error is logged, and the word stays as it is (R750). -/
def Block.eccFound (s : Block) (sram addr syn by_ : Nat) : Block :=
  let inj := s.eccStim sram 1
  let s := if inj then s.setStim 4 sram none else s
  let was := s.badWord sram addr
  let s := (s.eccLog sram (if was = some true then 3 else 2) by_ syn addr).setFld F.BTC_ECC_STATUS_ue_seen 1
  let s := if was.isSome then s
    else { s with btc := { s.btc with bad := s.btc.bad ++ [(sram, addr / 8 * 8, false)] } }
  s.injecting inj fun s => s.sramFault 1 sram

/-- What an uncorrectable error does to an engine that reads its own tables (Table 19-1, R751): `part` names the domain,
the class, the leakage entry (from 72 on), the TME's bank (0 A, 1 B), the buffer's packet or the Relay's memory.
Marks: DESIGN CHOICE, log entry 16; DEDUCED, log entry 109. -/
def Block.eccEngine (s : Block) (sram part : Nat) : Block :=
  if sram = 2 then
    if part < 72 then
      ({ s with wce := { s.wce with pendingRestore := s.wce.pendingRestore ++ [part] } }).raise 5 2 part
    else s
  else if sram = 3 then
    if part < 72 then
      (({ s with ea := { s.ea with bad := s.ea.bad ++ [part] } }).setFld F.EA_STATUS_ecc_seen 1).raise 4 0 part
    else
      -- the domain of a leakage entry's fault is not stated (log entry 16)
      let (v, s) := s.free
      (({ s with ea := { s.ea with badLeak := s.ea.badLeak ++ [part - 72] } }).setFld F.EA_STATUS_ecc_seen 1).raise 4 0
        (v.toNat % 72)
  else if sram = 4 then
    if s.flag F.TME_STATUS_data_src ∧ part = s.fld F.TME_STATUS_bank_active then { s with tme := { s.tme with ecc := true } }
    else s
  else if sram = 6 then
    -- the packet that used the buffer completes with FAULTED
    let jobs := s.hiu.jobs.zipIdx.map fun (x : Job × Nat) =>
      if x.2 = part ∧ x.1.out.isNone then { x.1 with out := some ⟨0x16, 0, [], []⟩ } else x.1
    { s with hiu := { s.hiu with jobs := jobs } }
  else if 0x10 ≤ sram ∧ sram < 0x14 then
    let d := sram - 0x10
    s.setSlice d { s.slice d with badCls := (s.slice d).badCls ++ [part] }
  else if 0x14 ≤ sram ∧ sram < 0x18 then
    let d := sram - 0x14
    if part = 0 then s.setRelay d { s.relay d with fifo := (s.relay d).fifo.drop 1 }
    else ((s.setLink d { s.link d with replays := min 255 ((s.link d).replays + 1) }).cntDie d 0).relayFault d 11 3 d
  else s

/-- Who met the error, beside an engine with its own tables (Table 19-2): 0 a firmware core, whose crash is
CORE_EXCEPTION; 1 the HIU taking a staging entry; 2 the dump engine; 3 the boot ROM. -/
def Block.eccReader (s : Block) (who : Nat) : Block :=
  match who with
  | 1 =>
    match s.ttu.queue with
    | e :: rest => ({ s with ttu := { s.ttu with queue := rest } }).loseEntries e.ring 1
    | [] => s
  | 2 =>
    match s.fwc.dumping with
    | x :: rest => ({ s.slotLost with fwc := { s.slotLost.fwc with dumping := rest } }).resetCrashed x.core
    | [] => s
  | 3 => s.setFld F.FWC_STATUS_rom_wait 1
  | _ => s

/-- A single-bit error met by a requester (`copy` false) or by a retirement's copy. -/
def execEccCorrected (sram : Fin 24) (addr : Nat) (syn : Byte) (copy : Bool) (now : Ft) (s : State) :
    Host.Outcome State Fault Refusal :=
  s.on fun s =>
    let s := s.advance now
    s.when (decide (addr < sramSize sram.val)) fun s =>
      s.eccCorrected sram.val (addr / 8 * 8) syn.toNat (if copy then 2 else 0)

/-- A double-bit error met by a requester or by a retirement's copy. Reads through the window and over P4 and P6 meet
theirs in their own commands. -/
def execEccUncorrectable (sram : Fin 24) (addr : Nat) (syn : Byte) (copy : Bool) (who : Fin 4) (part : Nat) (now : Ft)
    (s : State) : Host.Outcome State Fault Refusal :=
  s.on fun s =>
    let s := s.advance now
    let n := sram.val
    s.when (decide (addr < sramSize n)) fun s =>
      let s := s.eccFound n addr syn.toNat (if copy then 2 else 0)
      if copy then s
      else
        let s := s.eccEngine n part
        if n = 0 ∨ n = 1 ∨ n = 5 then s.eccReader who.val else s

/-- The patrol scrubber reads a word: `err` 0 none, 1 a single-bit error, 2 an uncorrectable one (R752); `part` is the
instance whose state a word of the WCE SRAM holds, which an uncorrectable error restores (R232). -/
def execPatrolScrub (sram : Fin 24) (addr : Nat) (found : Fin 3 × Byte) (part : Nat) (now : Ft) (s : State) :
    Host.Outcome State Fault Refusal :=
  s.on fun s =>
    let s := s.advance now
    s.when (s.flag F.BTC_ECC_CFG_scrub_en && decide (addr < sramSize sram.val)) fun s =>
      match found.1.val with
      | 1 => s.eccCorrected sram.val (addr / 8 * 8) found.2.toNat 1
      | 2 =>
        let s := s.eccFound sram.val addr found.2.toNat 1
        if sram.val = 2 then s.eccEngine 2 part else s
      | _ => s

/-! ## Page retirement (R753-R757) -/

/-- Write the mappings of the Granary's list (R756).
Marks: DEDUCED, log entry 88. -/
def Block.showRetired (s : Block) : Block :=
  s.forAll s.btc.retired fun s (x : Nat × Nat) =>
    (s.setFld (F.BTC_RETIRE_valid x.1) 1).setFld (F.BTC_RETIRE_page x.1) x.2

/-- A retirement request (R754, R755). -/
def Block.pageRetire (s : Block) (sram page : Nat) : Block :=
  if s.flag F.BTC_RETIRE_STATUS_busy then s
  else if (spares sram).isEmpty ∨ sramSize sram ≤ 4096 * page then s.setFld F.BTC_RETIRE_STATUS_result 3
  else if (spares sram).any fun k => s.flag (F.BTC_RETIRE_valid k) && s.fld (F.BTC_RETIRE_page k) == page then
    s.setFld F.BTC_RETIRE_STATUS_result 1
  else match (spares sram).find? fun k => !s.flag (F.BTC_RETIRE_valid k) with
    | none => s.setFld F.BTC_RETIRE_STATUS_result 2
    | some k => ({ s with btc := { s.btc with copy := some (sram, page, k) } }).setFld F.BTC_RETIRE_STATUS_busy 1

/-- Firmware writes BTC_RETIRE_REQ. -/
def execPageRetire (sram : Fin 4096) (page : Fin 512) (s : State) : Host.Outcome State Fault Refusal :=
  s.on fun s => s.pageRetire sram.val page.val

/-- The copy is complete: the mapping is in force, and uncorrectable words of the page stand poisoned (R754).
Marks: DEDUCED, log entry 88. -/
def execPageRetireComplete (now : Ft) (s : State) : Host.Outcome State Fault Refusal :=
  s.on fun s =>
    let s := s.advance now
    match s.btc.copy with
    | none => s
    | some (sram, page, k) =>
      let bad := s.btc.bad.map fun (x : Nat × Nat × Bool) =>
        if x.1 = sram ∧ x.2.1 / 4096 = page then (x.1, x.2.1, true) else x
      let s := { s with btc := { s.btc with copy := none, bad := bad, retired := s.btc.retired ++ [(k, page)] } }
      let s := (s.setFld F.BTC_RETIRE_STATUS_busy 0).setFld F.BTC_RETIRE_STATUS_result 0
      s.showRetired.raise 16 2 sram

/-! ## BIST (R746-R749) -/

/-- Memory BIST leaves its result: SRAMs with an unrepaired macro as the bits of mbist_unrep, and soft repairs. -/
def Block.mbistResult (s : Block) (unrep rows cols : Nat) : Block :=
  let m := unrep % 65536 - unrep % 65536 / 128 % 2 * 128
  let s := s.setFld F.BTC_MBIST_STATUS_mbist_unrep m
  (s.setSat F.BTC_REPAIR_soft_rows rows).setSat F.BTC_REPAIR_soft_cols cols

/-- Sources 23.0 and 23.1, stamped 0 (R747, R749, R85). -/
def Block.bistFaults (s : Block) : Block :=
  let z (g src inst : Nat) : FaultRec := ⟨g, src, inst, 0, 0, false, false⟩
  let s := if s.fld F.BTC_LBIST_STATUS_lbist_fail ≠ 0 then s.raiseRec (z 23 0 0) false else s
  s.forAll (srams.filter fun n => bit (s.fld F.BTC_MBIST_STATUS_mbist_unrep) (unrepBit n)) fun s n =>
    s.raiseRec (z 23 1 n) false

/-- Step 4 of Table 18-5 ends with the signatures of the five partitions and the outcome of memory BIST. -/
def execBistComplete (misr : List DWord) (unrep : BitVec 16) (rows cols : Nat) (s : State) :
    Host.Outcome State Fault Refusal :=
  s.on fun s =>
    s.when (!s.flag F.BTC_STATUS_bist_done && s.flag F.HUB_BOOT_STATUS_fuses_loaded) fun s =>
      let s := s.forAll (List.range 5) fun s k => s.setFld (F.BTC_LBIST_MISR_misr k) (misr.getD k 0).toNat
      let s := s.setFld F.BTC_LBIST_STATUS_lbist_fail (packBits ((List.range 5).map fun k =>
        (k, 1, b2n ((misr.getD k 0).toNat != s.btc.lbist.getD k 0))))
      ((s.mbistResult unrep.toNat rows cols).setFld F.BTC_STATUS_bist_done 1).bistFaults

end Sys2Proof.Machine
end

