-- ==== Sys2Proof/Machine/Survive.lean ====
section
/-! DEFINITION. What each kind of reset leaves of the block (18_reset_states_bringup.md, Table 18-2). -/
namespace Sys2Proof.Machine
open Sys2Proof

/-! ## The register window -/

/-- The bits [hi:lo]. -/
def mask (hi lo : Nat) : Nat := 2 ^ (hi + 1) - 2 ^ lo

/-- A whole register. -/
def whole : Nat := 2 ^ 64 - 1

/-- ROS fields of a register: K at a warm reset. -/
def rosMask (off : Nat) : Nat :=
  match findReg off with
  | some h => if h.off = off then sumN ((h.row.fields.filter fun (f : FieldRow) => f.acc == .ros).map fun (f : FieldRow) =>
      mask (f.lo + f.width - 1) f.lo) else 0
  | none => 0

/-- Fused fields (F): they keep their value through every reset. Offsets from, below, and the bits. -/
def fusedKeep : List (Nat × Nat × Nat) := [
  (0x0, 0xC, whole), (0x2108, 0x210C, mask 31 24), (0xE000, 0xE004, mask 23 16), (0xE100, 0xE160, mask 0 0),
  (0xF000, 0x10000, whole), (0x14024, 0x14040, whole), (0x14060, 0x14080, whole), (0x1A00C, 0x1A010, mask 7 0),
  (0x1C000, 0x1C004, mask 6 0), (0x1C00C, 0x1C010, whole)]

/-- Settings and counts since POR that a package warm reset keeps: offsets from, below, and the bits. -/
def warmKeep : List (Nat × Nat × Nat) := [
  (0x104, 0x110, whole), (0x2008, 0x200C, mask 23 16), (0x2100, 0x2104, whole),
  (0x2104, 0x2108, mask 31 16 + mask 7 5 + mask 3 0), (0x2108, 0x210C, whole), (0x2140, 0x2144, whole),
  (0x2184, 0x2188, whole),
  (0x300C, 0x3010, mask 23 16), (0x3020, 0x3034, mask 31 24), (0x3040, 0x3054, mask 31 24), (0x3060, 0x3068, whole),
  (0x4004, 0x4008, mask 3 0), (0x4600, 0x4920, whole), (0x4A00, 0x4C40, whole), (0x5000, 0x6020, whole),
  (0x800C, 0x8010, whole - mask 5 5), (0x8010, 0x8020, whole), (0x8100, 0x8500, whole),
  (0x9000, 0x9004, whole), (0x9010, 0x9024, whole), (0x9028, 0x9038, whole), (0x9040, 0x90C0, whole),
  (0x9400, 0x9410, whole), (0x9500, 0x9600, mask 1 0), (0x9600, 0x9700, mask 11 0), (0x9800, 0x9900, mask 31 26),
  (0xA004, 0xA008, mask 31 24 + mask 5 3), (0xA008, 0xA00C, whole), (0xC004, 0xC008, mask 4 2), (0xC044, 0xC048, whole),
  (0x10100, 0x10188, whole), (0x12000, 0x120C0, whole), (0x17004, 0x17008, whole),
  (0x18008, 0x1800C, whole), (0x18050, 0x18054, whole),
  (0x1A000, 0x1A080, whole), (0x1A084, 0x1A088, mask 15 8)]

/-- The FC's own words that Table 18-2 keeps: FC_FIRST and what follows it, sticky, forced and clear mirror, last fault
and its time. -/
def fcKeep (off : Nat) : Nat :=
  if 0x10010 ≤ off ∧ off < 0x10020 then whole
  else if 0x10800 ≤ off ∧ off < 0x10B40 then
    let k := (off - 0x10800) % 0x20
    if k = 0 ∨ k = 4 ∨ k = 0x10 ∨ k = 0x18 then whole else 0
  else 0

/-- Domain and phase states that the VRC part keeps: FAILED, disabled and the counts since POR. -/
def vrcKeep (off : Nat) : Nat :=
  if 0x500000 ≤ off ∧ off < 0x501200 then
    let k := (off - 0x500000) % 0x40
    if k = 4 then mask 31 29 else if k = 0x10 then mask 7 0 else 0
  else if 0x520000 ≤ off ∧ off < 0x521000 then
    let k := (off - 0x520000) % 0x10
    if k = 4 then mask 31 29 else if k = 8 then mask 31 16 else 0
  else if 0x5F0000 ≤ off ∧ off < 0x5F0100 then (if (off - 0x5F0000) % 0x40 = 8 then mask 31 24 else 0)
  else 0

def keepIn (l : List (Nat × Nat × Nat)) (off : Nat) : Nat :=
  (l.find? fun (r : Nat × Nat × Nat) => decide (r.1 ≤ off) && decide (off < r.2.1)).elim 0 (·.2.2)

/-- The bits of a register that a package warm reset keeps.
Marks: DEDUCED, log entry 77. -/
def warmMask (off : Nat) : Nat :=
  keepIn fusedKeep off ||| keepIn warmKeep off ||| fcKeep off ||| vrcKeep off ||| rosMask off

/-- The bits that a QV soft reset returns to their defaults are those of the firmware complex, of the session, the rings
and the region, of the TTU's rings, trace, telemetry and digest settings, and of the MPU's sessions and transactions
(R724, Table 18-2).
Marks: DEDUCED, log entry 78. -/
def softMask (off : Nat) : Nat :=
  if 0x3000 ≤ off ∧ off < 0x4000 then keepIn warmKeep off ||| rosMask off
  else if 0x14000 ≤ off ∧ off < 0x17000 then keepIn fusedKeep off
  else if 0x18000 ≤ off ∧ off < 0x18100 then
    (if off = 0x18008 ∨ off = 0x18050 ∨ (0x18040 ≤ off ∧ off < 0x18050) then whole else 0)
  else if off = 0x1C004 then mask 23 0 - mask 2 2
  else whole

/-- The window after a reset that keeps the bits `keep` gives. -/
def windowAfter (keep : Nat → Nat) (w : Tab DWord) : Tab DWord :=
  w.foldl (fun acc p =>
    let m := keep p.1
    let v := (p.2.toNat &&& m) ||| ((resetWord p.1).toNat &&& (whole - m))
    Tab.set resetWord acc p.1 (BitVec.ofNat 64 v)) []

/-- Change one field of every register of a list. -/
def Block.setFlds (s : Block) (l : List Fld) (v : Nat) : Block := s.forAll l fun s f => s.setFld f v

/-! ## Resets of the units -/

/-- Requests that the command processors present stay on P1. -/
def keepPres (t : Tab PostS) : Tab PostS :=
  t.filterMap fun (p : Nat × PostS) => if p.2.pres.isEmpty then none else some (p.1, { PostS.reset with pres := p.2.pres })

/-- Isolation of tiles survives a package warm reset. -/
def keepIso (t : Tab RelTile) : Tab RelTile :=
  t.filterMap fun (p : Nat × RelTile) => if p.2.isolated then some (p.1, { RelTile.reset with isolated := true }) else none

/-- The block's counters of the TTU survive; its rings, traces and log do not.
Marks: DEDUCED, log entry 77. -/
def TtuS.after (t : TtuS) : TtuS :=
  { TtuS.reset with pkg := t.pkg, tiles := t.tiles, doms := t.doms, transport := t.transport, rem := t.rem, sample := t.sample }

/-- The LG after a package warm reset (Table 18-2, R723): averages, trip and stack history kept.
Marks: DEDUCED, log entry 77. -/
def LgS.after (l : LgS) : LgS :=
  { LgS.reset with
    acc := l.acc, adj := min 0 l.adj, hot := l.hot, tripped := l.tripped, lastP := l.lastP, stackRead := l.stackRead, polled := l.polled
    stackNow := l.stackNow }

/-- The class tables stay, and the reports registered since POR (R335). -/
def SiloHub.after (x : SiloHub) : SiloHub :=
  { SiloHub.reset with bankA := x.bankA, bankB := x.bankB, reports := x.reports }
def EaS.after (x : EaS) : EaS := { EaS.reset with bankA := x.bankA, bankB := x.bankB, rem := x.rem }
def TmeS.after (x : TmeS) : TmeS := { TmeS.reset with bankA := x.bankA, bankB := x.bankB }
/-- Marks: DESIGN CHOICE, log entry 134. -/
def WceS.after (x : WceS) : WceS :=
  { WceS.reset with
    insts := x.insts, factory := x.factory, factoryFlag := x.factoryFlag, digCfg := x.digCfg, inForce := x.inForce
    setDue := x.setDue }
def FcS.after (x : FcS) : FcS := { FcS.reset with counts := x.counts, costs := x.costs, forcedNow := x.forcedNow }

/-- The firmware complex after a reset that restarts every core: the image regions, the boot record and the dumps lie in
SRAMs that survive; a dump being written is lost (R559).
Marks: DEDUCED, log entry 78. -/
def FwcS.after (x : FwcS) : FwcS :=
  { FwcS.reset with
    imgA := x.imgA, imgB := x.imgB, sram := x.sram, boot := x.boot, dumps := x.dumps, seq := x.seq
    elog := x.elog, elogAt := x.elogAt, elogSeq := x.elogSeq, refl := x.refl, reflSeq := x.reflSeq }

/-- Lending after a reset that restarts firmware (R725): the configuration, and the counts of waits. -/
def LendS.after (x : LendS) : LendS :=
  { LendS.reset with cfg := x.cfg, adopt := decide (2 ≤ x.cfg.n), waits := x.waits, waitsLast := x.waitsLast }

/-- The clocks after the Hub group's reset: a switch ends, and the islands leave reset on the root in force (R703). -/
def ClkS.after (x : ClkS) : ClkS :=
  { x with stopped := [], next := none, root := (x.next.map (·.1)).getD x.root, deep := false, nmiWait := false, nmi := false
           netClosed := [] }

def BtcS.after (x : BtcS) : BtcS := { x with copy := none }

/-- Show the islands running on the root in force. -/
def Block.showRoot (s : Block) : Block :=
  let s := s.forAll (List.range 8) fun s i => s.showIsl i
  (s.setFld F.CTU_CLK_STATUS_root_src s.clk.root).setFld F.CTU_CLK_STATUS_switching 0

/-! ## The boot ROM at a reset other than POR (R565, R574, R756) -/

/-- The boot ROM selects, checks and starts an image, or waits for one.
Marks: DEDUCED, log entries 65 and 81. -/
def Block.bootSelect (s : Block) : Block :=
  let s := s.bootAdopt
  if s.bootOk then s.startImage s.fwc.boot.active else s.bootWait

/-- What a live update that stood at `st` leaves: result 4, and the shadow region discarded while it loads
(Tables 13-12 and 13-14). -/
def Block.updReset (s : Block) (st : Nat) : Block :=
  if st = 0 then s
  else
    let s := if st ≤ 2 then s.setRegion (!s.fwc.boot.active) [] else s
    s.setFld F.FWC_UPD_STATUS_result 4

/-- A reset interrupts the dump being written: its slot holds no valid dump (R559). -/
def Block.dumpLost (s : Block) : Block :=
  if s.fwc.dumping.isEmpty then s else s.slotLost

end Sys2Proof.Machine
end

