-- ==== Sys2Proof/Machine/Reset.lean ====
section
/-! DEFINITION. POR, the load of the fuse shadow, package warm reset and QV soft reset (18_reset_states_bringup.md,
20_lifecycle_and_security.md R777). -/
namespace Sys2Proof.Machine
open Sys2Proof

/-! ## POR (R720, R740) -/

/-- A fuse operation that POR cuts: which of its bits are programmed is free; one that has verified has its effect.
Marks: DEDUCED, log entry 79. -/
def Block.fuseCut (s : Block) : Block :=
  let s := match s.lfc.op with
    | none => s
    | some op =>
      let (v, s) := s.free
      let ok := getBits v.toNat 0 1 == 1
      match op.kind with
      | .ceiling c value => s.ceilingEnd op c value ok
      | _ => s.fuseComplete op ok (getBits v.toNat 1 6)
  match s.lfc.due with
  | some (op, ok, _) => match op.kind with
    | .transition target => s.transitionEffect op target ok
    | _ => s
  | none => s

/-- The fused value of a field that a failed parity check had masked.
Marks: DEDUCED, log entry 100. -/
def Block.unmask (s : Block) (m : Masked) : Block :=
  let f : Fld := ⟨m.off, m.lo, m.width⟩
  if s.fld f = m.shown then s.setFld f m.fused else s

/-- POR: every reset group; fuses, the always-on pins, the host's memory and what the outside presents stay. -/
def Block.powerOn (s : Block) : Block :=
  let s := s.fuseCut
  let s : Block := { Block.reset with
    win := windowAfter (keepIn fusedKeep) s.win
    shadow := { s.shadow with trimBad := [] }
    lfc := { LfcS.reset with
      keyRecs := s.lfc.keyRecs, revRecs := s.lfc.revRecs, repairs := s.lfc.repairs, masked := s.lfc.masked }
    btc := { BtcS.reset with lbist := s.btc.lbist }
    lg := { LgS.reset with hot := s.lg.hot }
    posts := keepPres s.posts
    mpu := { MpuS.reset with tx := s.mpu.tx }
    freeCounter := s.freeCounter }
  let s := s.forAll s.lfc.masked Block.unmask
  let s := { s with lfc := { s.lfc with masked := [] } }
  let s := ((s.setFld F.LFC_LC_busy 0).setFld F.LFC_LC_last_result 0).setFld F.LFC_LC_parity_bad 0
  (s.setFld F.LFC_CEIL_STATUS_busy 0).setFld F.LFC_CEIL_STATUS_fail_seen 0

def execPowerOnReset (s : State) : Host.Outcome State Fault Refusal := s.always Block.powerOn

/-! ## The fuse shadow (Table 18-5 step 2, R287, R777) -/

/-- Show a value in place of the fused one.
Marks: DEDUCED, log entry 100. -/
def Block.maskField (s : Block) (f : Fld) (v : Nat) : Block :=
  let m : Masked := ⟨f.off, f.lo, f.width, s.fld f, v % 2 ^ f.width⟩
  ({ s with lfc := { s.lfc with masked := m :: s.lfc.masked } }).setFld f v

/-- What a failing word is taken as.
Marks: DEDUCED, log entry 100. -/
def Block.wordFails (s : Block) (w : FuseWord) : Block :=
  let s := match w with
    | .transition => { s with lfc := { s.lfc with lcBad := true } }
    | .key j =>
      let rev := if j.val < 4 then F.LFC_KEYS_img_revoked else F.LFC_KEYS_bnd_revoked
      s.maskField ⟨rev.off, rev.lo + j.val % 4, 1⟩ 1
    | .svn => s.maskField F.LFC_SVN_min_svn 63
    | .ceiling c => s.setFld (F.LFC_CEIL_value c.val) (ceilRange c.val).1
    | .trim t => { s with shadow := { s.shadow with trimBad := t.val :: s.shadow.trimBad } }
    | .memTrim k => { s with shadow := { s.shadow with trimBad := (1024 + k.val) :: s.shadow.trimBad } }
    | .other => s
  (s.setFld F.LFC_LC_parity_bad 1).raise 22 0 0

/-- The ceiling in force is the value of the highest programmed slot, or the design value (R287). -/
def Block.loadCeiling (s : Block) (c : Nat) : Block :=
  let n := s.fld (usedF c)
  s.setFld (F.LFC_CEIL_value c) (if n = 0 then (ceilRange c).2 else s.fld (F.LFC_CEIL_LOG_VALUE_value c (n - 1)))

/-- Requests of the host and management slots stand at the top of their range, and the effective thresholds follow,
without entries (R266, R271). -/
def Block.limDefaults (s : Block) : Block :=
  let s := s.forAll [1, 2] fun s m => s.setFld (F.LG_LIM1_thr m) (s.limTop 0)
  let s := s.forAll [1, 2, 3] fun s n => s.forAll [1, 2] fun s m => s.setFld (F.LG_LIM_thr (n - 1) m) (s.limTop n)
  let s := s.forAll [1, 2] fun s m => s.setFld (F.LG_TTHR1_trip m) (s.fld (F.LFC_CEIL_value 2))
  let s := s.forAll (List.range 4) fun s n => s.setFld (limField n) (s.limEff n)
  s.forAll s.thermEff fun s p => s.setFld p.1 p.2.2

/-- The shadow of the device-unique secret and the keys derived from it; never again in SCRAPPED (R758, R766). -/
def Block.loadSecrets (s : Block) : Block :=
  if s.lcState = 5 then s
  else
    let u := Config.deviceSecret
    { s with lfc := { s.lfc with secrets := { s.lfc.secrets with unique := u, keys := Config.derivedKeys u } } }

/-- The shadow is in place: `bad` are the words whose parity failed. The fused leakage factors show (R170).
Marks: DEDUCED, log entry 100. -/
def Block.loadShadow (s : Block) (bad : List FuseWord) : Block :=
  let s := s.forAll [0, 1, 2] Block.loadCeiling
  let s := s.forAll bad Block.wordFails
  let s := s.limDefaults
  let s := s.setFld F.LFC_ACCESS_access (accessOf (if s.lfc.lcBad then 3 else s.lcState))
  let s := s.loadSecrets
  let s := s.forAll ((s.shadow.leak.map (·.1)).filter (decide <| · < 1032)) fun s i =>
    s.setFld (F.EA_LEAK_FACTOR_factor i) (s.leakFactor (s.eaBank (s.flag F.EA_STATUS_bank_active)) i)
  let s := (s.setSat F.BTC_REPAIR_fuse_used (s.lfc.repairs.length / 2)).showNonce
  (s.forAll (List.range 64) Block.showFloor).setFld F.HUB_BOOT_STATUS_fuses_loaded 1

def execFuseShadowLoaded (bad : List FuseWord) (s : State) : Host.Outcome State Fault Refusal :=
  s.on fun s => s.when (!s.flag F.HUB_BOOT_STATUS_fuses_loaded) fun s => s.loadShadow bad

/-! ## Package warm reset (R722, R723) -/

/-- HUB_RESET_STATUS and HUB_RESET_FT (R722 step 1). -/
def Block.noteReset (s : Block) (kind : Nat) : Block :=
  let s := (s.setFld F.HUB_RESET_STATUS_last_kind kind).setFld F.HUB_RESET_FT_ft s.now
  if kind = 3 then s.incSat F.HUB_RESET_STATUS_soft_count else s.incSat F.HUB_RESET_STATUS_warm_count

/-- Cycle 0: the reset is recorded, the slices stop their grants from the next window, every domain receives en = 0
(R722 steps 1-3). A second request merges into the one that runs (R728); warm_req reads 1 until the reset clears it (R28). -/
def Block.warmStart (s : Block) (kind : Nat) : Block :=
  let s := if kind = 2 then s.setFld F.HUB_RESET_CTRL_warm_req 1 else s
  if s.rst.warm then s
  else
    let s := { s.noteReset kind with rst := ⟨true, false⟩ }
    s.forAll (List.range 72) Block.cmdDisable

def execWarmrstNAssert (now : Ft) (s : State) : Host.Outcome State Fault Refusal :=
  s.live fun s => (s.advance now).warmStart 1

def execWarmReq (now : Ft) (s : State) : Host.Outcome State Fault Refusal :=
  s.on fun s => (s.advance now).warmStart 2

/-- Every domain is OFF or FAILED. -/
def Block.railsDown (s : Block) : Bool :=
  (List.range 72).all fun d => s.vstate d == Vs.off || s.vstate d == Vs.failed

/-- FAILED domains, FAILED and disabled phases keep their states.
Marks: DEDUCED, log entry 77. -/
def Block.keepFailed (s : Block) : Block :=
  let s := s.forAll ((List.range 72).filter fun d => s.vstate d != Vs.failed) fun s d =>
    s.setFld (F.VRC_DOM_STATUS_state d) Vs.off
  s.forAll ((List.range 240).filter fun p => !(4 ≤ s.phState p)) fun s p => s.setPhState p 0

/-- A positive L5 adjustment is cleared (Table 18-2, n1). -/
def Block.dropBorrowed (s : Block) : Block :=
  if 0 < s.fldI F.LG_L5_ADJ_adj_mw then s.setFld F.LG_L5_ADJ_adj_mw 0 else s

/-- The Hub, Relay and Post groups assert: what Table 18-2 keeps stays, all else returns to its default.
Marks: DESIGN CHOICE, log entry 75; DEDUCED, log entries 77 and 79. -/
def Block.warmGroups (s : Block) : Block :=
  let st := s.updState
  let s := s.dumpLost
  let loading := s.silo.loading
  let s : Block := { Block.reset with
    win := windowAfter warmMask s.win
    posts := keepPres s.posts, tiles := keepIso s.tiles
    wce := s.wce.after, fc := s.fc.after, shadow := s.shadow, ttu := s.ttu.after, lg := s.lg.after
    silo := s.silo.after, ea := s.ea.after, clk := s.clk.after, btc := s.btc.after, tme := s.tme.after
    lend := s.lend.after
    fwc := s.fwc.after, hiu := HiuS.reset
    mpu := { MpuS.reset with
      tx := s.mpu.tx, tapOut := s.mpu.tapOut, tapIr := s.mpu.tapIr, tapDr := s.mpu.tapDr, bsr := s.mpu.bsr }
    lfc := s.lfc, freeCounter := s.freeCounter
    rst := ⟨true, true⟩ }
  let s := (s.updReset st).keepFailed.dropBorrowed
  let s := if loading then s.setFld F.SILO_STATUS_inactive_valid 0 else s
  let s := s.setFlds ((List.range 4).map F.SILO_SLICE_STATUS_table_bank) (s.fld F.SILO_STATUS_table_bank)
  let s := { s with marginCfg := List.replicate 4 ([0x9400, 0x9404, 0x9408, 0x940C].map fun o => (s.reg o).toNat) }
  let s := s.forAll (List.range 64) fun s n => (s.setMargin n { s.margin n with pen := s.penOf n 0 }).showFloor n
  s.showRoot.showFc

def execWarmResetGroupsAssert (s : State) : Host.Outcome State Fault Refusal :=
  s.live fun s => s.when (s.rst.warm && s.railsDown) Block.warmGroups

/-- The groups are released: the CTU is in ACQUIRING, and the boot ROM selects the image (R723). -/
def execWarmResetRelease (s : State) : Host.Outcome State Fault Refusal :=
  s.always fun s => s.when s.rst.groups fun s =>
    ({ s with rst := RstS.reset }).showRetired.bootSelect

/-! ## QV soft reset (R724, R725) -/

/-- Cores, session, rings, the MPU's sessions and the TTU's configuration restart; the governing hardware goes on. A soft
reset during a warm reset is discarded (R728).
Marks: DEDUCED, log entry 78. -/
def Block.softReset (s : Block) : Block :=
  if s.rst.warm then s
  else
    let st := s.updState
    let s := (s.noteReset 3).dumpLost
    let s : Block := { s with
      win := windowAfter softMask s.win
      ttu := { s.ttu.after with capture := s.ttu.capture }
      fwc := s.fwc.after
      hiu := { HiuS.reset with labels := s.hiu.labels, drainAt := s.hiu.drainAt }
      mpu := { s.mpu with arbLost := 0 }
      silo := { s.silo with drainStop := false }
      lend := s.lend.after }
    (s.updReset st).bootSelect

def execQvSoft (now : Ft) (s : State) : Host.Outcome State Fault Refusal :=
  s.on fun s => (s.advance now).softReset

end Sys2Proof.Machine
end

