-- ==== Sys2Proof/Machine/Window.lean ====
section
/-! DEFINITION. Reads of the QV window: registers, the staging SRAM, the firmware SRAM view, and what makes an access
fail (00_scope.md R21-R26, R826, 22_port_signals_and_register_map.md R802, R806). -/
namespace Sys2Proof.Machine
open Sys2Proof

/-! ## Registers whose value stands elsewhere in the state -/

/-- Two 16-bit pair16. -/
def pair16 (a b : Nat) : Nat := a % 65536 + b % 65536 * 65536

/-- A register of a Post, by its offset in the region (Table 22-21). -/
def Block.postView (s : Block) (t r : Nat) (stored : Nat) : Nat :=
  let p := s.post t
  let bank (b : Bank) (k : Nat) : Nat :=
    pair16 (ofSigned 16 (b.weights.getD (2 * k) 0)) (ofSigned 16 (b.weights.getD (2 * k + 1) 0))
  if r = 0 then packBits [(18, 2, dieOfTile t), (12, 6, domOfTile t), (0, 10, t)]
  else if r = 0x20 then p.kv % 65536
  else if 0x100 ≤ r ∧ r < 0x200 then
    let i := (r - 0x100) / 8
    (p.counts.getD i 0 + if i = 28 ∧ p.launch.2 < s.edge then p.launch.1 else 0) % 2 ^ 48
  else if 0x200 ≤ r ∧ r < 0x300 then p.snapCounts.getD ((r - 0x200) / 8) 0 % 2 ^ 48
  else if 0x300 ≤ r ∧ r < 0x340 then bank p.bankA ((r - 0x300) / 4)
  else if r = 0x340 then p.bankA.crc % 65536
  else if 0x380 ≤ r ∧ r < 0x3C0 then bank p.bankB ((r - 0x380) / 4)
  else if r = 0x3C0 then p.bankB.crc % 65536
  else if 0x440 ≤ r ∧ r < 0x480 then
    let k := (r - 0x440) / 4
    pair16 (p.histDone.getD (2 * k) 0) (p.histDone.getD (2 * k + 1) 0)
  else if 0x510 ≤ r ∧ r < 0x520 then
    let k := (r - 0x510) / 4
    pair16 ((s.vf t).getD (2 * k) 0) ((s.vf t).getD (2 * k + 1) 0)
  else stored

/-- The drain stop holds, no grant is outstanding and no context has a busy tile (R578). -/
def Block.drainedNow (s : Block) : Bool :=
  s.flag F.FWC_DBG_STATUS_drain_active && ((List.range 4).all fun d => !((s.slice d).grants.any s.outstanding)) &&
    (List.range 63).all fun c => s.fld (F.SILO_CTX_STAT_busy_tiles (c + 1)) == 0

/-- What a register reads as, at its own offset; a W1S field reads 1 while its action is pending (R28). -/
def Block.regView (s : Block) (off : Nat) : Nat :=
  let v := (s.reg off).toNat
  if off < 0x100000 then
    if off = 0x2000 then s.now
    else if off = F.HIU_LEND_BORROWED_borrowed_mw.off then s.borrowed
    else if off = 0x3104 then putBits v 9 1 (b2n s.drainedNow)
    else if off = 0x308C then putBits v 0 1 (b2n (s.fwc.bootPend && s.fwc.bootMgmt.isEmpty))
    else if off = 0x10034 then putBits v 23 4 s.isoShown
    else if off = 0x10024 then putBits v 0 1 (b2n s.fc.armed.isSome)
    else if off = 0x2144 then putBits v 16 13 (packBits ((List.range 13).map fun n => (n, 1, b2n (s.gateInUse n))))
    else if off = 0x10014 then putBits v 31 1 (s.fld F.FC_FIRST_valid)
    else if 0x10800 ≤ off ∧ off < 0x10B40 ∧ off % 0x20 = 4 then s.fld (F.FC_GRP_STICKY_sticky ((off - 0x10800) / 0x20))
    else if off = 0x3064 then packBits [(0, 1, s.fld (slotValid 0)), (1, 1, s.fld (slotValid 1))]
    else v
  else if off < 0x500000 then s.postView ((off - 0x100000) / 0x1000) (off % 0x1000) v
  else if off < 0x501200 ∧ off % 0x40 = 0 then putBits v 6 1 (b2n (s.vdom ((off - 0x500000) / 0x40)).commitAt.isSome)
  else if off < 0x501200 ∧ off % 0x40 = 4 then
    putBits v 18 1 (b2n (decide (0 < (s.vdom ((off - 0x500000) / 0x40)).boost)))
  else v

/-! ## Memories in the window -/

/-- Bytes of a list, a free value where none is given.
Marks: DESIGN CHOICE, log entry 84. -/
def Block.fill (s : Block) (l : List (Option Byte)) : Nat × Block :=
  if l.all (·.isSome) then (ofLe (l.map fun b => b.getD 0), s)
  else
    let (v, s) := s.free
    (ofLe (l.zipIdx.map fun (b, i) => b.getD (BitVec.ofNat 8 (getBits v.toNat (8 * i) 8))), s)

/-- A byte of the staging SRAM, by its offset (Table 16-2): the trace, event and telemetry areas carry no meaning.
Marks: DESIGN CHOICE, log entries 84 and 85. -/
def Block.stageByte (s : Block) (i : Nat) : Option Byte :=
  if i < 0x140000 then none
  else if i < 0x150000 then (Tab.get (fun _ => []) s.ttu.log ((i - 0x140000) / 64))[i % 64]?
  else if i < 0x180000 then some 0
  else if s.fld F.TTU_STOP_STATUS_state < 2 then none
  else
    let j := i - 0x180000
    if j < 64 then s.captureArea[j]? else (s.ttu.capture.getD ((j - 64) / 32) [])[j % 32]?

/-- A byte of the firmware SRAM view, by its page (Table 13-17). What a write left there reads back until an image, an entry
of the log or the start of an image takes its place; what firmware keeps there beside is free.
Marks: DESIGN CHOICE, log entries 84 and 130. -/
def Block.viewByte (s : Block) (page i : Nat) : Option Byte :=
  let slot (k j : Nat) : Option Byte := match s.fwc.dumps.getD k none with
    | some d => some (if j < 0x18 then d.head.getD j 0 else d.byte j)
    | none => none
  let left (o : Nat) : Option Byte := Tab.get (fun _ => none) s.fwc.sram o
  match page with
  | 0 => ((s.region (decide (0x80000 ≤ i)))[i % 0x80000]?).or (left i)
  | 1 => (left (0x100000 + i)).or
      (if 0xF0000 ≤ i then (s.fwc.eventAt ((i - 0xF0000) / 16)).bind fun e => e.bytes[i % 16]? else none)
  | 2 =>
    let b := s.fwc.boot
    if 0x40000 ≤ i then some 0 else if 0x28000 ≤ i then slot 1 (i - 0x28000)
    else if 0x10000 ≤ i then slot 0 (i - 0x10000) else if 0x8000 ≤ i then s.fwc.refl[i - 0x8000]?
    else some (Config.bootRecByte b.active b.hash b.pending b.commit i)
  | _ => if 0x20000 ≤ i then some 0 else some (Config.bootRom i)

def Block.viewPage (s : Block) : Nat := s.fld F.FWC_DBG_PAGE_page

/-- The SRAM and address behind an offset of the window (Table 19-1). -/
def Block.sramAt (s : Block) (off : Nat) : Option (Nat × Nat) :=
  if 0x600000 ≤ off ∧ off < 0x800000 then some (5, off - 0x600000)
  else if 0x800000 ≤ off ∧ off < 0x900000 then
    match s.viewPage with
    | 0 => some (0, off - 0x800000)
    | 1 => some (0, off - 0x700000)
    | 2 => if off < 0x840000 then some (1, off - 0x800000) else none
    | _ => none
  else none

/-! ## Reads -/

/-- A word of the window and the free values it took; a reserved offset reads zero (R25). -/
def Block.word (s : Block) (off : Nat) : Nat × Block :=
  if off < 0x600000 then
    match findReg off with
    | some h => let v := s.regView h.off; (if h.high then v / 2 ^ 32 else v % 2 ^ 32, s)
    | none => (0, s)
  else if off < 0x800000 then s.fill ((List.range 4).map fun i => s.stageByte (off - 0x600000 + i))
  else if off < 0x900000 then s.fill ((List.range 4).map fun i => s.viewByte s.viewPage (off - 0x800000 + i))
  else (0, s)

/-- The value a read returned. -/
def Block.setRdata (s : Block) (req v : Nat) : Block :=
  { s with hiu := { s.hiu with rdata := Tab.set zeroN s.hiu.rdata req v } }

/-- The latch and the held word of a requester (R23, R24); P6 has its own.
Marks: DESIGN CHOICE, log entry 115. -/
def Block.latchOf (s : Block) (req : Nat) : Option (Nat × Nat) := Tab.get (fun _ => none) s.hiu.latch req
def Block.setLatch (s : Block) (req : Nat) (v : Option (Nat × Nat)) : Block :=
  { s with hiu := { s.hiu with latch := Tab.set (fun _ => none) s.hiu.latch req v } }
def Block.heldOf (s : Block) (req : Nat) : Option (Nat × Nat) := Tab.get (fun _ => none) s.hiu.held req
def Block.setHeld (s : Block) (req : Nat) (v : Option (Nat × Nat)) : Block :=
  { s with hiu := { s.hiu with held := Tab.set (fun _ => none) s.hiu.held req v } }

/-- A 32-bit read: the low word of a 64-bit register latches the high word, and the next read of the high word takes it
(R23). -/
def Block.read32 (s : Block) (req off : Nat) : Nat × Block :=
  match findReg off with
  | some h =>
    if off < 0x600000 ∧ h.row.wide then
      if h.high then
        match s.latchOf req with
        | some (o, v) => if o = h.off then (v, s.setLatch req none) else s.word off
        | none => s.word off
      else
        let v := s.regView h.off
        (v % 2 ^ 32, s.setLatch req (some (h.off, v / 2 ^ 32)))
    else s.word off
  | none => s.word off

/-- A 64-bit read: a 64-bit register at once, or two words without the latch (R826). -/
def Block.read64 (s : Block) (off : Nat) : Nat × Block :=
  match findReg off with
  | some h =>
    if off < 0x600000 ∧ h.row.wide then (s.regView off, s)
    else
      let (a, s) := s.word off
      let (b, s) := s.word (off + 4)
      (a + b * 2 ^ 32, s)
  | none =>
    let (a, s) := s.word off
    let (b, s) := s.word (off + 4)
    (a + b * 2 ^ 32, s)

/-- An aligned read of the window, with the value in `rdata`. -/
def Block.readWindow (s : Block) (req off : Nat) (wide : Bool) : Nat × Block :=
  let r := if wide then s.read64 off else s.read32 req off
  (r.1, r.2.setRdata req r.1)

/-! ## Errors (R22, R59, R584, R806, Table 19-2) -/

/-- Register accesses are accepted: step 4 of Table 18-5 has passed, and the groups are out of reset.
Marks: DEDUCED, log entry 82. -/
def Block.accepts (s : Block) : Bool := s.flag F.BTC_STATUS_bist_done && !s.rst.groups

/-- The die whose Relay carries accesses to an offset of the VRC region.
Marks: DEDUCED, log entry 83. -/
def vrcDie (off : Nat) : Option Nat :=
  if 0x500000 ≤ off ∧ off < 0x501200 then some (dieOfDom ((off - 0x500000) / 0x40))
  else if 0x520000 ≤ off ∧ off < 0x520F00 then some (dieOfDom (domOfPhase ((off - 0x520000) / 0x10)))
  else if 0x5F0000 ≤ off ∧ off < 0x5F0100 then some ((off - 0x5F0000) / 0x40)
  else none

/-- The die whose Relay carries accesses to an offset: a Post's, a Silo slice's or core domain's (R345), a regulator's. -/
def viaDie (off : Nat) : Option Nat :=
  if 0x100000 ≤ off ∧ off < 0x500000 then some (dieOfTile ((off - 0x100000) / 0x1000))
  else if 0xAC00 ≤ off ∧ off < 0xAC10 then some ((off - 0xAC00) / 4)
  else if 0xAC40 ≤ off ∧ off < 0xAD40 then some ((off - 0xAC40) / 64)
  else if 0xAD40 ≤ off ∧ off < 0xAE40 then some ((off - 0xAD40) / 64)
  else if 0xB000 ≤ off ∧ off < 0xB400 then some ((off - 0xB000) / 0x100)
  else vrcDie off

/-- The Post or Relay behind an offset cannot be reached (R59, R345).
Marks: DEDUCED, log entry 83. -/
def Block.unreachable (s : Block) (off : Nat) : Bool :=
  match viaDie off with
  | none => false
  | some d => !s.flag (F.HUB_SB_STATUS_link_up d) || (decide (0x100000 ≤ off ∧ off < 0x500000) &&
      (!(s.post ((off - 0x100000) / 0x1000)).powered || (s.tile ((off - 0x100000) / 0x1000)).isolated))

/-- The kind of error of an aligned access (Table 22-2), if it meets one.
Marks: DEDUCED, log entry 87. -/
def Block.wordFault (s : Block) (off : Nat) (write wide : Bool) : Option Nat :=
  if s.unreachable off then some 2
  else if 0x800000 ≤ off ∧ off < 0x900000 ∧ !s.access 4 then if write then none else some 3
  else match s.sramAt off with
    | some (m, a) =>
      if (s.badWord m a).isSome && (!write || (!wide && decide (0x800000 ≤ off) && decide (m = 0))) then some 1 else none
    | none => none

/-- Marks: DEDUCED, log entry 87. -/
def Block.accessFault (s : Block) (off : Nat) (write wide : Bool) : Option Nat :=
  (s.wordFault off write wide).or (if wide then s.wordFault (off + 4) write wide else none)

/-- Record an access error of a port: 0 P0, 1 P4, 2 P6 (R806); firmware is none.
Marks: DEDUCED, log entries 82, 87 and 102. -/
def Block.accessError (s : Block) (port kind off : Nat) (write : Bool) (syn : Nat) : Block :=
  let s := if kind = 1 then
      match s.sramAt off with
      | some (m, a) => s.eccFound m (a / 8 * 8) syn 0
      | none => s
    else s
  if 3 ≤ port then s else
  let w := packBits [(30, 2, port), (28, 2, kind), (27, 1, b2n write), (0, 24, off)]
  let s := (s.setReg 0x17000 (BitVec.ofNat 64 w)).incSat F.HIU_ACC_COUNT_count
  (s.setFld F.HIU_ACC_FT_ft s.now).raise 17 0 0

/-- A read of a word in which one bit was flipped corrects it (R750). -/
def Block.readWeak (s : Block) (off syn : Nat) : Block :=
  match s.sramAt off with
  | some (m, a) => if s.btc.weak.contains (m, a / 8 * 8) then s.eccCorrected m (a / 8 * 8) syn 0 else s
  | none => s

/-- A read as a port carries it out: the kind of its error, or its value. -/
def Block.portRead (s : Block) (req off : Nat) (wide : Bool) (syn : Nat) : Except Nat Nat × Block :=
  match s.accessFault off false wide with
  | some k => (.error k, s.accessError req k off false syn)
  | none => let r := s.readWindow req off wide; (.ok r.1, r.2.readWeak off syn)

/-- The flits of an access to one register: the access goes down on VC2, and on PN3 to a Post, and the data of a read comes
back (R66, R143, R345). `none`: they cannot go now, and the access has not taken place.
Marks: DESIGN CHOICE, log entry 9. -/
def Block.carryWord (s : Block) (off : Nat) (write : Bool) (v : Nat) : Option Block :=
  let f (kind : Nat) : Nat × DWord := (Config.flitType kind, Config.flitBody kind off v)
  match viaDie off with
  | none => some s
  | some d =>
    let toPost := decide (0x100000 ≤ off ∧ off < 0x500000)
    let t := (off - 0x100000) / 0x1000
    (s.sendDown d [f 2]).bind fun s =>
    (if toPost then s.postDownFlit t 3 (f 2).1 (f 2).2 else some s).bind fun s =>
    if write then some s
    else (if toPost then s.postUpFlit t 3 (f 3).1 (f 3).2 else some s).bind fun s =>
      ((s.vc0First d).sbUp d 2 (f 3).1 (if toPost then t else srcRelay d) (f 3).2).map (·.2)

/-- The flits of an access; one that fails sends none. -/
def Block.carry (s : Block) (off : Nat) (write wide : Bool) (v : Nat) : Option Block :=
  if (s.accessFault off write wide).isSome then some s
  else if wide ∧ (findReg off).all (fun h => !h.row.wide) then
    (s.carryWord off write (v % 2 ^ 32)).bind fun s => s.carryWord (off + 4) write (v / 2 ^ 32)
  else s.carryWord off write v

/-- A read as a port carries it out, with its flits. -/
def Block.busRead (s : Block) (req off : Nat) (wide : Bool) (syn : Nat) : Option (Except Nat Nat × Block) :=
  (s.carry off false wide (s.readWindow req off wide).1).map fun s => s.portRead req off wide syn

/-- A read that reaches a running Post samples its counters: `act` is what the Post has met since the last capture
(R113). -/
def Block.sampleFor (s : Block) (off : Nat) (act : Activity) : Block :=
  let t := (off - 0x100000) / 0x1000
  if 0x100000 ≤ off ∧ off < 0x500000 ∧ (s.post t).runs ∧ !s.frozen ∧ !s.unreachable off then s.countPost t act else s

/-- A 32-bit read of the low word of a 64-bit register over P0, P4 or P6 (R23). -/
def execLowWordRead (port : Fin 3) (off : Fin 16777216) (edge : ReadEdge) (s : State) :
    Host.Outcome State Fault Refusal :=
  s.live fun s =>
    let s := s.advance edge.now
    let o := off.val
    s.when (s.accepts && o % 4 == 0 && (findReg o).any fun h => h.row.wide && !h.high) fun s =>
      (((s.sampleFor o edge.act).busRead port.val o false 0).map (·.2)).getD s

/-- An access over P0, P4 or P6 that may fail: `len` bytes, `full` when every byte enable is set, `syn` the syndrome of
a word it finds uncorrectable. One that meets no error is no error's business. -/
def execAccessError (port : Fin 3) (off : Fin 16777216) (write : Bool) (len : Nat) (full : Bool) (syn : Byte) (now : Ft)
    (s : State) : Host.Outcome State Fault Refusal :=
  s.on fun s =>
    let s := s.advance now
    let o := off.val
    s.when s.accepts fun s =>
      if !full ∨ (len ≠ 4 ∧ len ≠ 8) ∨ o % len ≠ 0 then s.accessError port.val 0 o write syn.toNat
      else match s.accessFault o write (len == 8) with
        | some k => s.accessError port.val k o write syn.toNat
        | none => s

end Sys2Proof.Machine
end

