-- ==== Sys2Proof/Machine/Access.lean ====
section
/-! DEFINITION. Writes of the QV window: which fields a requester writes, what value they take, and what a write starts
(00_scope.md R12, R21-R30, R826, R827; the register chapters). -/
namespace Sys2Proof.Machine
open Sys2Proof

/-! ## Which fields take a write -/

/-- A requester: 0 host software, 1 the management port, 2 the TAP, which has host software's rules, 3 firmware. -/
def isHost (req : Nat) : Bool := req == 0 || req == 2

/-- The management slots of the request registers (R267, R813). -/
def mgmtSlot (off : Nat) : Bool :=
  [0x9048, 0x9058, 0x9068, 0x9078, 0x90A0, 0x90A4, 0x90A8].contains off

/-- A field accepts writes from a requester (R827, R813). -/
def Block.takes (s : Block) (req off : Nat) (w : Wr) : Bool :=
  match w with
  | .none => false
  | .fw => req == 3 || (req == 1 && mgmtSlot off)
  | .host => isHost req
  | .fwHost => req == 3 || isHost req
  | .mgmt => req == 1
  | .fwMgmt => req == 3 || req == 1
  | .hostMgmt => isHost req || req == 1
  | .all => true
  | .romWait => isHost req && s.flag F.FWC_STATUS_rom_wait
  | .debug => isHost req && s.access 4

/-- A locked RWL field (R28, R585, R123). -/
def Block.locked (s : Block) (off : Nat) : Bool :=
  if off = 0x14000 ∨ off = 0x14008 then s.flag F.HIU_CTRL_region_lock else bit (s.reg off).toNat 31

/-- A write sets the lock of POST_DIG_CFG: the fields under it ignore the same write (Table 00-7). -/
def locks (off v : Nat) : Bool := decide (0x100000 ≤ off) && bit v 31

/-- The value a field takes under its range (R12, R26). -/
def Lim.limit (l : Lim) (width old new : Nat) : Nat :=
  match l with
  | .any => new
  | .u lo hi => clampN lo hi new
  | .s lo hi => ofSigned width (clampI lo hi (toSigned width new))
  | .resv top => if top < new then old else new

/-- Ranges that depend on more than the field: request slots (Table 06-2, Table 06-4), budget records (Table 06-9), and
multiples. -/
def Block.limitReg (s : Block) (off lo v : Nat) : Nat :=
  if 0x9040 ≤ off ∧ off < 0x904C then clampN 1600 (s.limTop 0) v
  else if 0x9050 ≤ off ∧ off < 0x9080 then clampN 300000 (s.limTop ((off - 0x9040) / 0x10)) v
  else if 0x9084 ≤ off ∧ off < 0x90A8 ∧ off % 0x10 = 4 ∧ lo = 0 then
    (clampI 1600 (s.fld (F.LFC_CEIL_value 2)) (toSigned 16 v)).toNat
  else if 0xA200 ≤ off ∧ off < 0xA300 then min v (s.fld (F.SILO_CTX_MAX_max_mw ((off - 0xA200) / 4)))
  else if 0xA300 ≤ off ∧ off < 0xA400 then clampN (s.fld (F.SILO_CTX_MIN_min_mw ((off - 0xA300) / 4))) s.cP v
  else if off = 0x3080 then min v 67108856 / 8 * 8
  else if 0x18030 ≤ off ∧ off < 0x18040 then v / 16 * 16
  else if 0x9600 ≤ off ∧ off < 0x9700 then v / 25 * 25
  else v

/-- What a write leaves of a register: its stored bits, the W1C, W1S and WO bits written, and whether it reached a field
at all. `mask` are the bits the access covers. -/
def Block.written (s : Block) (req off : Nat) (row : RegRow) (v mask : Nat) : Nat × Nat × Bool :=
  let old := (s.reg off).toNat
  row.fields.foldl (fun acc (f : FieldRow) =>
    let m := (2 ^ f.width - 1) * 2 ^ f.lo
    if m &&& mask = 0 ∨ !s.takes req off f.wr then acc
    else
      let put : Nat :=
        let cand := getBits ((old &&& (whole - mask)) ||| (v &&& mask)) f.lo f.width
        let lim := s.limitReg off f.lo (f.lim.limit f.width (getBits old f.lo f.width) cand)
        putBits acc.1 f.lo f.width lim
      match f.acc with
      | .rw => (put, acc.2.1, true)
      | .rwl =>
        if s.locked off ∨ (f.lo < 31 ∧ locks off (v &&& mask)) then acc else (put, acc.2.1, true)
      | .w1c | .w1s | .wo => (acc.1, acc.2.1 ||| (v &&& mask &&& m), true)
      | .ro | .ros => acc) (old, 0, false)

/-! ## What a write does -/

/-- Stored bits, with the W1C bits cleared. -/
def Block.store (s : Block) (off new acts : Nat) : Block :=
  s.setReg off (BitVec.ofNat 64 (new &&& (whole - acts % 2 ^ 64)))

/-- Firmware's rank among the masters of a setting (R293). -/
def reqRank (req : Nat) : Nat := rankOf (if req = 1 then 1 else if req = 3 then 2 else 0)

def Block.writeHub (s : Block) (req off raw new acts : Nat) : Block :=
  if off = 0x100 then if bit acts 1 then s.warmStart 2 else if bit acts 0 then s.softReset else s
  else if off = 0x110 then s.writeTarget (reqRank req) (raw % 4)
  else s.store off new acts

/-- A change of the enables or of auto_return may move the reference or the root (R695).
Marks: DEDUCED, log entry 23. -/
def Block.writeCtu (s : Block) (off new acts : Nat) : Block :=
  if off = 0x2100 then
    let s := (s.store off (putBits new 0 2 (getBits (s.reg off).toNat 0 2)) 0).clkEnables (bit new 0) (bit new 1)
    let s := s.preferBetter.returnRoot
    if bit acts 3 then s.retReq else s
  else s.store off new acts

/-- Marks: DEDUCED, log entry 101. -/
def Block.writeFwc (s : Block) (off new acts : Nat) : Block :=
  if off = 0x3064 then s.granaryClr acts
  else if off = 0x308C then if bit acts 0 then s.bootGo else s
  else if off = 0x3100 then
    let s := (s.store off new 0).drainFollow
    let s := s.forAll ((List.range 5).filter fun c => bit acts (8 + c)) fun s c => s.resumeCore c
    s.forAll ((List.range 5).filter fun c => bit acts c) fun s c => s.haltCore c
  else s.store off new acts

def Block.writeWce (s : Block) (off new acts : Nat) : Block :=
  if off = 0x8000 then
    let s := s.store off new 0
    if bit acts 2 then s.reqRestoreAll else s
  else if 0x8500 ≤ off ∧ off < 0x8620 then
    let s := s.store off new 0
    if bit acts 1 then s.reqRestore ((off - 0x8500) / 4) else s
  else s.store off new acts

/-- Orders that a write of LG_CTRL or of the margin settings may not break (R300, R356).
Marks: DEDUCED, log entry 101. -/
def Block.writeLg (s : Block) (off new acts : Nat) : Block :=
  if off = 0x9000 then
    let ok := decide (getBits new 6 5 < getBits new 11 5) && decide (getBits new 11 5 < getBits new 16 8)
    s.store off (if ok then new else putBits new 6 18 (getBits (s.reg off).toNat 6 18)) 0
  else if off = 0x9028 then s.writeAdj (toSigned 32 new) (s.fld F.LG_L5_EXPIRY_tick)
  else if 0x9400 ≤ off ∧ off < 0x9410 then
    let s' := s.store off new 0
    if s'.marginOk then s' else s
  else s.store off new acts

/-- Context 0 takes no write (R348). -/
def Block.writeSilo (s : Block) (off new acts : Nat) : Block :=
  if off = 0xA018 then (s.store off new 0).postPool (s.fld F.SILO_POOL_pool_mw) (new % 2 ^ 32)
  else if off = 0xA100 ∨ off = 0xA200 ∨ off = 0xA300 then s
  else if 0xA100 < off ∧ off < 0xA200 then
    let c := (off - 0xA100) / 4
    let was := s.fld (F.SILO_CTX_CFG_state c)
    let s := s.store off new 0
    -- FREE of a context that is not drained is stored as DRAINING (R341)
    let s := if s.fld (F.SILO_CTX_CFG_state c) = 0 ∧ !s.flag (F.SILO_CTX_STAT_drained c) then
        s.setFld (F.SILO_CTX_CFG_state c) 2 else s
    if s.fld (F.SILO_CTX_CFG_state c) = 2 ∧ was ≠ 2 then s.drainCtx c else s
  else if 0xAC40 ≤ off ∧ off < 0xAD40 then
    let n := (off - 0xAC40) / 4
    let was := s.flag (F.SILO_DOM_LIM_preboost_en n)
    let s := s.store off new acts
    let s := if was && !s.flag (F.SILO_DOM_LIM_preboost_en n) then s.exitAnt n 4 else s
    s.setSdom n { s.sdom n with nextStep := (s.sdom n).nextStep.put (s.fld (F.SILO_DOM_LIM_step_max n)) s.now }
  else s.store off new acts

def Block.writeTme (s : Block) (off new acts : Nat) : Block :=
  if off = 0xC000 then
    let s := s.store off new 0
    if bit acts 1 then s.suspectClr else s
  else if off = 0xC00C then (s.store off new 0).storeAmb (toSigned 16 (getBits new 16 16))
  else if off = 0xC018 then (s.store off new 0).coolUpdate
  else if off = 0xC040 then if bit acts 0 then s.fcCommit else s
  else s.store off new acts

/-- A request of FC_ISO_REQ (R529).
Marks: DEDUCED, log entry 60. -/
def Block.isoRequest (s : Block) (op target : Nat) : Block :=
  match op with
  | 0 => s.reqIsolate (false, min 1023 target)
  | 1 => s.reqIsolate (true, min 63 target)
  | 2 => s.reqReadmitTile (min 1023 target)
  | _ => s.reqReadmitDomain (min 63 target)

def Block.writeFc (s : Block) (off raw new acts : Nat) : Block :=
  if 0x10800 ≤ off then
    let g := (off - 0x10800) / 0x20
    match off % 0x20 with
    | 4 => s.grpClr g acts
    | 8 => s.grpSev g new
    | 0xC => s.grpForce g acts
    | _ => s
  else if off = 0x10008 then (s.store off new 0).showFc
  else if off = 0x1000C then if bit acts 2 then s.alertClr else s
  else if off = 0x10014 then if bit acts 31 then s.firstClr else s
  else if off = 0x10024 then
    let s := s.store off new 0
    if bit acts 0 then s.injGo else s
  else if off = 0x10030 then s.isoRequest (getBits raw 30 2) (getBits raw 0 12)
  else if off = 0x10044 then (s.store off new 0).riskFollow
  else s.store off new acts

/-- A ring's configuration: its size only while it is off, then its enable (R587, R588). -/
def Block.writeRing (s : Block) (r new : Nat) : Block :=
  let on := s.flag (F.HIU_RING_CFG_en r)
  let s := (s.setFld (F.HIU_RING_CFG_irq_vec r) (getBits new 16 5)).setFld (F.HIU_RING_CFG_irq_en r) (getBits new 15 1)
  let s := if on then s else s.setFld (F.HIU_RING_CFG_log2_size r) (getBits new 4 5)
  match on, bit new 0 with
  | false, true => s.ringEnable r
  | true, false => s.ringDisable r
  | _, _ => s

def Block.writeHiu (s : Block) (off raw new acts : Nat) : Block :=
  if off = 0x14010 then s.heartbeat (raw % 2 ^ 32)
  else if 0x16000 ≤ off ∧ off < 0x16218 then s.doorbell ((off - 0x16000) / 4) (raw % 2 ^ 32)
  else if 0x14400 ≤ off ∧ off < 0x154C0 then
    let r := (off - 0x14400) / 0x20
    match off % 0x20 with
    | 0 => if s.flag (F.HIU_RING_CFG_en r) then s else s.store off new 0
    | 8 => s.writeRing r new
    | _ => s.store off new acts
  else s.store off new acts

/-- clr sends CLEAR_FAULTS to a converter (R817). -/
def Block.converterClr (s : Block) (k : Nat) : Block := { s with mpu := { s.mpu with tx := s.mpu.tx ++ [.clearFaults k] } }

def ConvS.reset : ConvS := ⟨none, 0⟩
def Block.conv (s : Block) (k : Nat) : ConvS := Tab.get (fun _ => ConvS.reset) s.mpu.conv k
def Block.setConv (s : Block) (k : Nat) (c : ConvS) : Block :=
  { s with mpu := { s.mpu with conv := Tab.set (fun _ => ConvS.reset) s.mpu.conv k c } }

/-- A converter that becomes enabled is asked for its VOUT_MODE afresh (R817). -/
def Block.writeConvEn (s : Block) (off new : Nat) : Block :=
  let was := s.fld F.MPU_PMB_CFG_conv_en
  let s := s.store off new 0
  s.forAll ((List.range 8).filter fun k => bit new k && !bit was k) fun s k => s.setConv k ConvS.reset

def Block.writeTtuReg (s : Block) (off raw new acts : Nat) : Block :=
  if off = 0x18040 then if s.fld F.TTU_STOP_STATUS_state ≠ 0 then s else s.store off new 0
  else if off = 0x18048 then if bit acts 0 then s.stopArm else s
  else if off = 0x1A500 then s.pageRetire (getBits raw 20 12) (getBits raw 0 9)
  else if off = 0x1C010 then s.writeConvEn off new
  else if 0x1C020 ≤ off ∧ off < 0x1C040 then
    let s := s.store off new 0
    if bit acts 7 then s.converterClr ((off - 0x1C020) / 4) else s
  else s.store off new acts

/-- A second write of 1 to snap_hold neither begins its 1,024 ticks anew nor clears snap_missed (R152).
Marks: DESIGN CHOICE, log entry 116. -/
def Block.writePost (s : Block) (off new acts : Nat) : Block :=
  let t := (off - 0x100000) / 0x1000
  match off % 0x1000 with
  | 0x4 =>
    let was := s.flag (F.POST_CTRL_snap_hold t)
    let s := s.store off new 0
    if s.flag (F.POST_CTRL_snap_hold t) && !was then
      (s.setFld (F.POST_STATUS_snap_missed t) 0).setPost t { s.post t with holdTicks := 0 }
    else s
  | 0x400 => s.storeDigest t new
  | 0x504 =>
    let s := s.store off new (acts &&& 8)
    if bit acts 0 then s.calReq t else s
  | _ => s.store off new acts

/-- A write of en starts or stops a domain (R415, R421); SCRAPPED holds a core domain's en at 0 (R766). -/
def Block.writeEn (s : Block) (d : Nat) (on : Bool) : Block :=
  if s.flag (F.VRC_DOM_CTRL_en d) == on then s
  else if on then if d < 64 ∧ s.lcState = 5 then s else s.setFld (F.VRC_DOM_CTRL_en d) 1
  else s.cmdDisable d

def Block.writeDom (s : Block) (d off new acts : Nat) : Block :=
  match off % 0x40 with
  | 0 =>
    let s := s.store off (putBits new 0 1 (getBits (s.reg off).toNat 0 1)) 0
    let s := s.writeEn d (bit new 0)
    let s := if bit acts 6 then s.coefCommit d else s
    if bit acts 7 then s.failClr d else s
  | 8 => if d < 64 then s else (s.store off new 0).vrcCause d 0 (s.domRate d)
  | 0x14 => s.store off (if getBits new 16 8 < getBits new 24 8 then new
      else putBits new 16 16 (getBits (s.reg off).toNat 16 16)) 0
  | _ => s.store off new acts

def Block.writePhase (s : Block) (p off new acts : Nat) : Block :=
  let was := bit (s.reg off).toNat 0
  let s := s.store off new 0
  let s := if bit new 0 == was then s else s.phaseDisable p (bit new 0)
  if bit acts 1 then s.phaseRestore p else s

def Block.writeVrc (s : Block) (off new acts : Nat) : Block :=
  if off < 0x501200 then s.writeDom ((off - 0x500000) / 0x40) off new acts
  else if off < 0x520F00 ∧ off % 0x10 = 0 then s.writePhase ((off - 0x520000) / 0x10) off new acts
  else
    let die := (off - 0x5F0000) / 0x40
    let s := s.store off new acts
    -- track_en = 0 keeps the DCO out of RELOCK and TRACK
    if off % 0x40 = 0 ∧ !bit new 16 ∧ (s.fld (F.VRC_SLICE_SYNC_sync_state die) = 0 ∨ s.fld (F.VRC_SLICE_SYNC_sync_state die) = 3)
    then s.setSync die 1 else s

/-- A write that has reached a field of a register takes effect. -/
def Block.applyWrite (s : Block) (req off raw new acts : Nat) : Block :=
  if off < 0x2000 then s.writeHub req off raw new acts
  else if off < 0x3000 then s.writeCtu off new acts
  else if off < 0x4000 then s.writeFwc off new acts
  else if off < 0x8000 then s.store off new acts
  else if off < 0x9000 then s.writeWce off new acts
  else if off < 0xA000 then s.writeLg off new acts
  else if off < 0xC000 then s.writeSilo off new acts
  else if off < 0xF000 then s.writeTme off new acts
  else if off < 0x10000 then s.store off new acts
  else if off < 0x12000 then s.writeFc off raw new acts
  else if off < 0x18000 then s.writeHiu off raw new acts
  else if off < 0x100000 then s.writeTtuReg off raw new acts
  else if off < 0x500000 then s.writePost off new acts
  else s.writeVrc off new acts

/-! ## Firmware's own policy (R293, R294) -/

/-- The bits that a write changes within a mask. -/
def changes (old new mask : Nat) : Bool := old &&& mask != new &&& mask

/-- The settings of one register among a list of parameters. -/
def paramKeys (code off : Nat) (l : List Nat) : List (Nat × Nat) :=
  ((l.zipIdx).filter (·.1 == off)).map fun x => (code, x.2)

/-- The single-valued settings that a register holds: their keys and the boundary at which a write takes effect, by number
and FT.
Marks: DESIGN CHOICE, log entry 40. -/
def Block.settingsOf (s : Block) (off : Nat) : List (Nat × Nat) × Nat × Nat :=
  let ep := s.time.epoch + 1
  let atEp (l : List (Nat × Nat)) : List (Nat × Nat) × Nat × Nat := (l, ep, ep * 16384)
  let tk := s.tick + 1
  if off = 0xC00C then ([(0x22, 0)], s.time.step + 1, (s.time.step + 1) * 131072)
  else if 0x9600 ≤ off ∧ off < 0x9700 then atEp [(0x100, (off - 0x9600) / 4)]
  else if 0x9400 ≤ off ∧ off < 0x9410 then atEp (paramKeys 0x101 off (marginParams.map (·.1.off)))
  else if off = 0x8004 then (paramKeys 0x102 off (winnowParams.map (·.1.off)), s.nextCycle0, s.nextCycle0 * 1024)
  else if off = 0x8008 then
    (paramKeys 0x102 off (winnowParams.map (·.1.off)), s.nextPublication, s.nextPublication * 1024)
  else if 0xA104 ≤ off ∧ off < 0xA400 then
    ([(0x23, (off - 0xA100) / 4 % 64)], s.ctxEpoch, s.ctxEpoch * 16384)
  else if 0x18010 ≤ off ∧ off < 0x18030 then atEp [(0x24, (off - 0x18010) / 8)]
  else if 0x18030 ≤ off ∧ off < 0x18040 then atEp [(0x24, (off - 0x18030) / 4)]
  else ([], tk, tk * 1024)

/-- The field of a single-valued setting that is one of a list of parameters. -/
def keyField (q : Nat × Nat) : Option Fld :=
  if q.1 = 0x101 then (marginParams.map (·.1))[q.2]? else if q.1 = 0x102 then (winnowParams.map (·.1))[q.2]? else none

/-- A write that carries out no packet is a request of its master's rank: it loses to a higher master's that stands for the
same boundary, field by field, and the loss is recorded. DRAINING and FREE of a context are no part of its budget record.
Marks: DESIGN CHOICE, log entry 40. -/
def Block.policyWrite (s : Block) (req off raw new acts : Nat) : Block :=
  let old := (s.reg off).toNat
  let rank := reqRank req
  if 0x9500 ≤ off ∧ off < 0x9600 then (s.modeRequest rank ((off - 0x9500) / 4) (new % 4)).2
  else if off = 0xC018 then (s.coolOverride rank (getBits new 24 2)).2
  else
    let x := s.settingsOf off
    if x.1.isEmpty ∨ (off < 0xA200 ∧ 0xA100 ≤ off ∧ !changes old new 0x1FFF) then s.applyWrite req off raw new acts
    else
      let part (q : Nat × Nat) (w : Nat) : Nat := match keyField q with | some f => getBits w f.lo f.width | none => w % 2 ^ 32
      let asks := (x.1.map fun q => (q, part q old, part q new)).filter fun a => (keyField a.1).isNone || a.2.1 != a.2.2
      let r := s.contendAll asks rank x.2.1 x.2.2 fun _ => false
      let s := r.2
      let lost := (asks.map (·.1)).filter fun q => !r.1.contains q
      if lost.isEmpty then s.applyWrite req off raw new acts
      else if 0xA100 ≤ off ∧ off < 0xA200 then s.applyWrite req off raw (putBits new 0 16 (old % 65536)) acts
      else if lost.any fun q => (keyField q).isNone then s
      else
        let new := lost.foldl (fun w q => match keyField q with
          | some f => putBits w f.lo f.width (getBits old f.lo f.width)
          | none => w) new
        s.applyWrite req off raw new acts

/-- A write of the bits `mask` of the register at `off`. -/
def Block.writeReg (s : Block) (req off : Nat) (row : RegRow) (v mask : Nat) : Block :=
  let (new, acts, any) := s.written req off row v mask
  if !any then s
  else if req = 3 ∨ off = 0xC00C then s.policyWrite req off v new acts
  else s.applyWrite req off v new acts

/-! ## The SRAM view (R584) -/

/-- One byte of the shared SRAM, by its offset. -/
def Block.putSram (s : Block) (o : Nat) (x : Byte) : Block :=
  let b := decide (0x80000 ≤ o)
  if o < 0x100000 ∧ o % 0x80000 < (s.region b).length then
    { s with fwc := if b then { s.fwc with imgB := s.fwc.imgB.set (o % 0x80000) x }
                    else { s.fwc with imgA := s.fwc.imgA.set o x } }
  else { s with fwc := { s.fwc with sram := Tab.set (fun _ => none) s.fwc.sram o (some x) } }

/-- Bytes written through the view reach the shared SRAM; pages 2 and 3 take none. A full word clears an uncorrectable
error, and an injection that waits flips bits of what is written (R584, R752, Table 12-6).
Marks: DESIGN CHOICE, log entry 84. -/
def Block.writeView (s : Block) (off : Nat) (bytes : List Byte) : Block :=
  let o := off - 0x800000 + 0x100000 * s.viewPage
  s.when (s.access 4 && decide (s.viewPage < 2)) fun s =>
    let s := s.forAll bytes.zipIdx fun s x => s.putSram (o + x.2) x.1
    let s := if bytes.length = 8 then s.wordWritten 0 o else s
    s.eccWrite 0 o

/-! ## Accesses -/

/-- Some field of a register takes writes: it is no RO register (R24). -/
def RegRow.writable (r : RegRow) : Bool := r.fields.any fun f => f.acc != .ro && f.acc != .ros

/-- A 32-bit write: the low word of a 64-bit register is held, and the high word takes it along (R24). A high word whose
requester holds the low word of another register takes effect alone, and the hold stays.
Marks: DESIGN CHOICE, log entry 115. -/
def Block.write32 (s : Block) (req off v : Nat) : Block :=
  if 0x800000 ≤ off ∧ off < 0x900000 then s.writeView off (leBytes 4 v)
  else match findReg off with
    | none => s
    | some h =>
      if !h.row.wide then s.writeReg req off h.row v (2 ^ 32 - 1)
      else if !h.high then (if h.row.writable then s.setHeld req (some (off, v % 2 ^ 32)) else s)
      else
        match s.heldOf req with
        | some (o, lo) =>
          if o = h.off then (s.setHeld req none).writeReg req h.off h.row (lo + v * 2 ^ 32) whole
          else s.writeReg req h.off h.row (v * 2 ^ 32) (whole - (2 ^ 32 - 1))
        | none => s.writeReg req h.off h.row (v * 2 ^ 32) (whole - (2 ^ 32 - 1))

/-- One word of a 64-bit write to two registers: neither word uses the hold (R826). -/
def Block.writeHalf (s : Block) (req off v : Nat) : Block :=
  match findReg off with
  | some h => if h.row.wide then s else s.writeReg req off h.row v (2 ^ 32 - 1)
  | none => s

def Block.write64 (s : Block) (req off v : Nat) : Block :=
  if 0x800000 ≤ off ∧ off < 0x900000 then s.writeView off (leBytes 8 v)
  else
    let two (s : Block) : Block :=
      let s := if s.unreachable off then s else s.writeHalf req off (v % 2 ^ 32)
      if s.unreachable (off + 4) then s else s.writeHalf req (off + 4) (v / 2 ^ 32)
    match findReg off with
    | some h => if h.row.wide then s.writeReg req off h.row v whole else two s
    | none => two s

/-- An aligned write of the window by a port or by firmware. -/
def Block.writeWindow (s : Block) (req off : Nat) (wide : Bool) (v : Nat) : Block :=
  if wide then s.write64 req off v else s.write32 req off v

/-- A write as a port carries it out: the kind of its error, if it fails. -/
def Block.portWrite (s : Block) (req off : Nat) (wide : Bool) (v syn : Nat) : Option Nat × Block :=
  match s.accessFault off true wide with
  | some k => (some k, s.accessError req k off true syn)
  | none => (none, s.writeWindow req off wide v)

/-- A write as a port carries it out, with its flits. -/
def Block.busWrite (s : Block) (req off : Nat) (wide : Bool) (v syn : Nat) : Option (Option Nat × Block) :=
  (s.carry off true wide v).map fun s => s.portWrite req off wide v syn

/-- A write may come: the block accepts accesses, and firmware makes none while its cores are parked (R568). -/
def Block.takesWrite (s : Block) (req : Nat) : Bool := s.accepts && !(req == 3 && decide (4 ≤ s.updState))

/-- A 32-bit write of the low word of a 64-bit register. -/
def execLowWordWrite (req : Fin 4) (off : Fin 16777216) (value : Word) (now : Ft) (s : State) :
    Host.Outcome State Fault Refusal :=
  s.on fun s =>
    let s := s.advance now
    let o := off.val
    s.when (s.takesWrite req.val && o % 4 == 0 && (findReg o).any fun h => h.row.wide && !h.high) fun s =>
      ((s.busWrite req.val o false value.toNat 0).map (·.2)).getD s

/-- A 32-bit write of the high word of a 64-bit register. -/
def execHighWordWrite (req : Fin 4) (off : Fin 16777216) (value : Word) (now : Ft) (s : State) :
    Host.Outcome State Fault Refusal :=
  s.on fun s =>
    let s := s.advance now
    let o := off.val
    s.when (s.takesWrite req.val && o % 4 == 0 && (findReg o).any fun h => h.row.wide && h.high) fun s =>
      ((s.busWrite req.val o false value.toNat 0).map (·.2)).getD s

/-- An aligned write of 4 or 8 bytes by host software, the management port, the TAP or firmware. -/
def execRegisterWrite (req : Fin 4) (off : Fin 16777216) (wide : Bool) (value : DWord) (now : Ft) (s : State) :
    Host.Outcome State Fault Refusal :=
  s.on fun s =>
    let s := s.advance now
    let o := off.val
    s.when (s.takesWrite req.val && o % (if wide then 8 else 4) == 0) fun s =>
      ((s.busWrite req.val o wide value.toNat 0).map (·.2)).getD s

end Sys2Proof.Machine
end

