-- ==== Sys2Proof/Machine/Mgmt.lean ====
section
/-! DEFINITION. The management port: SMBus, MCTP control messages, vendor messages and board converters
(22_port_signals_and_register_map.md R809-R819). -/
namespace Sys2Proof.Machine
open Sys2Proof

/-- A command of the management port: its unit works once register accesses are accepted (Table 18-5).
Marks: DEDUCED, log entry 82. -/
def State.mgmt (s : State) (now : Ft) (f : Block → Block) : Host.Outcome State Fault Refusal :=
  s.on fun s => (s.advance now).when s.accepts f

/-! ## SMBus (R809, R810) -/

/-- The Alert Response Address is answered while alert_pend holds SMB_ALERT_N (R516). -/
def execAlertResponse (now : Ft) (s : State) : Host.Outcome State Fault Refusal :=
  s.mgmt now fun s =>
    s.when (s.flag F.MPU_SMB_CFG_ara_en && s.flag F.FC_SUMMARY_alert_pend) fun s =>
      s.send (.ara (s.fld F.MPU_SMB_CFG_addr))

def execSmbusTimeout (now : Ft) (s : State) : Host.Outcome State Fault Refusal :=
  s.mgmt now fun s => (s.incSat F.MPU_STATUS_timeouts).raise 18 0 0

/-- A write whose PEC fails is NACKed at its PEC byte, one without PEC is discarded: either way nothing of it is taken. -/
def execPecError (now : Ft) (s : State) : Host.Outcome State Fault Refusal :=
  s.mgmt now fun s => (s.incSat F.MPU_STATUS_pec_errors).raise 18 0 0

def Tx.isMsg (t : Tx) : Bool := match t with | .msg _ _ => true | _ => false

/-- The message being sent, the last one, is dropped.
Marks: DEDUCED, log entry 91. -/
def dropLast (l : List Tx) : List Tx := (l.reverse.eraseP Tx.isMsg).reverse

/-- Arbitration is lost in the message the MPU sends; the 16th loss drops it.
Marks: DEDUCED, log entry 91. -/
def Block.arbitrationLost (s : Block) : Block :=
  let s := s.setFld F.MPU_STATUS_arb_lost_seen 1
  if s.mpu.arbLost < 15 then { s with mpu := { s.mpu with arbLost := s.mpu.arbLost + 1 } }
  else ({ s with mpu := { s.mpu with arbLost := 0, tx := dropLast s.mpu.tx } }).raise 18 0 0

def execSmbusArbitrationLost (now : Ft) (s : State) : Host.Outcome State Fault Refusal :=
  s.mgmt now fun s => s.when (s.mpu.tx.any Tx.isMsg) Block.arbitrationLost

/-- A transaction the MPU does not support is NACKed at its command byte: it changes nothing. -/
def execSmbusUnsupportedTransaction (now : Ft) (s : State) : Host.Outcome State Fault Refusal :=
  s.mgmt now fun s => s

/-! ## MCTP control messages (R811; their bytes follow DSP0236) -/

/-- A response to a control request: message type 0, the request's bit cleared, then command, code and data. -/
def Block.mctpAnswer (s : Block) (eid inst : Nat) (cmd code : Nat) (data : List Byte := []) : Block :=
  s.send (.msg eid (u8 0 ++ u8 inst ++ u8 cmd ++ u8 code ++ data))

/-- Set Endpoint ID: operations 0 set and 1 force assign `eid`; 0 and 255 are no endpoint IDs.
Marks: PRESUMED, log entry 89. -/
def execMctpSetEndpointId (src : Byte) (inst : Fin 32) (op : Fin 4) (eid : Byte) (now : Ft) (s : State) :
    Host.Outcome State Fault Refusal :=
  s.mgmt now fun s =>
    let e := eid.toNat
    if 2 ≤ op.val ∨ e = 0 ∨ e = 255 then s.mctpAnswer src.toNat inst.val 1 2
    else
      let s := (s.setFld F.MPU_MCTP_EID_eid e).setFld F.MPU_STATUS_eid_set 1
      s.mctpAnswer src.toNat inst.val 1 0 (u8 0 ++ u8 e ++ u8 0)

def execMctpGetEndpointId (src : Byte) (inst : Fin 32) (now : Ft) (s : State) : Host.Outcome State Fault Refusal :=
  s.mgmt now fun s => s.mctpAnswer src.toNat inst.val 2 0 (u8 (s.fld F.MPU_MCTP_EID_eid) ++ u8 0 ++ u8 0)

/-- Version 1.3 of the base specification, for the base, control messages and vendor messages; code 0x80 elsewhere.
Marks: PRESUMED, log entry 89. -/
def execMctpGetVersionSupport (src : Byte) (inst : Fin 32) (type : Byte) (now : Ft) (s : State) :
    Host.Outcome State Fault Refusal :=
  s.mgmt now fun s =>
    if [0, 0x7F, 0xFF].contains type.toNat then
      s.mctpAnswer src.toNat inst.val 4 0 (u8 1 ++ u8 0xF1 ++ u8 0xF3 ++ u8 0xF0 ++ u8 0)
    else s.mctpAnswer src.toNat inst.val 4 0x80

def execMctpGetMessageTypeSupport (src : Byte) (inst : Fin 32) (now : Ft) (s : State) :
    Host.Outcome State Fault Refusal :=
  s.mgmt now fun s => s.mctpAnswer src.toNat inst.val 5 0 (u8 1 ++ u8 0x7F)

/-- The enterprise number as a message carries it: most significant byte first.
Marks: PRESUMED, log entry 89. -/
def Block.enterprise (s : Block) : List Byte := (u32 (s.fld F.MPU_MCTP_VENDOR_enterprise)).reverse

/-- One entry, selector 0: an IANA enterprise number, and a vendor command set the manual does not number.
Marks: PRESUMED, log entry 89. -/
def execMctpGetVendorSupport (src : Byte) (inst : Fin 32) (selector : Byte) (now : Ft) (s : State) :
    Host.Outcome State Fault Refusal :=
  s.mgmt now fun s =>
    if selector.toNat ≠ 0 then s.mctpAnswer src.toNat inst.val 6 2
    else
      let (set, s) := s.freeBytes 2
      s.mctpAnswer src.toNat inst.val 6 0 (u8 0xFF ++ u8 1 ++ s.enterprise ++ set)

/-- Control commands that the MPU serves. -/
def mctpServed : List Nat := [1, 2, 4, 5, 6]

/-- Marks: PRESUMED, log entry 89. -/
def execMctpUnsupportedCommand (src : Byte) (inst : Fin 32) (command : Byte) (now : Ft) (s : State) :
    Host.Outcome State Fault Refusal :=
  s.mgmt now fun s => s.when (!mctpServed.contains command.toNat) fun s =>
    s.mctpAnswer src.toNat inst.val command.toNat 5

/-! ## Vendor messages (R812-R816) -/

/-- Until an endpoint ID is set, only control messages are answered. -/
def Block.eidSet (s : Block) : Bool := s.flag F.MPU_STATUS_eid_set

/-- Marks: DESIGN CHOICE, log entry 90. -/
def Block.vendorAnswer (s : Block) (eid cmd seq cc : Nat) (data : List Byte := []) : Block :=
  s.send (.msg eid (s.vendorMsg cmd seq cc data))

/-- Codes of Table 22-5 for the kinds of access error. -/
def codeOf (kind : Nat) : Nat := match kind with | 1 => 2 | 2 => 3 | _ => 1

/-- Width, offset and alignment of an access over P4 or P6. -/
def accessShape (off width : Nat) : Bool :=
  (width == 4 || width == 8) && decide (off < 16777216) && off % width == 0

/-- A control packet in a message: 64 bytes and up to 4,096 bytes of payload; at most 4 outstanding per endpoint. -/
def Block.vendorPacket (s : Block) (eid seq : Nat) (entry payload : List Byte) : Block :=
  if entry.length ≠ 64 ∨ 4096 < payload.length then s.vendorAnswer eid 1 seq 6
  else if 4 ≤ (s.outstandingOf (64 + eid)).length then s.vendorAnswer eid 1 seq 4
  else s.takePacket ⟨64 + eid, entry, 0, some payload, s.now, seq⟩

def execPacket (eid seq : Byte) (entry payload : List Byte) (now : Ft) (s : State) :
    Host.Outcome State Fault Refusal :=
  s.mgmt now fun s => s.when s.eidSet fun s => s.vendorPacket eid.toNat seq.toNat entry payload

/-- A read whose flits cannot go now is answered later, when its command comes again.
Marks: DEDUCED, log entry 93. -/
def Block.vendorRead (s : Block) (eid seq off width syn : Nat) : Block :=
  if accessShape off width then
    match s.busRead 1 off (width == 8) syn with
    | some (.ok v, s) => s.vendorAnswer eid 2 seq 0 (leBytes width v)
    | some (.error k, s) => s.vendorAnswer eid 2 seq (codeOf k)
    | none => s
  else (s.accessError 1 0 (off % 16777216) false 0).vendorAnswer eid 2 seq 1

/-- A register read over P4; a global stop leaves it served (R683).
Marks: DEDUCED, log entry 68. -/
def execRegRead (eid seq : Byte) (off : Word) (width syn : Byte) (edge : ReadEdge) (s : State) :
    Host.Outcome State Fault Refusal :=
  s.live fun s =>
    let s := s.advance edge.now
    s.when (s.accepts && s.eidSet) fun s =>
      ((s.sampleFor off.toNat edge.act).vendorRead eid.toNat seq.toNat off.toNat width.toNat syn.toNat).settle

def Block.vendorWrite (s : Block) (eid seq off width v : Nat) : Block :=
  if accessShape off width then
    match s.busWrite 1 off (width == 8) v 0 with
    | some (none, s) => s.vendorAnswer eid 3 seq 0
    | some (some k, s) => s.vendorAnswer eid 3 seq (codeOf k)
    | none => s
  else (s.accessError 1 0 (off % 16777216) true 0).vendorAnswer eid 3 seq 1

def execRegWrite (eid seq : Byte) (off : Word) (width : Byte) (value : DWord) (now : Ft) (s : State) :
    Host.Outcome State Fault Refusal :=
  s.mgmt now fun s => s.when s.eidSet fun s =>
    s.vendorWrite eid.toNat seq.toNat off.toNat width.toNat value.toNat

/-- The answer to a BOOT_CHUNK carries the result.
Marks: DEDUCED, log entry 92. -/
def Block.bootAnswer (s : Block) (eid seq cc : Nat) : Block :=
  s.vendorAnswer eid 4 seq cc (u8 (s.fld F.FWC_BOOT_CTRL_result) ++ u8 0 ++ u8 0 ++ u8 0)

/-- The load over P4 ends with result 3. -/
def Block.bootRefuse (s : Block) : Block :=
  let s : Block := { s with fwc := { s.fwc with bootPend := false, bootMgmt := [] } }
  (s.setFld F.MPU_STATUS_boot_busy 0).setFld F.FWC_BOOT_CTRL_result 3

/-- A part of an image (R815): `n` bytes have come so far.
Marks: DEDUCED, log entry 92. -/
def Block.bootChunk (s : Block) (eid seq off : Nat) (last : Bool) (data : List Byte) : Block :=
  let busy := s.flag F.MPU_STATUS_boot_busy
  let n := if busy then s.fwc.bootMgmt.length else 0
  if data.length < 8 ∨ 4096 < data.length ∨ data.length % 8 ≠ 0 then s.vendorAnswer eid 4 seq 6
  else if !s.flag F.FWC_STATUS_rom_wait then s.bootAnswer eid seq 5
  else if s.fwc.bootPend && !busy then s.bootAnswer eid seq 4
  else if off ≠ n ∨ 524288 < n + data.length ∨ s.fwc.bootPend = true then s.bootRefuse.bootAnswer eid seq 5
  else
    let got := (if busy then s.fwc.bootMgmt else []) ++ data
    let s : Block := { s with fwc := { s.fwc with bootMgmt := got, bootPend := last } }
    ((s.setFld F.MPU_STATUS_boot_busy 1).setFld F.FWC_BOOT_CTRL_result 1).bootAnswer eid seq 0

def execBootChunk (eid seq : Byte) (off : Word) (last : Bool) (data : List Byte) (now : Ft) (s : State) :
    Host.Outcome State Fault Refusal :=
  s.mgmt now fun s => s.when s.eidSet fun s => s.bootChunk eid.toNat seq.toNat off.toNat last data

/-- A vendor message with IC = 1, an unknown command or a wrong length. -/
def execMalformedVendorMessage (eid cmd seq : Byte) (now : Ft) (s : State) : Host.Outcome State Fault Refusal :=
  s.mgmt now fun s => s.when s.eidSet fun s => s.vendorAnswer eid.toNat (cmd.toNat % 128) seq.toNat 6

/-! ## Board converters (R817, R818) -/

def Block.convOn (s : Block) (k : Nat) : Bool := bit (s.fld F.MPU_PMB_CFG_conv_en) k

/-- A number `num / den` as a field of 16 bits: exact where it is whole, either neighbour where it is not, and a free
value where the field cannot hold it.
Marks: PRESUMED, log entry 94. -/
def Block.readingOf (s : Block) (num : Int) (den : Nat) : Nat × Block :=
  let q := num / den
  if num % den = 0 ∧ 0 ≤ q ∧ q < 65536 then (q.toNat, s)
  else
    let (v, s) := s.free
    if 0 ≤ q ∧ q < 65535 then (q.toNat + v.toNat % 2, s) else (v.toNat % 65536, s)

/-- y × 2^n × scale as a fraction.
Marks: PRESUMED, log entry 94. -/
def scaled (y n : Int) (scale : Nat) : Int × Nat :=
  if 0 ≤ n then (y * 2 ^ n.toNat * scale, 1) else (y * scale, 2 ^ (-n).toNat)

/-- LINEAR11: a mantissa of 11 bits and an exponent of 5 bits, both signed.
Marks: PRESUMED, log entry 94. -/
def Block.linear11 (s : Block) (w scale : Nat) : Nat × Block :=
  let x := scaled (toSigned 11 (w % 2048)) (toSigned 5 (w / 2048)) scale
  s.readingOf x.1 x.2

/-- LINEAR16: the exponent of VOUT_MODE.
Marks: PRESUMED, log entry 94. -/
def Block.linear16 (s : Block) (w mode scale : Nat) : Nat × Block :=
  let x := scaled w (toSigned 5 (mode % 32)) scale
  s.readingOf x.1 x.2

/-- Bits of STATUS_WORD that make 18.1 active. -/
def convBad (status : Nat) : Bool := [15, 14, 13, 6, 4, 3, 2].any (bit status)

/-- A read of a converter failed. -/
def Block.convFail (s : Block) (k : Nat) : Block :=
  let c := s.conv k
  let s := s.setConv k { c with fails := min 3 (c.fails + 1) }
  if c.fails < 2 then s else (s.setFld (F.MPU_CONV_CFG_no_reply k) 1).raise 18 1 k

/-- A complete poll of a converter, with the VOUT_MODE it answered when it was enabled.
Marks: PRESUMED, log entry 94. -/
def Block.convPoll (s : Block) (k : Nat) (r : ConvRead) : Block :=
  let mode := (s.conv k).mode.getD r.mode.toNat
  let linear := decide (mode < 32)
  let s := s.setConv k ⟨some mode, 0⟩
  let (vin, s) := s.linear11 r.vin.toNat 1000
  let (vout, s) := if linear then s.linear16 r.vout.toNat mode 1000 else (s.fld (F.MPU_CONV_vout k), s)
  let (iout, s) := s.linear11 r.iout.toNat 16
  let s := (s.setFld (F.MPU_CONV_vin k) vin).setFld (F.MPU_CONV_vout k) vout
  let s := (s.setFld (F.MPU_CONV_iout k) iout).setFld (F.MPU_CONV_status_word k) r.status.toNat
  let s := (s.setFld (F.MPU_CONV_CFG_unsupported k) (b2n !linear)).setFld (F.MPU_CONV_CFG_no_reply k) 0
  s.follow 18 1 k (!linear || convBad r.status.toNat)

/-- FT[23:0] = 0: every enabled converter is read; `none` for one whose reads failed. -/
def execPmbusPoll (reads : List (Option ConvRead)) (now : Ft) (s : State) : Host.Outcome State Fault Refusal :=
  s.mgmt now fun s => s.when (s.now % 16777216 == 0) fun s =>
    s.forAll (List.range 8) fun s k =>
      if s.convOn k then match reads.getD k none with
        | some r => s.convPoll k r
        | none => s.convFail k
      else s

/-- PMB_ALERT_N: the STATUS_WORD of every enabled converter; a good reading ends no condition (R818).
Marks: DEDUCED, log entry 95. -/
def execPmbAlert (status : List (Option (BitVec 16))) (now : Ft) (s : State) : Host.Outcome State Fault Refusal :=
  s.mgmt now fun s => s.forAll (List.range 8) fun s k =>
    if s.convOn k then match status.getD k none with
      | some w =>
        let s := (s.setConv k { s.conv k with fails := 0 }).setFld (F.MPU_CONV_status_word k) w.toNat
        if convBad w.toNat then s.raise 18 1 k else s
      | none => s.convFail k
    else s

/-- clr of a converter. -/
def execConverterClr (k : Fin 8) (now : Ft) (s : State) : Host.Outcome State Fault Refusal :=
  s.mgmt now fun s => s.converterClr k.val

end Sys2Proof.Machine
end

