-- ==== Sys2Proof/Machine/Tap.lean ====
section
/-! DEFINITION. The TAP on P6: the mandatory instructions, scan, memory BIST on request, fuse programming, lifecycle
requests and register accesses (22_port_signals_and_register_map.md R821-R823, 19_test_and_memory_protection.md R749,
R759). -/
namespace Sys2Proof.Machine
open Sys2Proof

/-- An instruction is in force, and what its data register captures next. -/
def Block.tap (s : Block) (ir dr : Nat) : Block := { s with mpu := { s.mpu with tapOut := true, tapIr := ir, tapDr := dr } }

/-- IDCODE's value. -/
def Block.idcode (s : Block) : Nat :=
  packBits [(28, 4, 3), (12, 16, 0x5156), (1, 11, s.shadow.maker.toNat), (0, 1, 1)]

/-- Acts as BYPASS, whose bit captures 0. -/
def Block.bypass (s : Block) : Block := s.tap 0xFF 0

/-- A private instruction whose access is closed acts as BYPASS. -/
def Block.closable (s : Block) (acc ir : Nat) (f : Block → Block) : Block :=
  if s.access acc then f (s.tap ir 0) else s.bypass

/-- The result of a private instruction.
Marks: DEDUCED, log entry 97. -/
def Block.tapResult (s : Block) (v : Nat) : Block := { s with mpu := { s.mpu with tapDr := v } }

/-! ## P4 and the boundary register: bits in the order of Table 22-1, SMB_SCL first -/

/-- The levels of the block's own outputs, by bit: SMB_ALERT_N, FAULT_N, THERMTRIP_N, COOL_REQ.
Marks: DEDUCED, log entry 96. -/
def Block.p4Own (s : Block) (k : Nat) : Option Bool :=
  match k with
  | 5 => some !s.flag F.FC_SUMMARY_alert_pend
  | 6 => some !s.flag F.FC_SUMMARY_fault_n
  | 7 => some !s.lg.tripped
  | 8 => some (s.flag F.TME_COOL_cool_req)
  | _ => none

/-- The level at an output: EXTEST drives every one but THERMTRIP_N from the boundary register.
Marks: DEDUCED, log entry 96. -/
def Block.p4Out (s : Block) (k : Nat) : Option Bool :=
  if s.mpu.tapIr = 0 ∧ k ≠ 7 ∧ ((s.p4Own k).isSome ∨ k < 4) then some (bit s.mpu.bsr.toNat k) else s.p4Own k

/-- What SAMPLE captures: the block's own outputs, and the pins.
Marks: DEDUCED, log entry 96. -/
def Block.sample (s : Block) (pins : BitVec 14) : Nat :=
  packBits ((List.range 14).map fun k => (k, 1, b2n ((s.p4Own k).getD (bit pins.toNat k))))

/-! ## Mandatory instructions -/

/-- Test-Logic-Reset selects IDCODE.
Marks: DEDUCED, log entry 98. -/
def execTapReset (s : State) : Host.Outcome State Fault Refusal :=
  s.always fun s => { s with mpu := { s.mpu with tapOut := false, tapIr := 1, tapDr := s.idcode } }

/-- Marks: DEDUCED, log entry 98. -/
def execIdcode (s : State) : Host.Outcome State Fault Refusal := s.always fun s => s.tap 1 s.idcode

/-- Marks: DEDUCED, log entry 98. -/
def execBypass (s : State) : Host.Outcome State Fault Refusal := s.always fun s => s.bypass

/-- `load` is what the boundary register's update stage takes. -/
def Block.bsrShift (s : Block) (ir : Nat) (pins load : BitVec 14) : Block :=
  let s := s.tap ir (s.sample pins)
  { s with mpu := { s.mpu with bsr := load } }

def execSamplePreload (pins load : BitVec 14) (s : State) : Host.Outcome State Fault Refusal :=
  s.always fun s => s.bsrShift 2 pins load

def execExtest (pins load : BitVec 14) (s : State) : Host.Outcome State Fault Refusal :=
  s.always fun s => s.bsrShift 0 pins load

/-! ## Test -/

/-- Every secret is zeroised and read back, then scan is enabled; a read-back that is not zero raises 22.0 (R759).
Marks: DEDUCED, log entry 99. -/
def execScanEnter (readbackZero : Bool) (now : Ft) (s : State) : Host.Outcome State Fault Refusal :=
  s.on fun s => (s.advance now).closable 1 0x10 fun s =>
    if s.scanEn then s
    else if readbackZero then (s.zeroise.setFld F.BTC_STATUS_scan_en 1).showNonce
    else s.raise 22 0 0

/-- Memory BIST on request leaves its result and what its patterns left in the firmware SRAM; the meaning of its result
bit is not stated.
Marks: DEDUCED, log entry 86. -/
def execMbistRun (unrep : BitVec 16) (rows cols : Nat) (now : Ft) (s : State) : Host.Outcome State Fault Refusal :=
  s.on fun s => (s.advance now).closable 2 0x11 fun s =>
    let (a, s) := s.freeBytes s.fwc.imgA.length
    let (b, s) := s.freeBytes s.fwc.imgB.length
    let s : Block := { s with btc := { s.btc with mbist := true } }
    let s : Block := { s with fwc := { s.fwc with imgA := a, imgB := b, sram := [], elog := [] } }
    let s := s.mbistResult unrep.toNat rows cols
    let s := s.forAll (srams.filter fun n => bit (s.fld F.BTC_MBIST_STATUS_mbist_unrep) (unrepBit n)) fun s n => s.raise 23 1 n
    let (v, s) := s.free
    s.tapResult (v.toNat % 2)

/-! ## Fuses and lifecycle (R822) -/

/-- A request's status is its result.
Marks: DEDUCED, log entry 97. -/
def Block.tapStatus (r : Nat × Block) : Block := r.2.tapResult r.1

/-- A repair entry, or a key slot and its hash. -/
def execFuseProgram (entry : Word) (key : Option (BitVec 4 × List Byte)) (now : Ft) (s : State) :
    Host.Outcome State Fault Refusal :=
  s.on fun s => (s.advance now).closable 3 0x12 fun s =>
    Block.tapStatus (match key with
      | some (slot, hash) => s.keyRequest slot.toNat hash
      | none => s.repairRequest entry.toNat)

def execTapCeilingUpdate (c : Byte) (value : Word) (now : Ft) (s : State) : Host.Outcome State Fault Refusal :=
  s.on fun s => (s.advance now).closable 7 0x13 fun s =>
    Block.tapStatus (s.ceilingRequest c.toNat value.toNat requesterP6)

/-- A request of Table 15-18, its operand in byte 7 of the record.
Marks: DEDUCED, log entry 97. -/
def Block.lcRequest (s : Block) (op : Nat) (r : List Byte) : Nat × Block :=
  let x := rdAt r 7 1
  if op < 0xA0 ∨ 0xA3 < op then (stBadOpcode, s)
  else if !lcAccepts s.lcState op then (stLocked, s)
  else match op with
    | 0xA1 => if lcNeedsAuth s.lcState x ∧ !s.supRuns then (stBusy, s) else s.transitionRequest x r requesterP6
    | 0xA2 => if !s.supRuns then (stBusy, s) else s.revokeRequest (x / 16) (x % 16) r requesterP6
    | 0xA3 => s.raiseRequest x requesterP6
    | _ => (stOk, s)

def execLcRequest (op : Byte) (record : List Byte) (now : Ft) (s : State) : Host.Outcome State Fault Refusal :=
  s.on fun s => (s.advance now).closable 0 0x14 fun s => Block.tapStatus (s.lcRequest op.toNat record)

/-! ## Register accesses (R822, R683) -/

/-- The result: the access as it was shifted in, with the data read and the code of Table 22-5.
Marks: DEDUCED, log entry 98. -/
def tapWord (off : Nat) (write wide : Bool) (v code : Nat) : Nat :=
  packBits [(0, 24, off), (24, 1, b2n write), (25, 1, b2n wide), (32, 64, v), (96, 8, code)]

/-- An access whose flits cannot go now answers that its Post or Relay is not reached.
Marks: DEDUCED, log entries 82 and 98. -/
def Block.tapAccess (s : Block) (off : Nat) (write wide : Bool) (v syn : Nat) : Nat × Nat × Block :=
  if !s.accepts then (v, 1, s)
  else if off % (if wide then 8 else 4) ≠ 0 then (v, 1, s.accessError 2 0 off write 0)
  else if write then match s.busWrite 2 off wide v syn with
    | some (none, s) => (v, 0, s)
    | some (some k, s) => (v, codeOf k, s)
    | none => (v, 3, s)
  else match s.busRead 2 off wide syn with
    | some (.ok x, s) => (x, 0, s)
    | some (.error k, s) => (v, codeOf k, s)
    | none => (v, 3, s)

/-- An access with host software's write rules; a global stop leaves it served.
Marks: DEDUCED, log entry 68. -/
def execRegAccess (off : Fin 16777216) (write wide : Bool) (data : DWord) (syn : Byte) (edge : ReadEdge) (s : State) :
    Host.Outcome State Fault Refusal :=
  s.live fun s => ((s.advance edge.now).closable 4 0x15 fun s =>
    let s := if write then s else s.sampleFor off.val edge.act
    let (v, code, s) := s.tapAccess off.val write wide data.toNat syn.toNat
    s.tapResult (tapWord off.val write wide v code)).settle

end Sys2Proof.Machine
end

