-- ==== Sys2Proof/Machine/Boundary.lean ====
section
/-! DEFINITION. The boundaries of ticks, epochs and thermal steps (02_fabric_time_and_ticks.md R88-R100), and what every
unit does at them. -/
namespace Sys2Proof.Machine
open Sys2Proof

/-! ## A tick boundary -/

/-- Another unit of `n` ticks begins with the tick that begins now (R90).
Marks: DEDUCED, log entry 20. -/
def Block.begins (s : Block) (n : Nat) : Bool := s.time.last / n != s.tick / n

/-- An action scheduled for a named tick takes effect (R99). -/
def Block.runAction (s : Block) (a : Sched) : Block :=
  match a with
  | .weights => s.swapWeights
  | .ea => s.swapEa
  | .classes => s.swapClasses
  | .limit n slot v => s.setFld (limSlotF n slot) v
  | .thermal w slot v => s.setFld (thermSlot w slot) v
  | .trace l on => s.traceApply l on
  | .digest l cfg => s.digestApply l cfg

/-- The actions named for this tick, or for one that a step has skipped (R99, R100).
Marks: DEDUCED, log entry 20. -/
def Block.runSched (s : Block) : Block :=
  let due := s.time.sched.filter fun a => decide (a.1 ≤ s.tick)
  let keep := s.time.sched.filter fun a => !decide (a.1 ≤ s.tick)
  let s := { s with time := { s.time with sched := keep } }
  s.forAll due fun s a => s.runAction a.2

/-- A tick ends at the Relay's slot of a tile: a Post with a closed switch is silent for one more tick unless a good
Sheaf came (R500). -/
def Block.silentTick (s : Block) (t : Nat) : Block :=
  let x := s.tile t
  if x.seen then s.setTile t { x with seen := false, silent := 0 }
  else if !(s.post t).open_ then s.setTile t { x with silent := min 64 (x.silent + 1) }
  else if x.silent = 0 then s else s.setTile t { x with silent := 0 }

/-- A tick ends at a chain port: the run of idle ticks goes on while a Post has power, and a stall that has begun ends at a
flit alone (R500). -/
def Block.chainTick (s : Block) (n : Nat) : Block :=
  let c := s.chain n
  if c.live then
    let s := if 16 ≤ c.quiet then s.relayFault (n / 16) 12 1 n true else s
    s.setChain n { s.chain n with live := false, quiet := 0 }
  else
    let on := (tilesOf n).any fun t => (s.post t).powered
    s.setChain n { c with quiet := if on then min 16 (c.quiet + 1) else if c.quiet < 16 then 0 else c.quiet }

/-- The lowest margin to the control point in the risk interval (R534). -/
def Block.riskTick (s : Block) : Block :=
  let l := ((List.range 64).filter fun n => s.fld (F.LG_DOM_STATE_tmax n) != 0x8000).map fun n =>
    s.fldI (F.LG_DOM_STATE_tmax n)
  match l with
  | [] => s
  | x :: xs =>
    let m := (s.fld F.LG_TTHR0_EFF_control : Int) - xs.foldl max x
    { s with fc := { s.fc with riskM := some (match s.fc.riskM with | some v => min v m | none => m) } }

/-- A reading of bonded-memory sensor `k` of die `d`, when it is valid: in range, and its trim is good (R441). -/
def Block.memReading (s : Block) (d k : Nat) (r : Option Int) : Option Int :=
  r.filter fun v => decide (-640 ≤ v ∧ v ≤ 2400) && !s.shadow.trimBad.contains (1024 + 64 * d + k)

/-- The Relays read their bonded-memory sensors and close the tick of their thermal rows (R272-R276). -/
def Block.thermTick (s : Block) (bmem : List (List (Option Int))) : Block :=
  let s := s.forAll (List.range 4) fun s d => s.setRelay d { s.relay d with
    bmem := (bmem.getD d []).zipIdx.map fun x => s.memReading d x.2 x.1 }
  let s := s.forAll (List.range 4) fun s d => s.bmemTick d
  s.forAll (List.range 64) fun s n => s.thermTickDom n

/-- The level-5 cap moves once a tick while it is held (R395). -/
def Block.capTick (s : Block) (n : Nat) : Block :=
  if s.capHeld n && (s.vdom n).lgCap.isSome then s.lowerCap n 0 else s

/-- A re-admission counts the ticks since its restore publication (Table 12-8 step 7). -/
def Block.readmitTick (s : Block) : Block :=
  { s with fc := { s.fc with readmits := s.fc.readmits.map fun r =>
      if r.step = 7 then { r with ticks := min 64 (r.ticks + 1) } else r } }

/-- Deep held at the last try is tried again (R732).
Marks: DEDUCED, log entry 80. -/
def Block.deepRetry (s : Block) : Block :=
  if s.flag F.HUB_PSTATE_STATUS_held ∧ s.fld F.HUB_PSTATE_STATUS_state = 2 then s.actTarget else s

/-- The stacks' power in the tick that ended joins the sums of its thermal step (R451). -/
def Block.sumStacks (s : Block) : Block :=
  let x := s.tme.stkSum
  { s with tme := { s.tme with
    stkSum := ((List.range 24).map fun k => x.1.getD k 0 + (s.stackPower k).1, x.2 + 1) } }

/-- The records of the tick that ended, at its boundary (R394, R500, R534). -/
def Block.tickEnds (s : Block) (bmem : List (List (Option Int))) : Block :=
  let s := ((s.thermTick bmem).riskTick).sumStacks
  let s := s.forAll (s.posts.map (·.1)) fun s t => s.silentTick t
  let s := s.forAll (List.range 64) fun s n => s.chainTick n
  let s := s.forAll (List.range 4) fun s d => s.linkTick d
  let s := s.forAll (List.range 72) fun s d => s.formMeas d (s.tick - 1)
  (((s.telTickEnds (s.tick - 1)).telCapture s.tick).telDeep).vinTick

/-- Two ticks after an epoch the figures of its last tick are evaluated; where they are not, the epoch has no residual
(R190, R204). -/
def Block.residTick (s : Block) : Block :=
  let k := s.tick - 3
  let due := (s.time.last + 14) / 16 != (s.tick + 14) / 16
  if due && !(k % 16 == 15 && (s.ea.staged.map (·.tick) == some k || s.ea.last.map (·.tick) == some k)) then
    s.forAll (List.range 72) Block.noResidual
  else s

/-- The kv and tick order reaches the Posts of a domain (R129). -/
def Block.kvOrder (s : Block) (n : Nat) : Block :=
  let kv := kvOf (s.inForceMv n)
  match s.orderSent n 0 kv with
  | some s => s.forAll (tilesOf n) fun s t => s.postTick t kv
  | none => s.forAll (tilesOf n) fun s t => s.postTick t (s.post t).kv

/-- The CREDIT waits of the offer interval that ends (R487). -/
def Block.countWaits (s : Block) : Block :=
  let n := Tab.get zeroN s.ttu.pkg 14
  { s with lend := { s.lend with waits := n, waitsLast := n - s.lend.waits } }

/-- What takes effect with the tick that begins: named actions, thresholds, ceilings, factors and captures (R99, R269,
R316, R160, R129). -/
def Block.tickBegins (s : Block) : Block :=
  let s := s.forAll (s.posts.map (·.1)) fun s t => s.postEnds t
  let s := (s.runSched.ceilTick).limitTick
  let s := s.forAll (List.range 64) fun s n => s.capTick n
  let s := s.forAll (List.range 64) fun s n => s.scaleDom n (s.inForceMv n) (s.fld (F.LG_MARGIN_FREQ_f_now n))
  let s := s.forAll s.poweredDoms fun s n => s.kvOrder n
  let s := s.residTick.eaCapture.readmitTick.cntPkg 0
  let s := if s.lg.hot then s.cntPkg 7 else s
  let s := if s.begins 16384 then s.fcBoundary else s
  let s := if s.begins 1048576 then s.riskCapture else s
  let s := if s.begins 131072 then s.countWaits else s
  s.lendTake.deepRetry

/-- A tick of a slew takes a ns more or less than its counts (R88).
Marks: DEDUCED, log entry 18. -/
def Block.slewed (s : Block) : Block :=
  let t := s.time.timer
  { s with time := { s.time with timer := match s.time.corr with | .hold => t + 1 | .advance => t - 1 | _ => t } }

/-- The boundary at FT `b` is presented (R89, R96).
Marks: DEDUCED, log entry 19. -/
def Block.presentTick (s : Block) (b : Nat) (bmem : List (List (Option Int))) : Block :=
  let n := s.time.skipped
  let s := ({ s.countTo b with time := { (s.countTo b).time with skipped := 0 } }).strobe.skipAvg n
  let s := { s with time := { s.time with epochEnd := s.begins 16 } }
  let s := (s.tickEnds bmem).tickBegins
  { s with time := { s.time with last := s.tick } }

/-- A step loads FT at a local boundary `b` (R88, R89): the boundary it presents comes with this command only when the
loaded value is one.
Marks: DEDUCED, log entries 18 and 19. -/
def Block.stepLoad (s : Block) (b : Nat) (o : Int) (bmem : List (List (Option Int))) : Block :=
  let ft := ((b : Int) - o).toNat
  let next := (ft + 1023) / 1024 * 1024
  let n := satU 16 (next / 1024 - b / 1024)
  let s := s.countTo b
  let s := { s with time := { s.time with count := BitVec.ofNat 64 ft, corr := .stepped, skipped := n } }
  let s := ((s.incSat F.CTU_FT_STATUS_step_count).setFld F.CTU_FT_STATUS_step_seen 1).raise 13 2 0
  let s := (s.cntPkg 20).timeEntry s.timeState s.timeState 1 o n
  if next = ft then s.presentTick ft bmem else s

/-- A tick boundary: `bmem` is what the bonded-memory sensors of each die read. -/
def Block.tickBoundary (s : Block) (bmem : List (List (Option Int))) : Block :=
  let b := (s.time.count.toNat / 1024 + 1) * 1024
  match s.time.corr with
  | .step o => s.stepLoad b o bmem
  | _ => s.slewed.presentTick b bmem

/-- After the cut of a global stop FT counts on, the LG clears a borrowed budget outside LOCKED (R484), and the trip path of
the bonded memory acts (Table 16-15).
Marks: DEDUCED, log entry 68. -/
def Block.frozenTick (s : Block) (bmem : List (List (Option Int))) : Block :=
  let b := (s.time.count.toNat / 1024 + 1) * 1024
  let s := (s.countTo b).strobe.slewed
  let s := if 0 < s.fldI F.LG_L5_ADJ_adj_mw ∧ s.timeState ≠ 1 then
      { s.setFld F.LG_L5_ADJ_adj_mw 0 with lg := { s.lg with adj := 0 } } else s
  s.forAll (List.range 4) fun s d =>
    let q := s.relay d
    match ((bmem.getD d []).zipIdx.filterMap fun x => s.memReading d x.2 x.1) with
    | [] => s
    | x :: xs =>
      let hot := decide ((s.fld F.LG_TTHR1_EFF_bmem : Int) + 240 ≤ xs.foldl max x)
      let run := if hot then q.bmemTrip + 1 else 0
      let s := s.setRelay d { q with bmemTrip := min 2 run }
      if 2 ≤ run then s.tripNow d true 0 else s

/-- A tick boundary, while boundaries are generated (Table 02-1). -/
def execTickBoundary (bmem : List (List (Option Int))) (s : State) : Host.Outcome State Fault Refusal :=
  s.live fun s => s.when s.time.ticking fun s =>
    if s.frozen then s.frozenTick bmem else (s.tickBoundary bmem).settle

/-! ## An epoch boundary: the Silo (R331, R332, R340-R344) -/

/-- What a slice captures of the epoch for its credit report: the fields of the entries, and the busy tiles of each
context (R332). -/
def Block.reportOf (s : Block) (d : Nat) : List Nat × List Nat × List Nat :=
  let x := s.slice d
  ((List.range 64).map fun c => satU 16 ((x.debited.getD c 0 + 128) / 256),
    (List.range 64).map fun c => satU 10 ((x.waited.getD c 0 + 2048) / 4096),
    (List.range 64).map fun c => s.busyTiles d c)

/-- The credit a delegation leaves (R331); entry 0 is the reserve's. -/
def refillOf (c : Nat) (credit : Int) (deleg : Nat) : Int := min credit (if c = 0 then 0 else deleg) + deleg

/-- A slice at an epoch boundary: report, delegation, credits, status and counts (R331, R332, R343, Table 07-13). -/
def Block.sliceEpoch (s : Block) (d : Nat) : Block :=
  let x := s.slice d
  let got := x.next.isSome
  let deleg := x.next.getD x.deleg
  let was := s.flag (F.SILO_SLICE_STATUS_ration d)
  let (cfg, tiles) := match s.silo.cfgNext, got with
    | some m, true => m
    | _, _ => (x.cfg, x.tiles)
  let s := s.setSlice d { x with
    report := some (s.reportOf d), sent := 0, deleg := deleg, next := none, cfg := cfg, tiles := tiles
    debited := List.replicate 64 0, waited := List.replicate 64 0, counted := [], granted := 0, refused := 0 }
  let s := s.forAll (List.range 64) fun s c => s.setCredit d c (refillOf c (s.credit d c) (deleg.getD c 0))
  let s := (s.setSat (F.SILO_SLICE_STATUS_grants d) x.granted).setSat (F.SILO_SLICE_STATUS_refusals d) x.refused
  let s := s.setFld (F.SILO_SLICE_STATUS_ration d) (b2n !got)
  if got = was then s.relayFault d 20 1 d got else s

/-- The counts of a core domain's part of its slice (Table 07-13). -/
def Block.sdomEpoch (s : Block) (n : Nat) : Block :=
  let x := s.sdom n
  let s := s.setSat (F.SILO_DOM_STAT_grants n) x.grants
  let s := (s.setSat (F.SILO_DOM_STAT_limit_waits n) x.limitWaits).setSat (F.SILO_DOM_STAT_max_slip n) x.maxSlip
  s.setSdom n { x with grants := 0, limitWaits := 0, maxSlip := 0 }

/-- The mode of the epoch that begins (R342, R344).
Marks: DEDUCED, log entry 47. -/
def Block.siloMode (s : Block) (mode : Nat) : Block :=
  let s := s.setFld F.SILO_STATUS_mode mode
  let s := if mode = 1 then (s.incSat F.SILO_STATUS_ration_epochs).cntPkg 8 else s
  s.follow 20 1 4 (mode == 1)

/-- The hub takes what its last division computed: mode, shares, tile map (R337, R340).
Marks: DEDUCED, log entries 46 and 47. -/
def Block.hubEpoch (s : Block) (resumed : Bool) : Block :=
  let ft := s.time.epoch * 16384
  match s.silo.cfgNext with
  | some (cfg, tiles) =>
    let s := { s with silo := { s.silo with tileCtx := tiles } }
    let s := { s with ea := { s.ea with caps := s.ea.caps.map fun (c : EaCap) => if c.tick = s.tick then { c with ctx := tiles } else c } }
    let s := s.forAll ((List.range 63).map (· + 1)) fun s c =>
      if getBits (Tab.get (fun _ => 1) cfg c) 16 2 = 1 then s.setFld (F.SILO_CTX_STAT_drained c) 0 else s
    let s := match s.silo.shares with
      | some l => s.forAll ((List.range 63).map (· + 1)) fun s c => s.setFld (F.SILO_CTX_SHARE_share_mw c) (l.getD c 0)
      | none => s
    (s.setFld F.SILO_LAST_EPOCH_ft ft).siloMode s.silo.nextMode
  | none => if resumed && s.silo.normal then s.siloMode 1 else s

/-- A DRAINING context with no busy tile and no outstanding grant is drained (R341).
Marks: DEDUCED, log entry 48. -/
def Block.drainCheck (s : Block) (cfg : Tab Nat) (c : Nat) : Block :=
  let quiet := (List.range 4).all fun d =>
    s.busyTiles d c == 0 && !((s.slice d).grants.any fun g => g.ctx == c && s.outstanding g)
  if s.fld (F.SILO_CTX_CFG_state c) = 2 ∧ getBits (Tab.get (fun _ => 1) cfg c) 16 2 = 2 ∧ quiet then
    s.setFld (F.SILO_CTX_STAT_drained c) 1
  else s

/-- Core 1 frees a drained context whose CTX_FREE waits (R638).
Marks: DEDUCED, log entry 48. -/
def Block.freeCtx (s : Block) (c : Nat) : Block :=
  let asked := s.hiu.jobs.any fun j => j.wait == .freed c && j.out.isNone
  if asked ∧ s.flag (F.SILO_CTX_STAT_drained c) ∧ s.fld (F.SILO_CTX_CFG_state c) = 2 ∧ s.coreRuns 1 then
    s.setFld (F.SILO_CTX_CFG_state c) 0
  else s

/-- The epoch cycle of the Silo, in every state but Deep (Table 18-4).
Marks: DEDUCED, log entry 47. -/
def Block.siloEpoch (s : Block) (resumed : Bool) : Block :=
  let next := s.silo.cfgNext
  let s := (s.hubEpoch resumed).forAll (List.range 4) fun s d => s.sliceEpoch d
  let s := s.forAll (List.range 64) fun s n => s.sdomEpoch n
  let s := s.forAll ((List.range 63).map (· + 1)) fun s c =>
    s.setSat (F.SILO_CTX_STAT_waits c) (s.silo.waits.getD c 0)
  let s := { s with silo := { s.silo with
    waits := List.replicate 64 0, cfgNext := none, shares := none
    pool := (s.poolFor s.epoch).orElse fun _ => s.silo.pool
    posted := s.silo.posted.filter fun x => decide (s.epoch < x.1) } }
  s.forAll ((List.range 63).map (· + 1)) fun s c => (match next with
    | some (cfg, _) => s.drainCheck cfg c
    | none => s).freeCtx c

/-! ## An epoch boundary: margins, regressors and the rest -/

/-- A core domain at an epoch boundary: Penumbra, frequency, orders, holds, exits and entry (R353, R372-R376, R380). -/
def Block.marginDom (s : Block) (n : Nat) : Block :=
  let m := s.margin n
  let s := if s.fld (F.LG_MARGIN_MODE_trans n) = 0 then
      s.setMargin n { m with pen := s.penOf n (s.fld (F.LG_MARGIN_MODE_mode n)) }
    else s
  let s := ((s.applyFreq n).applyModeReq n).sendOrder n
  let s := (s.setFld (F.LG_MARGIN_GLINT_last n) (s.fld (F.LG_MARGIN_GLINT_cur n))).setFld (F.LG_MARGIN_GLINT_cur n) 0
  ((s.holdEpoch n).marginEpoch n).marginEntry n

/-- The Hub forwards a word of the margin settings to Relay `d` when it has changed (R380). -/
def Block.forwardMargin (s : Block) (d k : Nat) : Block :=
  let v := (s.reg (0x9400 + 4 * k)).toNat
  let l := s.marginCfg.getD d []
  if l.getD k 0 = v then s
  else match s.forward d 4 (0x9400 + 4 * k) v with
    | some s => { s with marginCfg := s.marginCfg.set d (l.set k v) }
    | none => s

/-- The margin settings take their registers' values in every Relay whose link carries them, every core domain follows, and what
Deep commands that could not go before goes (R74, R380). -/
def Block.marginBoundary (s : Block) : Block :=
  let s := s.forAll (List.range 4) fun s d => s.forAll (List.range 4) fun s k => s.forwardMargin d k
  let s := s.forAll (List.range 4) Block.applyDeep
  s.forAll (List.range 64) fun s n => s.marginDom n

/-- The tiles of a chain whose Posts are powered, as a map. -/
def Block.poweredMap (s : Block) (n : Nat) : Nat :=
  (List.range 16).foldl (fun m p => setBit m p (s.post (16 * n + p)).powered) 0

/-- A chain opens the sums of the epoch that ended; what it has not yet sent stays ready (R220, R221). -/
def Block.chainEpoch (s : Block) (n : Nat) : Block :=
  let c := s.chain n
  s.setChain n { c with
    ready := match c.due with | some m => some (c.record m) | none => c.ready
    regEpoch := s.time.epoch - 1, sums := List.replicate 32 0, mask := 0, probation := false, poweredUp := false
    due := some (s.poweredMap n) }

/-- The present number of the unit whose boundary a setting takes effect at: epoch, thermal step or tick.
Marks: DESIGN CHOICE, log entry 40. -/
def Block.claimNow (s : Block) (code : Nat) : Nat :=
  if [0x23, 0x24, 0x100, 0x101, 0x103, 0x104].contains code then s.time.epoch
  else if code = 0x22 then s.time.step else s.tick

/-- Requests for a single-valued setting whose boundary has passed are forgotten (R293).
Marks: DESIGN CHOICE, log entry 40. -/
def Block.pruneClaims (s : Block) : Block :=
  { s with hiu := { s.hiu with claims := s.hiu.claims.filter fun c => decide (s.claimNow c.code ≤ c.at_) } }

/-- What every unit does at an epoch boundary; `lanes` says for each die whether its unused lanes pass their test. -/
def Block.epochBoundary (s : Block) (lanes : List Bool) : Block :=
  let s := ({ s with time := { s.time with epoch := s.tick / 16 } }).epochFt
  let held := s.power.hold
  let s := { s with power := { s.power with hold := held && s.inDeep } }
  let s := s.forAll (List.range 4) fun s d => s.linkEpoch d (lanes.getD d false)
  let s := if s.power.hold then s else s.siloEpoch held
  let s := s.marginBoundary
  let s := s.forAll (List.range 64) fun s n => s.chainEpoch n
  let s := if s.power.hold then s else s.restoreEpoch
  let s := s.telEpoch
  let s := s.forAll ((s.fc.readmits.filter (·.step == 8)).map (·.tile)) fun s t => s.rejoin t
  s.pruneClaims

/-- An epoch boundary, once for each epoch that begins (R90, R98). -/
def execEpochBoundary (lanes : List Bool) (s : State) : Host.Outcome State Fault Refusal :=
  s.on fun s => s.when (decide (s.time.epoch < s.tick / 16)) fun s => s.epochBoundary lanes

/-! ## A thermal-step boundary (R445-R449, R459) -/

/-- WRSTN of a stack's serial port is asserted: from POR until its first poll, and throughout for an absent stack (R820). -/
def Block.wrst (s : Block) (k : Nat) : Bool := !s.stackPresent k || !s.lg.polled.contains k

/-- A poll of a stack: temperature in 1/16 degree and power in mW, `none` where the read fails.
Marks: DEDUCED, log entry 32. -/
def Block.pollStack (s : Block) (k : Nat) (temp : Option Int) (power : Option (BitVec 16)) : Block :=
  if !s.stackPresent k then s
  else
    let s := { s with lg := { s.lg with polled := if s.lg.polled.contains k then s.lg.polled else s.lg.polled ++ [k] } }
    let s := (s.setSat (F.SSU_STK_age k) (s.fld (F.SSU_STK_age k) + 1)).setSat (F.SSU_STK_P_p_age k)
      (s.fld (F.SSU_STK_P_p_age k) + 1)
    let s := match temp with
      | some v => (s.setFldS (F.SSU_STK_temp k) (max (-32767) v)).setFld (F.SSU_STK_age k) 0
      | none => s
    let s := match power with
      | some p =>
        let s := (s.setFld (F.SSU_STK_P_p_mw k) p.toNat).setFld (F.SSU_STK_P_p_age k) 0
        if s.lg.stackRead.contains k then s else { s with lg := { s.lg with stackRead := s.lg.stackRead ++ [k] } }
      | none => s
    let ok := temp.isSome && power.isSome
    let s := s.setMapBit F.SSU_STATUS_stk_ok k ok
    if ok then s else s.raise 19 0 k

/-- STK_REFHI of a stack, and source 2.3 (R447, R449). -/
def Block.stackRefhi (s : Block) (k : Nat) : Block :=
  let on := s.stackPresent k
  let old := decide (s.fld F.LG_STACK_CFG_age_limit < s.fld (F.SSU_STK_age k))
  let t := s.fldI (F.SSU_STK_temp k)
  let hi : Int := 16 * s.fld F.SSU_CFG_refresh_hi
  let keep := if hi ≤ t then true else s.flag (F.SSU_STK_refhi k) && decide (hi - 32 ≤ t)
  (s.setFld (F.SSU_STK_refhi k) (b2n (on && (old || keep)))).follow 2 3 k (on && old)

/-- What the TME and the SSU do at a thermal-step boundary.
Marks: DEDUCED, log entry 36. -/
def Block.stepBoundary (s : Block) (polls : List (Option Int × Option (BitVec 16))) : Block :=
  let s := { s with time := { s.time with step := s.tick / 128 } }
  let s := s.tmeBoundary
  s.forAll (List.range 24) fun s k =>
    let p := polls.getD k (none, none)
    (s.pollStack k p.1 p.2).stackRefhi k

/-- A thermal-step boundary, once for each step that begins. -/
def execThermalStepBoundary (polls : List (Option Int × Option (BitVec 16))) (s : State) :
    Host.Outcome State Fault Refusal :=
  s.on fun s => s.when (decide (s.time.step < s.tick / 128)) fun s => s.stepBoundary polls

end Sys2Proof.Machine
end

