-- ==== Sys2Proof/Machine/Wfg.lean ====
section
/-! DEFINITION. The wait-for graph (16_telemetry_trace_debug.md R677, R678, R684). -/
namespace Sys2Proof.Machine
open Sys2Proof

/-- An edge: nodes by type and id (Table 16-13), reason (Table 16-14), FT at which the wait began. -/
structure WEdge where
  src : Nat × Nat
  dst : Nat × Nat
  reason : Nat
  ft : Nat
  deriving DecidableEq, Repr

/-- Insertion into a sorted list. -/
def insertBy {α : Type} (le : α → α → Bool) (x : α) : List α → List α
  | [] => [x]
  | y :: l => if le x y then x :: y :: l else y :: insertBy le x l

/-- Insertion sort. -/
def sortBy {α : Type} (le : α → α → Bool) : List α → List α
  | [] => []
  | x :: l => insertBy le x (sortBy le l)

def nodeLe (a b : Nat × Nat) : Bool := decide (a.1 < b.1) || (a.1 == b.1 && decide (a.2 ≤ b.2))
def edgeLe (a b : WEdge) : Bool := Nat.ble a.ft b.ft

/-! ## Edges -/

/-- Waits of launch requests, reasons 0-4. -/
def Block.wfgTiles (s : Block) : List WEdge :=
  let halted := (List.range 5).find? fun c => s.coreState c == 1
  (List.range 4).flatMap fun d => (s.slice d).waiting.map fun (w : Nat × Nat × Nat × Nat × Nat) =>
    let t := w.1
    let ctx := w.2.2.1
    let r := w.2.2.2.1
    let n := (2, domOfTile t)
    let dst := match r with
      | 0 => (3, 256 * d + ctx)
      | 3 => match s.silo.drainStop, halted with
        | true, some c => (7, c)
        | _, _ => n
      | 4 => (1, ctx)
      | _ => n
    ⟨(0, t), dst, r, w.2.2.2.2⟩

/-- Busy tiles of a context (R311). -/
def Block.busyOf (s : Block) (c : Nat) : List Nat :=
  (List.range 4).flatMap fun d => (((s.slice d).grants.filter fun (g : Grant) =>
    g.ctx == c && !g.done && decide (g.win ≤ s.window)).map fun (g : Grant) => g.tile).eraseDups

/-- Reason 5: a context that drains waits for its busy tiles. -/
def Block.wfgDrains (s : Block) : List WEdge :=
  ((List.range 63).map (· + 1)).flatMap fun c =>
    if s.fld (F.SILO_CTX_CFG_state c) = 2 then
      (s.busyOf c).map fun t => ⟨(1, c), (0, t), 5, Tab.get zeroN s.hiu.drainAt c⟩
    else []

def Pkt.node (p : Pkt) : Nat × Nat := (5, 65536 * p.src + p.tag)

/-- Reason 6: packets of class H wait for a context, a tile or a domain. -/
def Block.wfgJobs (s : Block) : List WEdge :=
  s.hiu.jobs.flatMap fun (j : Job) =>
    let e (dst : Nat × Nat) : WEdge := ⟨j.pkt.node, dst, 6, j.at_⟩
    if j.out.isSome then []
    else match j.wait with
      | .drained c => [e (1, c)]
      | .freed c => [e (1, c)]
      | .cal t => [e (0, t)]
      | .lbist t => [e (0, t)]
      | .pll _ l => (l.filter fun n => (s.margin n).pll != .idle).map fun n => e (2, n)
      | .iso => [e (if s.fld F.FC_ISO_STATUS_op % 2 = 1 then 2 else 0, s.fld F.FC_ISO_STATUS_target)]
      | _ => []

/-- The task that serves an opcode, in the order of Table 13-4.
Marks: DEDUCED, log entry 76. -/
def taskOf (op : Nat) : Nat :=
  match homeOf op with
  | 1 => match op / 16 with | 1 => 1 | 8 => 2 | _ => 3
  | 2 => 2
  | 3 => match op / 16 with | 5 => 1 | 6 => 0 | _ => 2
  | _ => 0

/-- Reason 7: packets that wait for their task. -/
def Block.wfgPackets (s : Block) : List WEdge :=
  (s.hiu.fetched ++ s.hiu.accepted).map fun (p : Pkt) =>
    ⟨p.node, (6, 256 * homeOf p.opcode + taskOf p.opcode), 7, p.at_⟩

/-- Tasks of a home core (Table 13-4). -/
def tasksOf (h : Nat) : Nat := [3, 4, 3, 4, 1].getD h 0

/-- Reason 8: tasks whose core does not run. -/
def Block.wfgTasks (s : Block) : List WEdge :=
  (List.range 5).flatMap fun h =>
    let c := s.boundCore h
    if s.coreState c = 0 then []
    else (List.range (tasksOf h)).map fun k => ⟨(6, 256 * h + k), (7, c), 8, s.fwc.since.getD c 0⟩

/-- Reason 9: rings stopped, and doorbells held while ring service does not run. -/
def Block.wfgRings (s : Block) : List WEdge :=
  let c := s.boundCore 0
  (List.range 134).flatMap fun r =>
    if s.flag (F.HIU_RING_STATUS_stopped r) then [⟨(4, r), (7, c), 9, Tab.get zeroN s.hiu.stopAt r⟩]
    else if r < 64 ∧ s.ringOn r ∧ s.held r ≠ 0 ∧ !s.coreRuns 0 then [⟨(4, r), (7, c), 9, s.fwc.since.getD c 0⟩]
    else []

/-- Reason 10: traced commands that run longer than dur_mult × dur. -/
def Block.wfgLong (s : Block) : List WEdge :=
  s.ttu.trace.flatMap fun (x : Nat × TraceT) =>
    match (match x.2.waiting.getLast? with | some b => some b | none => x.2.cur) with
    | some b =>
      if b.r.ctx ≠ 0 ∧ !b.r.dflt ∧ b.r.ft.toNat + s.fld F.TTU_CTRL_dur_mult * 8 * b.clsDur < s.now then
        [⟨(0, x.1), (8, 0), 10, b.r.ft.toNat⟩]
      else []
    | none => []

/-- Edges in the graph: older than 1 ms, but for reasons 5, 6 and 9; oldest first.
Marks: DEDUCED, log entry 76. -/
def Block.wfgEdges (s : Block) : List WEdge :=
  let l := s.wfgTiles ++ s.wfgDrains ++ s.wfgJobs ++ s.wfgPackets ++ s.wfgTasks ++ s.wfgRings ++ s.wfgLong
  sortBy edgeLe (l.filter fun (e : WEdge) =>
    e.reason == 5 || e.reason == 6 || e.reason == 9 || Nat.blt (e.ft + 1000000) s.now)

/-! ## Nodes and layout (Table 16-12) -/

/-- Nodes of some edges, in ascending type and id.
Marks: DEDUCED, log entry 76. -/
def nodesOf (l : List WEdge) : List (Nat × Nat) :=
  sortBy nodeLe (l.flatMap fun (e : WEdge) => [e.src, e.dst]).eraseDups

/-- The oldest waits that fit 2,048 nodes and 4,096 edges, and whether some did not.
Marks: DEDUCED, log entry 76. -/
def wfgFit (l : List WEdge) : List WEdge × Bool :=
  let r := (l.take 4096).foldl (fun (acc : List WEdge × List (Nat × Nat) × Bool) e =>
    let ns := (acc.2.1 ++ [e.src, e.dst]).eraseDups
    if acc.2.2 ∨ 2048 < ns.length then (acc.1, acc.2.1, true) else (acc.1 ++ [e], ns, false)) ([], [], false)
  (r.1, r.2.2 || decide (4096 < l.length))

/-- Nodes reached from some, following edges at most `n` times. -/
def reach (l : List WEdge) : Nat → List (Nat × Nat) → List (Nat × Nat)
  | 0, seen => seen
  | n + 1, seen => reach l n (seen ++ (l.filter fun (e : WEdge) => seen.contains e.src).map fun (e : WEdge) => e.dst).eraseDups

/-- A node lies on a directed cycle. -/
def onCycle (l : List WEdge) (n : Nat) (v : Nat × Nat) : Bool :=
  (reach l n ((l.filter fun (e : WEdge) => e.src == v).map fun (e : WEdge) => e.dst)).contains v

/-- The graph at the present FT. -/
def Block.wfgGraph (s : Block) : List Byte :=
  let f := wfgFit s.wfgEdges
  let ns := nodesOf f.1
  let cyc := ns.map fun v => onCycle f.1 ns.length v
  let idx (v : Nat × Nat) : Nat := ns.findIdx (· == v)
  layout [(0, u64 s.now ++ u16 ns.length ++ u16 f.1.length ++ u16 (cyc.filter id).length ++ u16 (b2n f.2)), (0x40, [])] ++
    (ns.zip cyc).flatMap (fun x => u8 x.1.1 ++ u8 (b2n x.2) ++ u16 0 ++ u32 x.1.2) ++
    f.1.flatMap fun (e : WEdge) => u16 (idx e.src) ++ u16 (idx e.dst) ++ u8 e.reason ++ leBytes 3 0 ++ u64 e.ft

/-- At each FT with FT[23:0] = 0. -/
def execWfgBuild (s : State) : Host.Outcome State Fault Refusal :=
  s.on fun s => s.when (s.coreRuns 3 && s.time.ticking && s.now % 16777216 == 0) fun s =>
    { s with ttu := { s.ttu with wfg := s.wfgGraph } }

/-- The graph is built anew, and needs a result buffer of 81,984 bytes. -/
def Block.wfgRead (s : Block) (p : Pkt) : Block :=
  if !p.hasRes ∨ (!p.onP4 ∧ p.resLen < 81984) then s.finish p stBadParam else s.finishBuf p [] s.wfgGraph

def execWfgRead (now : Ft) (s : State) : Host.Outcome State Fault Refusal := s.packet now 0x95 fun s p => s.wfgRead p

end Sys2Proof.Machine
end

