-- ==== Sys2Proof/Machine/Dispatch.lean ====
section
/-! DEFINITION. One arm per command: the meaning each row of the table has. -/
namespace Sys2Proof.Machine

/-- The effect of a command on everything but the queue. -/
def exec (i : Instr) (s : State) : Host.Outcome State Fault Refusal :=
  match i with
  | .powerOnReset => Sys2Proof.Machine.execPowerOnReset s
  | .warmrstNAssert now => Sys2Proof.Machine.execWarmrstNAssert now s
  | .warmReq now => Sys2Proof.Machine.execWarmReq now s
  | .warmResetGroupsAssert => Sys2Proof.Machine.execWarmResetGroupsAssert s
  | .warmResetRelease => Sys2Proof.Machine.execWarmResetRelease s
  | .qvSoft now => Sys2Proof.Machine.execQvSoft now s
  | .fuseShadowLoaded bad => Sys2Proof.Machine.execFuseShadowLoaded bad s
  | .bistComplete misr unrep rows cols => Sys2Proof.Machine.execBistComplete misr unrep rows cols s
  | .coreDomainStart now => Sys2Proof.Machine.execCoreDomainStart now s
  | .lowWordRead port off edge => Sys2Proof.Machine.execLowWordRead port off edge s
  | .lowWordWrite req off value now => Sys2Proof.Machine.execLowWordWrite req off value now s
  | .highWordWrite req off value now => Sys2Proof.Machine.execHighWordWrite req off value now s
  | .registerWrite req off wide value now => Sys2Proof.Machine.execRegisterWrite req off wide value now s
  | .accessError port off write len full syn now => Sys2Proof.Machine.execAccessError port off write len full syn now s
  | .fabMarkStrobe marker par gap now => Sys2Proof.Machine.execFabMarkStrobe marker par gap now s
  | .markerMissing now => Sys2Proof.Machine.execMarkerMissing now s
  | .acquiringTimeout => Sys2Proof.Machine.execAcquiringTimeout s
  | .tickBoundary bmem => Sys2Proof.Machine.execTickBoundary bmem s
  | .epochBoundary lanes => Sys2Proof.Machine.execEpochBoundary lanes s
  | .thermalStepBoundary polls => Sys2Proof.Machine.execThermalStepBoundary polls s
  | .sidebandLaneLoss die => Sys2Proof.Machine.execSidebandLaneLoss die s
  | .linkRetrainComplete die lanes8 => Sys2Proof.Machine.execLinkRetrainComplete die lanes8 s
  | .linkDown die => Sys2Proof.Machine.execLinkDown die s
  | .sidebandCrcMismatch die up now => Sys2Proof.Machine.execSidebandCrcMismatch die up now s
  | .postTickLatch tile act reading => Sys2Proof.Machine.execPostTickLatch tile act reading s
  | .commandLaunch tile tag act atLatch now => Sys2Proof.Machine.execCommandLaunch tile tag act atLatch now s
  | .commandCompletion tile act atLatch now => Sys2Proof.Machine.execCommandCompletion tile act atLatch now s
  | .segmentAdd tile => Sys2Proof.Machine.execSegmentAdd tile s
  | .snapHoldExpiry tile => Sys2Proof.Machine.execSnapHoldExpiry tile s
  | .weightPublication tile flip now => Sys2Proof.Machine.execWeightPublication tile flip now s
  | .postPowerUp tile => Sys2Proof.Machine.execPostPowerUp tile s
  | .sheafAtRelay tile flip now => Sys2Proof.Machine.execSheafAtRelay tile flip now s
  | .chainCrcError hop channel body now => Sys2Proof.Machine.execChainCrcError hop channel body now s
  | .chainNak hop channel => Sys2Proof.Machine.execChainNak hop channel s
  | .sheafAtHub die now => Sys2Proof.Machine.execSheafAtHub die now s
  | .inputSenseRecord die record now => Sys2Proof.Machine.execInputSenseRecord die record now s
  | .domainMeasurementRecord dom now => Sys2Proof.Machine.execDomainMeasurementRecord dom now s
  | .postRegressorRecord tile => Sys2Proof.Machine.execPostRegressorRecord tile s
  | .domainRegressorRecord dom => Sys2Proof.Machine.execDomainRegressorRecord dom s
  | .eaEvaluation now => Sys2Proof.Machine.execEaEvaluation now s
  | .eaPublication now => Sys2Proof.Machine.execEaPublication now s
  | .winnowUpdate => Sys2Proof.Machine.execWinnowUpdate s
  | .winnowResultsVisible => Sys2Proof.Machine.execWinnowResultsVisible s
  | .publicationBoundary => Sys2Proof.Machine.execPublicationBoundary s
  | .imageRelease => Sys2Proof.Machine.execImageRelease s
  | .imageLapse => Sys2Proof.Machine.execImageLapse s
  | .factorySetCommit => Sys2Proof.Machine.execFactorySetCommit s
  | .wceDomRestore dom => Sys2Proof.Machine.execWceDomRestore dom s
  | .wceRestoreAll => Sys2Proof.Machine.execWceRestoreAll s
  | .lgEvaluation now => Sys2Proof.Machine.execLgEvaluation now s
  | .lgLevelStepDown => Sys2Proof.Machine.execLgLevelStepDown s
  | .level5RestoreComplete dom => Sys2Proof.Machine.execLevel5RestoreComplete dom s
  | .unachievableLimit => Sys2Proof.Machine.execUnachievableLimit s
  | .l5Expiry now => Sys2Proof.Machine.execL5Expiry now s
  | .lgActionAtRelay die => Sys2Proof.Machine.execLgActionAtRelay die s
  | .thermalLevelFall die dom row => Sys2Proof.Machine.execThermalLevelFall die dom row s
  | .thermalStateRecord die now => Sys2Proof.Machine.execThermalStateRecord die now s
  | .hotNChange asserted now => Sys2Proof.Machine.execHotNChange asserted now s
  | .ceilingProgramComplete ok now => Sys2Proof.Machine.execCeilingProgramComplete ok now s
  | .poolPost now => Sys2Proof.Machine.execPoolPost now s
  | .poolDivision now => Sys2Proof.Machine.execPoolDivision now s
  | .creditReport die => Sys2Proof.Machine.execCreditReport die s
  | .delegationReceived die => Sys2Proof.Machine.execDelegationReceived die s
  | .tpRequest tile ctx tag cls lead now => Sys2Proof.Machine.execTpRequest tile ctx tag cls lead now s
  | .launchRequest tile flip now => Sys2Proof.Machine.execLaunchRequest tile flip now s
  | .grant tile now => Sys2Proof.Machine.execGrant tile now s
  | .wait tile now => Sys2Proof.Machine.execWait tile now s
  | .revoke tile now => Sys2Proof.Machine.execRevoke tile now s
  | .refuse tile now => Sys2Proof.Machine.execRefuse tile now s
  | .requestRetry tile tag => Sys2Proof.Machine.execRequestRetry tile tag s
  | .requestResend tile tag => Sys2Proof.Machine.execRequestResend tile tag s
  | .requestWithdraw tile tag now => Sys2Proof.Machine.execRequestWithdraw tile tag now s
  | .cancel tile now => Sys2Proof.Machine.execCancel tile now s
  | .gateRelease tile now => Sys2Proof.Machine.execGateRelease tile now s
  | .grantLapse tile now => Sys2Proof.Machine.execGrantLapse tile now s
  | .idleNotice tile => Sys2Proof.Machine.execIdleNotice tile s
  | .limiterWindow now => Sys2Proof.Machine.execLimiterWindow now s
  | .classTableVerified => Sys2Proof.Machine.execClassTableVerified s
  | .lanternDetection tile mv again now => Sys2Proof.Machine.execLanternDetection tile mv again now s
  | .lanternRelease sample => Sys2Proof.Machine.execLanternRelease sample s
  | .lanternStuck tile => Sys2Proof.Machine.execLanternStuck tile s
  | .stretchOrder tile => Sys2Proof.Machine.execStretchOrder tile s
  | .glintSummary tile now => Sys2Proof.Machine.execGlintSummary tile now s
  | .glintRecord dom now => Sys2Proof.Machine.execGlintRecord dom now s
  | .marginOrder tile => Sys2Proof.Machine.execMarginOrder tile s
  | .marginTightenSlew dom now => Sys2Proof.Machine.execMarginTightenSlew dom now s
  | .marginHoldEnd dom => Sys2Proof.Machine.execMarginHoldEnd dom s
  | .pllLock dom now => Sys2Proof.Machine.execPllLock dom now s
  | .calReq tile => Sys2Proof.Machine.execCalReq tile s
  | .lanternCalStart tile => Sys2Proof.Machine.execLanternCalStart tile s
  | .lanternCalEnd tile level => Sys2Proof.Machine.execLanternCalEnd tile level s
  | .pwmPeriod dom adc isns now => Sys2Proof.Machine.execPwmPeriod dom adc isns now s
  | .peakLimit phase => Sys2Proof.Machine.execPeakLimit phase s
  | .phaseTrip phase => Sys2Proof.Machine.execPhaseTrip phase s
  | .tripWaitEnd phase => Sys2Proof.Machine.execTripWaitEnd phase s
  | .zeroCross phase => Sys2Proof.Machine.execZeroCross phase s
  | .overRating phase => Sys2Proof.Machine.execOverRating phase s
  | .domainEnable dom => Sys2Proof.Machine.execDomainEnable dom s
  | .prebiasRelease dom => Sys2Proof.Machine.execPrebiasRelease dom s
  | .softstartComplete dom => Sys2Proof.Machine.execSoftstartComplete dom s
  | .vrcCommandReached dom => Sys2Proof.Machine.execVrcCommandReached dom s
  | .shortDetected dom => Sys2Proof.Machine.execShortDetected dom s
  | .hiccupEnd dom => Sys2Proof.Machine.execHiccupEnd dom s
  | .retryReset dom => Sys2Proof.Machine.execRetryReset dom s
  | .failClr dom => Sys2Proof.Machine.execFailClr dom s
  | .domainDisable dom => Sys2Proof.Machine.execDomainDisable dom s
  | .stopComplete dom => Sys2Proof.Machine.execStopComplete dom s
  | .overvoltage dom => Sys2Proof.Machine.execOvervoltage dom s
  | .overvoltageRelease dom => Sys2Proof.Machine.execOvervoltageRelease dom s
  | .undervoltage dom => Sys2Proof.Machine.execUndervoltage dom s
  | .senseFault dom phase => Sys2Proof.Machine.execSenseFault dom phase s
  | .coefCommit dom => Sys2Proof.Machine.execCoefCommit dom s
  | .phaseRestore phase => Sys2Proof.Machine.execPhaseRestore phase s
  | .syncRelease die => Sys2Proof.Machine.execSyncRelease die s
  | .syncMoveComplete die ppm => Sys2Proof.Machine.execSyncMoveComplete die ppm s
  | .syncRelock die => Sys2Proof.Machine.execSyncRelock die s
  | .dcoTrim die => Sys2Proof.Machine.execDcoTrim die s
  | .bmemSensorFlits die flit now => Sys2Proof.Machine.execBmemSensorFlits die flit now s
  | .tmeStep now => Sys2Proof.Machine.execTmeStep now s
  | .tmeResultsVisible now => Sys2Proof.Machine.execTmeResultsVisible now s
  | .forecastPeriod now => Sys2Proof.Machine.execForecastPeriod now s
  | .fcCommit now => Sys2Proof.Machine.execFcCommit now s
  | .forecastStale now => Sys2Proof.Machine.execForecastStale now s
  | .ambientAgeExpiry now => Sys2Proof.Machine.execAmbientAgeExpiry now s
  | .suspectClr => Sys2Proof.Machine.execSuspectClr s
  | .groupConfigEffect now => Sys2Proof.Machine.execGroupConfigEffect now s
  | .offerIntervalStart now => Sys2Proof.Machine.execOfferIntervalStart now s
  | .offerSend now => Sys2Proof.Machine.execOfferSend now s
  | .offerMessage bytes now => Sys2Proof.Machine.execOfferMessage bytes now s
  | .claimsCompute now => Sys2Proof.Machine.execClaimsCompute now s
  | .leaseMessage bytes now => Sys2Proof.Machine.execLeaseMessage bytes now s
  | .lenderDecide now => Sys2Proof.Machine.execLenderDecide now s
  | .ackMessage bytes now => Sys2Proof.Machine.execAckMessage bytes now s
  | .borrowerAdjWrite now => Sys2Proof.Machine.execBorrowerAdjWrite now s
  | .leaseRelease now => Sys2Proof.Machine.execLeaseRelease now s
  | .hubFault f now => Sys2Proof.Machine.execHubFault f now s
  | .postFault tile f now => Sys2Proof.Machine.execPostFault tile f now s
  | .faultRecord die => Sys2Proof.Machine.execFaultRecord die s
  | .postSilent tile => Sys2Proof.Machine.execPostSilent tile s
  | .chainStalled dom => Sys2Proof.Machine.execChainStalled dom s
  | .fcGrpClr group bits => Sys2Proof.Machine.execFcGrpClr group bits s
  | .firstClr => Sys2Proof.Machine.execFirstClr s
  | .alertPendClear => Sys2Proof.Machine.execAlertPendClear s
  | .fcGrpSevWrite group value => Sys2Proof.Machine.execFcGrpSevWrite group value s
  | .fcGrpForce group bits now => Sys2Proof.Machine.execFcGrpForce group bits now s
  | .injectionGo => Sys2Proof.Machine.execInjectionGo s
  | .injectionFire now => Sys2Proof.Machine.execInjectionFire now s
  | .fcIsoIsolateTile tile now => Sys2Proof.Machine.execFcIsoIsolateTile tile now s
  | .fcIsoIsolateDomain dom now => Sys2Proof.Machine.execFcIsoIsolateDomain dom now s
  | .fcIsoReadmitTile tile => Sys2Proof.Machine.execFcIsoReadmitTile tile s
  | .fcIsoReadmitDomain dom => Sys2Proof.Machine.execFcIsoReadmitDomain dom s
  | .isolationOrder domain index now => Sys2Proof.Machine.execIsolationOrder domain index now s
  | .switchOpened tile now => Sys2Proof.Machine.execSwitchOpened tile now s
  | .readmitResetDone tile => Sys2Proof.Machine.execReadmitResetDone tile s
  | .readmitSwitchClosed tile => Sys2Proof.Machine.execReadmitSwitchClosed tile s
  | .lbistEnd tile signature now => Sys2Proof.Machine.execLbistEnd tile signature now s
  | .readmitRejoin tile => Sys2Proof.Machine.execReadmitRejoin tile s
  | .readmitTimeout tile now => Sys2Proof.Machine.execReadmitTimeout tile now s
  | .riskInterval => Sys2Proof.Machine.execRiskInterval s
  | .watchdogService core now => Sys2Proof.Machine.execWatchdogService core now s
  | .watchdogExpiry core now => Sys2Proof.Machine.execWatchdogExpiry core now s
  | .coreException core cause now => Sys2Proof.Machine.execCoreException core cause now s
  | .taskRebind core => Sys2Proof.Machine.execTaskRebind core s
  | .dumpComplete => Sys2Proof.Machine.execDumpComplete s
  | .coreReady core now => Sys2Proof.Machine.execCoreReady core now s
  | .taskReturn core now => Sys2Proof.Machine.execTaskReturn core now s
  | .supervisorWatchdogExpiry now => Sys2Proof.Machine.execSupervisorWatchdogExpiry now s
  | .bootGo => Sys2Proof.Machine.execBootGo s
  | .bootImageChecked fetched now => Sys2Proof.Machine.execBootImageChecked fetched now s
  | .imageAuthenticated now => Sys2Proof.Machine.execImageAuthenticated now s
  | .updateCoresParked => Sys2Proof.Machine.execUpdateCoresParked s
  | .reflectionComplete => Sys2Proof.Machine.execReflectionComplete s
  | .updateCoresEntered => Sys2Proof.Machine.execUpdateCoresEntered s
  | .updateAdopted now => Sys2Proof.Machine.execUpdateAdopted now s
  | .updateAbandon refused now => Sys2Proof.Machine.execUpdateAbandon refused now s
  | .debugHalt core now => Sys2Proof.Machine.execDebugHalt core now s
  | .debugResume core now => Sys2Proof.Machine.execDebugResume core now s
  | .breakpointHit core k now => Sys2Proof.Machine.execBreakpointHit core k now s
  | .granaryClr bits => Sys2Proof.Machine.execGranaryClr bits s
  | .ringEnable ring => Sys2Proof.Machine.execRingEnable ring s
  | .ringDisable ring => Sys2Proof.Machine.execRingDisable ring s
  | .doorbell ring value now => Sys2Proof.Machine.execDoorbell ring value now s
  | .packetFetch ring entry payload now => Sys2Proof.Machine.execPacketFetch ring entry payload now s
  | .completionWrite ring fail now => Sys2Proof.Machine.execCompletionWrite ring fail now s
  | .heartbeat value now => Sys2Proof.Machine.execHeartbeat value now s
  | .heartbeatTimeout now => Sys2Proof.Machine.execHeartbeatTimeout now s
  | .nop now => Sys2Proof.Machine.execNop now s
  | .hello now => Sys2Proof.Machine.execHello now s
  | .commit now => Sys2Proof.Machine.execCommit now s
  | .goodbye now => Sys2Proof.Machine.execGoodbye now s
  | .identify now => Sys2Proof.Machine.execIdentify now s
  | .ctxCreate now => Sys2Proof.Machine.execCtxCreate now s
  | .ctxSetBudget now => Sys2Proof.Machine.execCtxSetBudget now s
  | .ctxSetTiles now => Sys2Proof.Machine.execCtxSetTiles now s
  | .ctxDrain now => Sys2Proof.Machine.execCtxDrain now s
  | .ctxFree now => Sys2Proof.Machine.execCtxFree now s
  | .ctxActivate now => Sys2Proof.Machine.execCtxActivate now s
  | .ctxQuery now => Sys2Proof.Machine.execCtxQuery now s
  | .limitSet now => Sys2Proof.Machine.execLimitSet now s
  | .thermalSet now => Sys2Proof.Machine.execThermalSet now s
  | .limitQuery now => Sys2Proof.Machine.execLimitQuery now s
  | .ceilingUpdate now => Sys2Proof.Machine.execCeilingUpdate now s
  | .ceilingQuery now => Sys2Proof.Machine.execCeilingQuery now s
  | .marginSetMode now => Sys2Proof.Machine.execMarginSetMode now s
  | .marginSetFreq now => Sys2Proof.Machine.execMarginSetFreq now s
  | .marginSetParams now => Sys2Proof.Machine.execMarginSetParams now s
  | .marginQuery now => Sys2Proof.Machine.execMarginQuery now s
  | .lanternCal now => Sys2Proof.Machine.execLanternCal now s
  | .bundleLoad now => Sys2Proof.Machine.execBundleLoad now s
  | .bundleLoadVerified => Sys2Proof.Machine.execBundleLoadVerified s
  | .bundleSwap now => Sys2Proof.Machine.execBundleSwap now s
  | .winnowCtrl now => Sys2Proof.Machine.execWinnowCtrl now s
  | .winnowCfg now => Sys2Proof.Machine.execWinnowCfg now s
  | .winnowRead now => Sys2Proof.Machine.execWinnowRead now s
  | .eaRead now => Sys2Proof.Machine.execEaRead now s
  | .coolSet now => Sys2Proof.Machine.execCoolSet now s
  | .thermalRead now => Sys2Proof.Machine.execThermalRead now s
  | .telemConfig now => Sys2Proof.Machine.execTelemConfig now s
  | .traceConfig now => Sys2Proof.Machine.execTraceConfig now s
  | .digestConfig now => Sys2Proof.Machine.execDigestConfig now s
  | .countersRead now => Sys2Proof.Machine.execCountersRead now s
  | .faultRead now => Sys2Proof.Machine.execFaultRead now s
  | .faultClear now => Sys2Proof.Machine.execFaultClear now s
  | .faultSetSev now => Sys2Proof.Machine.execFaultSetSev now s
  | .faultSetCtrl now => Sys2Proof.Machine.execFaultSetCtrl now s
  | .isolate now => Sys2Proof.Machine.execIsolate now s
  | .readmit now => Sys2Proof.Machine.execReadmit now s
  | .faultForce now => Sys2Proof.Machine.execFaultForce now s
  | .faultInject now => Sys2Proof.Machine.execFaultInject now s
  | .riskCfg now => Sys2Proof.Machine.execRiskCfg now s
  | .riskRead now => Sys2Proof.Machine.execRiskRead now s
  | .imageLoad now => Sys2Proof.Machine.execImageLoad now s
  | .imageActivate now => Sys2Proof.Machine.execImageActivate now s
  | .imageDiscard now => Sys2Proof.Machine.execImageDiscard now s
  | .imageQuery now => Sys2Proof.Machine.execImageQuery now s
  | .groupSet now => Sys2Proof.Machine.execGroupSet now s
  | .lendCfg now => Sys2Proof.Machine.execLendCfg now s
  | .lendQuery now => Sys2Proof.Machine.execLendQuery now s
  | .dumpRead now => Sys2Proof.Machine.execDumpRead now s
  | .dumpClear now => Sys2Proof.Machine.execDumpClear now s
  | .coreReset now => Sys2Proof.Machine.execCoreReset now s
  | .postLbist now => Sys2Proof.Machine.execPostLbist now s
  | .globalStop now => Sys2Proof.Machine.execGlobalStop now s
  | .wfgRead now => Sys2Proof.Machine.execWfgRead now s
  | .lcQuery now => Sys2Proof.Machine.execLcQuery now s
  | .lcTransition now => Sys2Proof.Machine.execLcTransition now s
  | .keyRevoke now => Sys2Proof.Machine.execKeyRevoke now s
  | .svnRaise now => Sys2Proof.Machine.execSvnRaise now s
  | .fuseOpComplete ok readback now => Sys2Proof.Machine.execFuseOpComplete ok readback now s
  | .lcTransitionEffect => Sys2Proof.Machine.execLcTransitionEffect s
  | .telemetryIntervalEnd ring now => Sys2Proof.Machine.execTelemetryIntervalEnd ring now s
  | .traceRecord die tile => Sys2Proof.Machine.execTraceRecord die tile s
  | .digestRecord die => Sys2Proof.Machine.execDigestRecord die s
  | .wfgBuild => Sys2Proof.Machine.execWfgBuild s
  | .stopArm => Sys2Proof.Machine.execStopArm s
  | .globalStopCut items now => Sys2Proof.Machine.execGlobalStopCut items now s
  | .globalStopComplete now => Sys2Proof.Machine.execGlobalStopComplete now s
  | .monitorWindow m count now => Sys2Proof.Machine.execMonitorWindow m count now s
  | .sourceStop src now => Sys2Proof.Machine.execSourceStop src now s
  | .rootPllLock lock now => Sys2Proof.Machine.execRootPllLock lock now s
  | .retReq => Sys2Proof.Machine.execRetReq s
  | .islandSwitchComplete island => Sys2Proof.Machine.execIslandSwitchComplete island s
  | .gateClose node die now => Sys2Proof.Machine.execGateClose node die now s
  | .gateOpen node die now => Sys2Proof.Machine.execGateOpen node die now s
  | .cdcAgreementTimeout crossing now => Sys2Proof.Machine.execCdcAgreementTimeout crossing now s
  | .pulseCountOverflow crossing now => Sys2Proof.Machine.execPulseCountOverflow crossing now s
  | .pstateTarget by_ value now => Sys2Proof.Machine.execPstateTarget by_ value now s
  | .idleGatedDrained now => Sys2Proof.Machine.execIdleGatedDrained now s
  | .idleGatedReached now => Sys2Proof.Machine.execIdleGatedReached now s
  | .deepEntrySwitch now => Sys2Proof.Machine.execDeepEntrySwitch now s
  | .deepExitDomainStart dom now => Sys2Proof.Machine.execDeepExitDomainStart dom now s
  | .deepExitComplete now => Sys2Proof.Machine.execDeepExitComplete now s
  | .eccCorrected sram addr syn copy now => Sys2Proof.Machine.execEccCorrected sram addr syn copy now s
  | .eccUncorrectable sram addr syn copy who part now => Sys2Proof.Machine.execEccUncorrectable sram addr syn copy who part now s
  | .patrolScrub sram addr found part now => Sys2Proof.Machine.execPatrolScrub sram addr found part now s
  | .pageRetire sram page => Sys2Proof.Machine.execPageRetire sram page s
  | .pageRetireComplete now => Sys2Proof.Machine.execPageRetireComplete now s
  | .mctpSetEndpointId src inst op eid now => Sys2Proof.Machine.execMctpSetEndpointId src inst op eid now s
  | .mctpGetEndpointId src inst now => Sys2Proof.Machine.execMctpGetEndpointId src inst now s
  | .mctpGetVersionSupport src inst type now => Sys2Proof.Machine.execMctpGetVersionSupport src inst type now s
  | .mctpGetMessageTypeSupport src inst now => Sys2Proof.Machine.execMctpGetMessageTypeSupport src inst now s
  | .mctpGetVendorSupport src inst selector now => Sys2Proof.Machine.execMctpGetVendorSupport src inst selector now s
  | .mctpUnsupportedCommand src inst command now => Sys2Proof.Machine.execMctpUnsupportedCommand src inst command now s
  | .packet eid seq entry payload now => Sys2Proof.Machine.execPacket eid seq entry payload now s
  | .regRead eid seq off width syn edge => Sys2Proof.Machine.execRegRead eid seq off width syn edge s
  | .regWrite eid seq off width value now => Sys2Proof.Machine.execRegWrite eid seq off width value now s
  | .bootChunk eid seq off last data now => Sys2Proof.Machine.execBootChunk eid seq off last data now s
  | .malformedVendorMessage eid cmd seq now => Sys2Proof.Machine.execMalformedVendorMessage eid cmd seq now s
  | .alertResponse now => Sys2Proof.Machine.execAlertResponse now s
  | .smbusTimeout now => Sys2Proof.Machine.execSmbusTimeout now s
  | .pecError now => Sys2Proof.Machine.execPecError now s
  | .pmbusPoll reads now => Sys2Proof.Machine.execPmbusPoll reads now s
  | .pmbAlert status now => Sys2Proof.Machine.execPmbAlert status now s
  | .converterClr k now => Sys2Proof.Machine.execConverterClr k now s
  | .tapReset => Sys2Proof.Machine.execTapReset s
  | .extest pins load => Sys2Proof.Machine.execExtest pins load s
  | .idcode => Sys2Proof.Machine.execIdcode s
  | .samplePreload pins load => Sys2Proof.Machine.execSamplePreload pins load s
  | .bypass => Sys2Proof.Machine.execBypass s
  | .scanEnter readbackZero now => Sys2Proof.Machine.execScanEnter readbackZero now s
  | .mbistRun unrep rows cols now => Sys2Proof.Machine.execMbistRun unrep rows cols now s
  | .fuseProgram entry key now => Sys2Proof.Machine.execFuseProgram entry key now s
  | .tapCeilingUpdate c value now => Sys2Proof.Machine.execTapCeilingUpdate c value now s
  | .lcRequest op record now => Sys2Proof.Machine.execLcRequest op record now s
  | .regAccess off write wide data syn edge => Sys2Proof.Machine.execRegAccess off write wide data syn edge s
  | .supervisorReady now => Sys2Proof.Machine.execSupervisorReady now s
  | .smbusArbitrationLost now => Sys2Proof.Machine.execSmbusArbitrationLost now s
  | .smbusUnsupportedTransaction now => Sys2Proof.Machine.execSmbusUnsupportedTransaction now s

end Sys2Proof.Machine
end

