-- ==== Sys2Proof/Safety.lean ====
section
/-! DEFINITION. What counts as a safe run: the block answers every command with a next state, and the ring region keeps
its canonical form. -/
namespace Sys2Proof.Machine
open Sys2Proof

/-- The outcome is a next state: the block never stops on a command. -/
def answers (o : Host.Outcome State Fault Refusal) : Prop := ∃ t, o = .next t

/-- The ring region is in its canonical form. -/
def State.Inv (s : State) : Prop := Memory.wf s.mem = true

/-- `b` is the block, out of reset (R714) and not cut by a global stop (R680): a command's effect can happen. -/
def State.ready (s : State) (b : Block) : Prop :=
  s.block.rst.groups = false ∧ s.block.frozen = false ∧ b = s.block

/-- The same for a command stamped `now`: `b` is the block with its count at the stamp (R83). -/
def State.readyAt (s : State) (now : Ft) (b : Block) : Prop :=
  s.block.rst.groups = false ∧ s.block.frozen = false ∧ b = s.block.advance now

/-- The same for a command of the MPU, once accesses are accepted. -/
def State.mgmtReady (s : State) (now : Ft) (b : Block) : Prop := s.readyAt now b ∧ b.accepts = true

/-- The state after a command: the block it leaves, packets whose event it brings taking their outcome (R634). -/
def State.done (s : State) (b : Block) : State := { s with block := b.settle }

/-- The state after a command of a part that a global stop leaves running. -/
def State.put (s : State) (b : Block) : State := { s with block := b }

/-- `p` is the accepted packet of opcode `op` that its home core, running, carries out next, and it passes the checks of
its length, its descriptor and its buffer (R622, R625); `b` is the block at the stamp without that packet. -/
def State.serves (s : State) (now : Ft) (op : Nat) (p : Pkt) (b : Block) : Prop :=
  s.block.rst.groups = false ∧ s.block.frozen = false ∧
  ((s.block.advance now).hiu.accepted.find? fun (q : Pkt) => homeOf q.opcode == homeOf op) = some p ∧
  p.opcode = op ∧ (s.block.advance now).homeRuns (homeOf op) = true ∧
  max ((minLen op).getD 0) (if p.flags = 0 then 0 else 0x30) ≤ p.length ∧ b.descriptorOk p = true ∧
  (p.hasBuf = true → p.payload.isSome = true) ∧
  b = { s.block.advance now with hiu := { (s.block.advance now).hiu with
    accepted := (s.block.advance now).hiu.accepted.erase p } }

/-- The state after a packet: the block it leaves, the next packets going on (R628). -/
def State.served (s : State) (b : Block) : State := { s with block := b.takeNext.settle }

/-- The commands that act while the reset groups are asserted (R714): the power-on reset, the release of the warm reset,
and the instructions the TAP always serves (R819). -/
def actsInReset : Instr → Bool
  | .powerOnReset | .warmResetRelease | .tapReset | .idcode | .bypass | .samplePreload .. | .extest .. => true
  | _ => false

/-- The commands that act after the cut of a global stop (Table 16-15): the warm reset, reads, the time base and the
protection of the regulators; and the end of the stop itself. -/
def actsAfterCut : Instr → Bool
  | .warmrstNAssert .. | .warmResetGroupsAssert | .tickBoundary .. | .l5Expiry .. | .lowWordRead .. | .regRead ..
  | .regAccess .. | .pwmPeriod .. | .peakLimit .. | .phaseTrip .. | .tripWaitEnd .. | .zeroCross .. | .overRating ..
  | .prebiasRelease .. | .softstartComplete .. | .shortDetected .. | .hiccupEnd .. | .retryReset .. | .stopComplete ..
  | .overvoltage .. | .overvoltageRelease .. | .undervoltage .. | .senseFault .. | .globalStopComplete .. => true
  | i => actsInReset i

/-- The commands whose effect is a DMA write to the ring region (R585). -/
def writesRegion : Instr → Bool
  | .completionWrite .. | .globalStopComplete .. => true
  | _ => false

/-- `n` steps. -/
def stepN : Nat → State → Host.Outcome State Fault Refusal
  | 0, s => .next s
  | n + 1, s => match step s with
    | .next t => stepN n t
    | o => o

end Sys2Proof.Machine
end

