-- ==== Sys2Proof/Certificates/Slice0/Obligations.lean ====
section
/-! DEFINITION. The statements for the provers, from the numbered rules of spec/. -/
open Sys2Proof Sys2Proof.Machine

/-! ## The commands complete, family by family -/

/-- Resets (R693, R720, R722-R725, R777, 18_reset_states_bringup.md): what each leaves, with its named operation. -/
def Obligations.ResetsComplete : Prop :=
  (∀ s : State, ∃ b, exec .powerOnReset s = .next (s.put b) ∧
    b.rst = RstS.reset ∧ b.time = TimeS.reset ∧ b.fc = FcS.reset ∧ b.hiu = HiuS.reset ∧ b.power = PowerS.reset ∧
    b.clk = ClkS.reset ∧ b.fwc = FwcS.reset) ∧
  (∀ (s : State) (now : Ft) (b : Block), s.readyAt now b → b.rst.warm = false →
    exec (.warmrstNAssert now) s =
      .next (s.put (({ b.noteReset 1 with rst := ⟨true, false⟩ }).forAll (List.range 72) Block.cmdDisable))) ∧
  (∀ (s : State) (now : Ft) (b : Block), s.readyAt now b → b.rst.warm = false →
    exec (.warmReq now) s =
      .next (s.done (({ (b.setFld F.HUB_RESET_CTRL_warm_req 1).noteReset 2 with rst := ⟨true, false⟩ }).forAll
        (List.range 72) Block.cmdDisable))) ∧
  (∀ (s : State) (b : Block), s.ready b → b.rst.warm = true → b.railsDown = true →
    exec .warmResetGroupsAssert s = .next (s.put b.warmGroups)) ∧
  (∀ s : State, s.block.rst.groups = true → ∃ b, exec .warmResetRelease s = .next (s.put b) ∧
    b = ({ s.block with rst := RstS.reset } : Block).showRetired.bootSelect) ∧
  (∀ (s : State) (now : Ft) (b : Block), s.readyAt now b → b.rst.warm = false → ∃ c : Block,
    exec (.qvSoft now) s = .next (s.done c.bootSelect) ∧
    c.now = b.now ∧ c.timeState = b.timeState ∧ c.time.ticking = b.time.ticking ∧ c.posts = b.posts ∧
    c.vdoms = b.vdoms ∧ c.slices = b.slices ∧ c.hiu.jobs = [] ∧ c.hiu.accepted = [] ∧
    (c.bootAdopt.bootOk = true → c.bootSelect.posts = b.posts ∧ c.bootSelect.vdoms = b.vdoms ∧
      c.bootSelect.slices = b.slices ∧ c.bootSelect.now = b.now)) ∧
  (∀ (s : State) (b : Block) (bad : List FuseWord), s.ready b → b.flag F.HUB_BOOT_STATUS_fuses_loaded = false →
    exec (.fuseShadowLoaded bad) s = .next (s.done (b.loadShadow bad)) ∧
    (b.loadShadow bad).fld F.HUB_BOOT_STATUS_fuses_loaded = 1) ∧
  (∀ (s : State) (b : Block) (misr : List DWord) (unrep : BitVec 16) (rows cols : Nat), s.ready b →
    b.flag F.BTC_STATUS_bist_done = false → b.flag F.HUB_BOOT_STATUS_fuses_loaded = true →
    ∃ c : Block, exec (.bistComplete misr unrep rows cols) s =
      .next (s.done (((c.mbistResult unrep.toNat rows cols).setFld F.BTC_STATUS_bist_done 1).bistFaults)) ∧
      ∀ k < 5, c.fld (F.BTC_LBIST_MISR_misr k) = (misr.getD k 0).toNat)

/-- Time and its boundaries (02_fabric_time_and_ticks.md R83-R90, R96, R98): a marker in ACQUIRING loads the count, a
missing one is counted, and a boundary command presents the next tick, epoch and thermal step. -/
def Obligations.TimeCommandsComplete : Prop :=
  (∀ (s : State) (now marker : Ft) (gap : Nat) (b : Block), s.readyAt now b → b.timeState = 0 → b.time.loaded = false →
    marker.toNat % 65536 = 0 → b.time.strobed = false →
    exec (.fabMarkStrobe marker true gap now) s =
      .next (s.done ((b.strobeSeen.loadMarker marker).goodMarker 0))) ∧
  (∀ (s : State) (now marker : Ft) (gap : Nat) (b : Block), s.readyAt now b → (b.timeState ≠ 0 ∨ b.time.loaded = true) →
    marker.toNat % 65536 = 0 → (b.time.strobed = false ∨ 1024 < gap) →
    exec (.fabMarkStrobe marker true gap now) s =
      .next (s.done (b.strobeSeen.goodMarker ((b.time.count.toNat : Int) - marker.toNat)))) ∧
  (∀ (s : State) (now : Ft) (b : Block), s.readyAt now b → b.timeState ≠ 1 → markerLimit ≤ b.time.timer →
    ∃ t, exec (.markerMissing now) s = .next t ∧ t.block.time.timer = b.time.timer - markerLimit ∧
    t.block.fld F.CTU_FT_STATUS_markers_missed = satU F.CTU_FT_STATUS_markers_missed.width
      (b.fld F.CTU_FT_STATUS_markers_missed + 1) ∧ t.block.time.goodRun = 0 ∧ t.block.time.offsets = []) ∧
  (∀ (s : State) (b : Block), s.ready b → b.timeState = 0 → b.time.loaded = false →
    10000000 ≤ b.time.count.toNat →
    exec .acquiringTimeout s =
      .next (s.done (({ b with time := { b.time with count := 0 } }).setTimeState 3 0))) ∧
  (∀ (s : State) (b : Block) (bmem : List (List (Option Int))), s.ready b → b.time.ticking = true →
    (∀ o, b.time.corr ≠ .step o) →
    exec (.tickBoundary bmem) s =
      .next (s.put (b.slewed.presentTick ((b.time.count.toNat / 1024 + 1) * 1024) bmem).settle)) ∧
  (∀ (s : State) (b : Block) (lanes : List Bool), s.ready b → b.time.epoch < b.tick / 16 →
    exec (.epochBoundary lanes) s = .next (s.done (b.epochBoundary lanes))) ∧
  (∀ (s : State) (b : Block) (polls : List (Option Int × Option (BitVec 16))), s.ready b → b.time.step < b.tick / 128 →
    exec (.thermalStepBoundary polls) s =
      .next (s.done ((({ b with time := { b.time with step := b.tick / 128 } }).tmeBoundary).forAll (List.range 24)
        fun c k => (c.pollStack k (polls.getD k (none, none)).1 (polls.getD k (none, none)).2).stackRefhi k)))

/-- The sidebands of the dies (01_architecture.md R64-R78): training, up, down, and an error of one direction. A flit goes
exactly where a credit of its channel is held or owed, with its source, its slot in the CRC group and its body; on every
channel of both directions the credits held and owed keep their sum (R65, R67; when they return is the model's, log entry
9). -/
def Obligations.LinkCommandsComplete : Prop :=
  (∀ (s : State) (b : Block) (die : Die), s.ready b → (b.link die.val).state = .up →
    exec (.sidebandLaneLoss die) s = .next (s.done (b.startTraining die.val true)) ∧
      (b.startTraining die.val true).link die.val = { b.link die.val with state := .training, ticks := 0, lost := true } ∧
      (b.startTraining die.val true).flag (F.HUB_SB_STATUS_link_up die.val) = false) ∧
  (∀ (s : State) (b : Block) (die : Die) (lanes8 : Bool), s.ready b →
    (b.link die.val).takes lanes8 = true →
    ∃ c : Block, exec (.linkRetrainComplete die lanes8) s =
        .next (s.done ((c.forAll ((List.range 16).map (16 * die.val + ·)) Block.applyFreq).applyDeep die.val)) ∧
      (c.link die.val).state = .up ∧ (c.relay die.val).merging = false ∧ (c.relay die.val).ceilHeld = none) ∧
  (∀ l : LinkS, (l.takes true = true ↔ l.state = .down ∨ (l.state = .training ∧ l.lost = false)) ∧
    (l.takes false = true ↔ l.state ≠ .up)) ∧
  (∀ (s : State) (b : Block) (die : Die), s.ready b → (b.link die.val).state ≠ .down →
    ∃ c : Block, exec (.linkDown die) s =
        .next (s.done (c.forAll ((List.range 16).map (16 * die.val + ·)) fun c n => c.marginExit n 5 true false)) ∧
      (c.link die.val).state = .down ∧ (c.relay die.val).merging = true ∧
      ((b.relay die.val).parked = [] → (c.relay die.val).fifo = (b.relay die.val).fifo.foldl fifoMerge [])) ∧
  (∀ (s : State) (now : Ft) (b : Block) (die : Die) (up : Bool), s.readyAt now b → (b.link die.val).state = .up →
    ∃ c : Block, c = (b.setLink die.val
        { b.link die.val with replays := min 255 ((b.link die.val).replays + 1) }).cntDie die.val 0 ∧
      exec (.sidebandCrcMismatch die up now) s =
        .next (s.done (if up then c.raise 11 3 die.val else c.relayFault die.val 11 3 die.val))) ∧
  (∀ (x back : SbDir) (vc type source : Nat) (body : DWord), vc < 4 → x.flow.credits.length = 4 →
    x.flow.owed.length = 4 → back.flow.credits.length = 4 → back.flow.owed.length = 4 →
    (x.send back vc type source body = none ↔ x.flow.credits.getD vc 0 = 0 ∧ x.flow.owed.getD vc 0 = 0) ∧
    ∀ (f : SbFlit) (y z : SbDir), x.send back vc type source body = some (f, y, z) → f.body = body ∧
      (source < 2048 → getBits f.hdr.toNat 5 11 = source) ∧ getBits f.hdr.toNat 2 3 = x.group.length % 8 ∧
      y.group.length = (if 7 ≤ x.group.length then 0 else x.group.length + 1) ∧
      ∀ ch < 4, y.flow.credits.getD ch 0 + y.flow.owed.getD ch 0 = x.flow.credits.getD ch 0 + x.flow.owed.getD ch 0 ∧
        z.flow.credits.getD ch 0 + z.flow.owed.getD ch 0 = back.flow.credits.getD ch 0 + back.flow.owed.getD ch 0)

/-- Registers of the window (R21-R26, R66, R345, R826): an access that its flits can carry acts through the port, one to a
register of the Hub needs none, and a bad one is recorded. -/
def Obligations.WindowAccessesComplete : Prop :=
  (∀ (s : State) (now : Ft) (b c : Block) (port : Fin 3) (off : Fin 16777216) (act : Activity) (r : Except Nat Nat),
    s.readyAt now b → b.accepts = true → off.val % 4 = 0 →
    ((findReg off.val).any fun h => h.row.wide && !h.high) = true →
    (b.sampleFor off.val act).busRead port.val off.val false 0 = some (r, c) →
    exec (.lowWordRead port off ⟨act, now⟩) s = .next (s.put c)) ∧
  (∀ (s : State) (now : Ft) (b c : Block) (req : Fin 4) (off : Fin 16777216) (value : Word) (r : Option Nat),
    s.readyAt now b → b.takesWrite req.val = true → off.val % 4 = 0 →
    ((findReg off.val).any fun h => h.row.wide && !h.high) = true →
    b.busWrite req.val off.val false value.toNat 0 = some (r, c) →
    exec (.lowWordWrite req off value now) s = .next (s.done c)) ∧
  (∀ (s : State) (now : Ft) (b c : Block) (req : Fin 4) (off : Fin 16777216) (value : Word) (r : Option Nat),
    s.readyAt now b → b.takesWrite req.val = true → off.val % 4 = 0 →
    ((findReg off.val).any fun h => h.row.wide && h.high) = true →
    b.busWrite req.val off.val false value.toNat 0 = some (r, c) →
    exec (.highWordWrite req off value now) s = .next (s.done c)) ∧
  (∀ (s : State) (now : Ft) (b c : Block) (req : Fin 4) (off : Fin 16777216) (wide : Bool) (value : DWord)
    (r : Option Nat), s.readyAt now b → b.takesWrite req.val = true → off.val % (if wide then 8 else 4) = 0 →
    b.busWrite req.val off.val wide value.toNat 0 = some (r, c) →
    exec (.registerWrite req off wide value now) s = .next (s.done c)) ∧
  (∀ (b : Block) (req off v syn : Nat) (wide : Bool), viaDie off = none → (wide = true → viaDie (off + 4) = none) →
    b.busRead req off wide syn = some (b.portRead req off wide syn) ∧
    b.busWrite req off wide v syn = some (b.portWrite req off wide v syn)) ∧
  (∀ (s : State) (now : Ft) (b : Block) (port : Fin 3) (off : Fin 16777216) (write : Bool) (len : Nat) (syn : Byte),
    s.readyAt now b → b.accepts = true → (len ≠ 4 ∧ len ≠ 8) →
    exec (.accessError port off write len true syn now) s =
      .next (s.done (b.accessError port.val 0 off.val write syn.toNat)))

/-- Commands and segments at a Post (03_activity_sensing.md R122-R133, R354): the latch, the boundaries of commands, the
accumulator, the snapshot hold, publications and power-up. -/
def Obligations.PostCommandsComplete : Prop :=
  (∀ (s : State) (b : Block) (tile : Tile) (act : Activity) (reading : Option Int), s.ready b →
    (b.post tile.val).runs = true → (b.post tile.val).closing = true →
    exec (.postTickLatch tile act reading) s = .next (s.done (b.tickLatch tile.val act reading))) ∧
  (∀ (s : State) (now : Ft) (b : Block) (tile : Tile) (tag : Half) (act : Activity) (g : PGrant), s.readyAt now b →
    (b.post tile.val).runs = true → (b.post tile.val).gate = true → ((b.post tile.val).grants.find? fun g =>
      g.released && g.tag == tag.toNat && decide (b.now / 32 < g.win + 3)) = some g →
    ∃ c : Block, c = ((b.countPost tile.val act).boundary tile.val g.tag g.ctx g.cls g.dflt false).countLaunch tile.val ∧
      exec (.commandLaunch tile tag act false now) s = .next (s.done (((c.setPost tile.val { c.post tile.val with
        running := (c.post tile.val).running + 1
        grants := (c.post tile.val).grants.filter (· != g) }).showGate tile.val).startResid tile.val))) ∧
  (∀ (s : State) (now : Ft) (b : Block) (tile : Tile) (act : Activity), s.readyAt now b →
    (b.post tile.val).runs = true → (b.post tile.val).running = 1 →
    ∃ c : Block, c = (b.countPost tile.val act).boundary tile.val 0 0 0 false false ∧
      exec (.commandCompletion tile act false now) s = .next (s.done
        (((c.setPost tile.val { c.post tile.val with running := 0 }).startResid tile.val).idleNotice tile.val
          (b.post tile.val).ctx))) ∧
  (∀ (s : State) (now : Ft) (b : Block) (tile : Tile) (act : Activity) (atLatch : Bool), s.readyAt now b →
    (b.post tile.val).runs = true → 1 < (b.post tile.val).running →
    exec (.commandCompletion tile act atLatch now) s = .next (s.done (b.setPost tile.val
      { b.post tile.val with running := (b.post tile.val).running - 1 }))) ∧
  (∀ (s : State) (b : Block) (tile : Tile), s.ready b → (b.post tile.val).runs = true →
    exec (.segmentAdd tile) s = .next (s.done ((b.addSegment tile.val).sendDigs tile.val))) ∧
  (∀ (s : State) (b : Block) (tile : Tile), s.ready b → b.flag (F.POST_CTRL_snap_hold tile.val) = true →
    1024 ≤ (b.post tile.val).holdTicks →
    exec (.snapHoldExpiry tile) s = .next (s.done ((b.setFld (F.POST_CTRL_snap_hold tile.val) 0).setPost tile.val
      { b.post tile.val with holdTicks := 0 }))) ∧
  (∀ (s : State) (now : Ft) (b c : Block) (tile : Tile) (flip : List Half) (pub : Pub) (rest : List Pub), s.readyAt now b →
    (b.post tile.val).runs = true → (b.post tile.val).pubs = pub :: rest → b.carryPub tile.val pub = some c →
    exec (.weightPublication tile flip now) s = .next (s.done
      ((c.setPost tile.val { c.post tile.val with pubs := (c.post tile.val).pubs.drop 1 }).publication tile.val pub flip))) ∧
  (∀ (s : State) (b : Block) (tile : Tile), s.ready b → b.mayPower tile.val = true →
    exec (.postPowerUp tile) s = .next (s.done (b.postUp tile.val)))

/-- A chain and its Posts' records (R140-R148, R218-R221, R500, R501): a Sheaf goes up as the word of Table 03-3, once the
chain takes its flit; it is received at once, waits in a hop's buffer while the FIFO is full, and is discarded at the hop
of an isolated Post. A flit that fails its CRC is kept, with its credit; a NAK resends every flit that was not
acknowledged; and faults and regressors travel. -/
def Obligations.ChainCommandsComplete : Prop :=
  (∀ (s : State) (now : Ft) (b d : Block) (tile : Tile) (flip : DWord) (x : WSheaf) (rest : List WSheaf), s.readyAt now b →
    (b.post tile.val).runs = true → b.sheafRoom tile.val = true →
    (b.post tile.val).sheafs = x :: rest → b.pnClear tile.val 2 = true →
    b.upFlit tile.val 2 1 (sheafWord tile.val x) = some d →
    ∃ c : Block, (c.post tile.val).sheafs = rest ∧ c.fld (F.POST_SHEAF_LAST_sheaf tile.val) = (sheafWord tile.val x).toNat ∧
      (∀ n, c.wire n = d.wire n ∧ c.chain n = d.chain n) ∧
      exec (.sheafAtRelay tile flip now) s = .next (s.done
        ((c.hopSheaf tile.val (sheafWord tile.val x ^^^ flip)).sendDigs tile.val))) ∧
  (∀ (b : Block) (tile : Tile) (w : DWord), b.hopDrops tile.val = true → b.hopSheaf tile.val w = b) ∧
  (∀ (b : Block) (tile : Tile) (w : DWord), b.hopDrops tile.val = false → (b.relay (dieOfTile tile.val)).parked = [] →
    ((b.relay (dieOfTile tile.val)).merging = true ∨ (b.relay (dieOfTile tile.val)).fifo.length < 512) →
    ∃ c : Block, b.hopSheaf tile.val w = c.sheafAtRelay tile.val w.toNat ∧
      c.relay (dieOfTile tile.val) = b.relay (dieOfTile tile.val) ∧ c.posts = b.posts ∧ c.tiles = b.tiles) ∧
  (∀ (b : Block) (tile : Tile) (w : DWord), b.hopDrops tile.val = false →
    (b.relay (dieOfTile tile.val)).merging = false → 512 ≤ (b.relay (dieOfTile tile.val)).fifo.length →
    b.hopSheaf tile.val w = b.setRelay (dieOfTile tile.val) { b.relay (dieOfTile tile.val) with
      parked := (b.relay (dieOfTile tile.val)).parked ++ [(tile.val, w)] }) ∧
  (∀ (b : Block) (tile : Tile) (pn type : Nat) (body : DWord), b.hopDrops tile.val = true →
    b.upFlit tile.val pn type body = some b) ∧
  (∀ (s : State) (now : Ft) (b c : Block) (dom : CoreDom) (down : Bool) (hop : Fin 16) (channel : Fin 5) (body : DWord),
    s.readyAt now b → (down = true → channel.val ≠ 4) → b.chLost dom.val ⟨down, hop.val, channel.val, body, true⟩ = some c →
    exec (.chainCrcError ⟨dom, down, hop⟩ channel body now) s =
      .next (s.done ((c.cntDie (dom.val / 16) 7).relayFault (dom.val / 16) 12 0 dom.val)) ∧
    (∃ l : List Kept, (c.wire dom.val).kept = l ++ [⟨down, hop.val, channel.val, body, true⟩] ∧
      (∀ x ∈ l, x ∈ (b.wire dom.val).kept) ∧ ∀ x ∈ (b.wire dom.val).kept, x.bad = true → x ∈ l) ∧
    (c.chain dom.val).nak.contains (down, hop.val) = true) ∧
  (∀ (s : State) (b : Block) (dom : CoreDom) (down : Bool) (hop : Fin 16) (channel : Fin 5), s.ready b →
    (b.chain dom.val).nak.contains (down, hop.val) = true →
    ∃ c : Block, exec (.chainNak ⟨dom, down, hop⟩ channel) s =
        .next (s.done (c.forAll (tilesOf dom.val) fun c t => c.sendWaiting t)) ∧
      (c.chain dom.val).nak = (b.chain dom.val).nak.filter (· != (down, hop.val)) ∧
      (c.wire dom.val).resent = (b.wire dom.val).resent ++
        ((b.wire dom.val).kept.filter fun x => x.on down hop.val channel.val && x.bad).map
          (fun x => { x with bad := false }) ∧
      (c.wire dom.val).kept =
        (b.wire dom.val).kept.map (fun x => if x.on down hop.val channel.val then { x with bad := false } else x) ∧
      (down = true → (c.wire dom.val).down =
        (b.wire dom.val).down + ((b.wire dom.val).kept.filter fun x => x.on down hop.val channel.val).length) ∧
      (down = false → (c.wire dom.val).up =
        (b.wire dom.val).up + ((b.wire dom.val).kept.filter fun x => x.on down hop.val channel.val).length)) ∧
  (∀ (s : State) (b : Block) (tile : Tile), s.ready b → 64 ≤ (b.tile tile.val).silent → (b.post tile.val).open_ = false →
    exec (.postSilent tile) s = .next (s.done (b.relayFault (dieOfTile tile.val) 9 6 tile.val))) ∧
  (∀ (s : State) (b : Block) (dom : CoreDom), s.ready b → 16 ≤ (b.chain dom.val).quiet →
    ((tilesOf dom.val).any fun t => (b.post t).powered) = true →
    exec (.chainStalled dom) s = .next (s.done (b.relayFault (dom.val / 16) 12 1 dom.val))) ∧
  (∀ (s : State) (now : Ft) (b : Block) (tile : Tile) (x : FaultIn), s.readyAt now b → (b.post tile.val).runs = true →
    exec (.postFault tile (some x) now) s = .next (s.done (b.postFault tile.val x.group.val x.source.val x.ended))) ∧
  (∀ (s : State) (now : Ft) (b : Block) (tile : Tile), s.readyAt now b → (b.post tile.val).runs = true →
    exec (.postFault tile none now) s = .next (s.done (b.postSendFault tile.val))) ∧
  (∀ (s : State) (b d : Block) (tile : Tile) (ep : Nat) (prob up : Bool), s.ready b →
    (b.post tile.val).runs = true → (b.post tile.val).sheafs = [] → b.pnClear tile.val 2 = true →
    512 ≤ b.now % 1024 → b.now % 1024 ≤ 895 →
    (b.post tile.val).reg = some (ep, prob, up) → (b.chain (domOfTile tile.val)).due.isSome = true →
    (b.chain (domOfTile tile.val)).regEpoch = ep → b.tick < 16 * (ep + 1) + 4 →
    b.upFlits tile.val 2 (postRegFlits tile.val ep prob up
      ((List.range 32).map fun i => regK ((b.post tile.val).kcap.getD i 0))) = some d →
    ∃ c : ChainS, exec (.postRegressorRecord tile) s = .next (s.done
        (if d.hopDrops tile.val = true then d.setPost tile.val { d.post tile.val with reg := none }
         else (d.setPost tile.val { d.post tile.val with reg := none }).setChain (domOfTile tile.val) c)) ∧
      c.sums = (List.range 32).map (fun i => ((b.chain (domOfTile tile.val)).sums.getD i 0 +
        regCode (regK ((b.post tile.val).kcap.getD i 0))) % 2 ^ 32) ∧
      c.mask = setBit (b.chain (domOfTile tile.val)).mask (tile.val % 16) true) ∧
  (∀ (s : State) (b d : Block) (dom : CoreDom) (r : DomRec), s.ready b → (b.chain dom.val).ready = some r →
    16 * (r.epoch + 1) + 4 + dom.val % 16 ≤ b.tick →
    b.sbLows (dom.val / 16) 2 (srcRelay (dom.val / 16)) (r.flits dom.val) = some d →
    ∃ t, exec (.domainRegressorRecord dom) s = .next t ∧ (t.block.chain dom.val).ready = none ∧
      Tab.get (fun _ => none) t.block.wce.recs (64 * (r.epoch % 4) + dom.val) = some r)

/-- The energy attribution's inputs and its work (04_power_estimation.md R156-R190): a Sheaf and a measurement record that
arrive in time are taken, one that is late is dropped, and a tick is evaluated and published. -/
def Obligations.AttributionCommandsComplete : Prop :=
  (∀ (s : State) (now : Ft) (b c : Block) (die : Die) (e : FifoE) (rest : List FifoE), s.readyAt now b →
    (b.relay die.val).fifo = e :: rest → b.sbLow die.val 1 0x01 e.tile e.word = some c →
    exec (.sheafAtHub die now) s = .next (s.done
      ((((c.setRelay die.val { c.relay die.val with fifo := rest }).unpark die.val 1).sheafAtHub e).setFld
        F.HUB_BOOT_STATUS_first_sheaf 1))) ∧
  (∀ (s : State) (now : Ft) (b : Block) (die : Die) (record : DWord), s.readyAt now b →
    (b.relay die.val).inHeld = [] → (b.link die.val).inputSent = false →
    (b.sbUp die.val 0 0x10 (srcRelay die.val) record).isSome = true →
    b.now ≤ (expandStamp 8 b.tick (getBits record.toNat 56 8) + 2) * 1024 → ∃ (t : State) (r : InRec),
    exec (.inputSenseRecord die record now) s = .next t ∧ t.block.lg.recs = b.lg.recs.set die.val (some r) ∧
      r.tick = expandStamp 8 b.tick (getBits record.toNat 56 8) ∧ r.p = 4 * getBits record.toNat 2 22 ∧
      r.valid = (!parity 64 record.toNat && bit record.toNat 1) ∧
      (t.block.vslice die.val).vin16.value = vin16Of r.valid r.vIn) ∧
  (∀ (s : State) (now : Ft) (b c : Block) (dom : Dom) (m : Meas) (rest : List Meas), s.readyAt now b →
    (b.vdom dom.val).out = m :: rest →
    b.sbLow (dieOfDom dom.val) 2 0x16 (srcRelay (dieOfDom dom.val)) (m.word dom.val) = some c →
    b.now ≤ ((measOfWord b.tick (m.word dom.val)).tick + 2) * 1024 →
    ∃ t, exec (.domainMeasurementRecord dom now) s = .next t ∧ (t.block.vdom dom.val).out = rest ∧
      Tab.get (fun _ => none) t.block.ea.meas dom.val = some (measOfWord b.tick (m.word dom.val))) ∧
  (∀ (s : State) (now : Ft) (b : Block), s.readyAt now b → 2 ≤ b.tick → b.ea.evalTick ≠ some (b.tick - 2) →
    b.inDeep = false → exec (.eaEvaluation now) s = .next (s.done b.eaEvaluate)) ∧
  (∀ (s : State) (now : Ft) (b : Block) (r : EaRes), s.readyAt now b → b.ea.staged = some r →
    (r.tick + 3) * 1024 ≤ b.now →
    exec (.eaPublication now) s = .next (s.done
      (((b.publishEa.sampleCounters ((r.tick + 1) * 1024)).traceTick r.tick r).forAll (List.range 4)
        fun c i => c.telPublish i r.tick r)))

/-- The live calibration (05_live_calibration.md R222-R243): the update of an epoch, results made visible, restores, and
the life of an image: formed, released or lapsed, and the factory set. -/
def Obligations.WinnowCommandsComplete : Prop :=
  (∀ (s : State) (b : Block), s.ready b → 0 < b.dueEpoch → 40 ≤ b.tick → b.wce.updated ≠ b.dueEpoch →
    b.power.hold = false → ∃ t, exec .winnowUpdate s = .next t ∧ t.block.wce.updated = b.dueEpoch ∧
      t.block.wce.resultEpoch = b.dueEpoch * 16384 ∧ t.block.wce.insts = b.wce.insts ∧
      t.block.wce.enter = b.fld F.WCE_CFG_conf_enter ∧
      t.block.wce.results = ((List.range 72).filter fun d => decide ((b.winst d).since < b.dueEpoch * 16384)).map fun d =>
        (d, (b.takeEnter.winnowDom (b.dueEpoch - 1) d).1, (b.takeEnter.winnowDom (b.dueEpoch - 1) d).2)) ∧
  (∀ (s : State) (b : Block), s.ready b → b.wce.results.isEmpty = false → b.wce.resultEpoch + 32768 ≤ b.tick * 1024 →
    b.time.epoch = b.tick / 16 →
    ∃ c : Block, exec .winnowResultsVisible s = .next (s.done (c.setFld F.WCE_LAST_EPOCH_ft b.wce.resultEpoch)) ∧
      c = (({ b with wce := { b.wce with results := [] } }) : Block).forAll b.wce.results
        fun c r => c.winnowResult r.1 r.2.1 r.2.2) ∧
  (∀ (s : State) (b : Block) (dom : Dom), s.ready b →
    exec (.wceDomRestore dom) s = .next (s.done (b.setFld (F.WCE_DOM_CTRL_restore dom.val) 1))) ∧
  (∀ (s : State) (b : Block), s.ready b → exec .wceRestoreAll s = .next (s.done (b.setFld F.WCE_CTRL_restore_all 1))) ∧
  (∀ (s : State) (b c : Block), s.ready b → b.wce.pubSeen ≠ b.tick / 1024 → b.time.epoch = b.tick / 16 →
    c = (({ b with wce := { b.wce with
      pubSeen := b.tick / 1024, delay := b.fld F.WCE_PUB_CFG_swap_delay } } : Block).commitSet).showResults →
    c.flag F.WCE_CTRL_pub_en = true → c.wce.factory.isSome = true →
    (c.wce.formed.any (·.at_ == b.tick / 1024 * 1024)) = false →
    exec .publicationBoundary s = .next (s.done (c.formImage (b.tick / 1024 * 1024)))) ∧
  (∀ (b : Block) (p : Nat), b.wce.released = none → b.formImage p = { b with wce := { b.wce with
    formed := (b.wce.formed.filter fun f => f.at_ != p) ++ [⟨b.snapshot, p, p + b.wce.delay, b.wce.setDue⟩] } }) ∧
  (∀ (b : Block) (p : Nat), b.wce.released.isSome = true → b.formImage p = b.incSat F.WCE_STATUS_pub_skipped) ∧
  (∀ (s : State) (b c : Block) (x : Formed), s.ready b →
    (b.wce.formed.find? fun x => decide (x.at_ + 4 ≤ b.tick) && decide (b.tick + 16 < x.swap)) = some x →
    b.coreRuns 2 = true → b.wce.released = none → c = (if (x.factory && b.wce.setDue) = true then b.publishSet else b) →
    exec .imageRelease s = .next (s.done
      ((({ c with wce := { c.wce with formed := c.wce.formed.erase x, released := some (x.image, x.swap) }
                  time := { c.time with sched := c.time.sched ++ [(x.swap, Sched.weights)] } } : Block).sendImages
        x.image).setFld F.WCE_STATUS_pub_pending 1))) ∧
  (∀ (s : State) (b : Block) (x : Formed), s.ready b →
    (b.wce.formed.find? fun x => decide (x.swap ≤ b.tick + 16)) = some x →
    exec .imageLapse s = .next (s.done
      (({ b with wce := { b.wce with formed := b.wce.formed.erase x } }).incSat F.WCE_STATUS_pub_lapsed))) ∧
  (∀ (s : State) (b : Block) (l : List WFactory) (flag : Bool) (dig ep : Nat), s.ready b →
    b.wce.pendingSet = some (l, flag, dig, ep) → ep < b.time.epoch →
    ∃ c : Block, c = (({ b with wce := { b.wce with
        pendingSet := none, factory := some l, factoryFlag := flag, digCfg := dig, setDue := true } }) : Block).forAll
          (List.range 72) Block.restoreInst ∧
      exec .factorySetCommit s = .next (s.done (c.formImage (b.time.epoch * 16))))

/-- Package power and levels (06_limits_and_budgets.md R257-R285): the evaluation of a tick, the steps of the level, what
reaches a Relay, and the records that come back. -/
def Obligations.GuardCommandsComplete : Prop :=
  (∀ (s : State) (now : Ft) (b : Block), s.readyAt now b → 2 ≤ b.tick → b.lg.evalTick ≠ some (b.tick - 2) →
    ∃ c d : Block, c = { (b.lgInputs (b.tick - 2)).2 with
        lg := { (b.lgInputs (b.tick - 2)).2.lg with evalTick := some (b.tick - 2) } } ∧
      d = (((c.deepPower (b.tick - 2)).lgLadder (b.tick - 2) (b.lgInputs (b.tick - 2)).1.1
        (b.lgInputs (b.tick - 2)).1.2.2).forAll (List.range 24) fun c n => c.stackThrot n).forAll (List.range 4)
          (fun c n => c.stackTick n) ∧
      exec (.lgEvaluation now) s = .next (s.done (d.cntPkg (d.fld F.LG_STATUS_level + 1)).sendAction.coolUpdate)) ∧
  (∀ (s : State) (b : Block), s.ready b → b.fld F.LG_CTRL_hold_ticks ≤ b.lg.under → 0 < b.fld F.LG_STATUS_level →
    b.fld F.LG_STATUS_level < 5 →
    exec .lgLevelStepDown s = .next (s.done ((({ b with lg := { b.lg with under := 0 } }).setFld F.LG_STATUS_level
      (b.fld F.LG_STATUS_level - 1)).sendAction))) ∧
  (∀ (s : State) (b : Block), s.ready b → b.fld F.LG_CTRL_hold_ticks ≤ b.lg.under → b.fld F.LG_STATUS_level = 5 →
    exec .lgLevelStepDown s = .next (s.done
      (({ b with lg := { b.lg with under := 0, restoring := true } } : Block).sendAction))) ∧
  (∀ (s : State) (b : Block), s.ready b → b.fld F.LG_STATUS_level = 5 → b.lg.restoring = true →
    (∀ d < 4, b.flag (F.HUB_SB_STATUS_link_up d) = true → (b.relay d).act.restoring = true) →
    (List.range 64).all b.vidRestored = true →
    exec (.level5RestoreComplete none) s = .next (s.done
      ((({ b with lg := { b.lg with restoring := false } }).setFld F.LG_STATUS_level 4).sendAction))) ∧
  (∀ (s : State) (b : Block) (n : CoreDom), s.ready b → (b.thermS (n.val / 16)).restoring.getD (n.val % 16) false = true →
    b.vidRestored n.val = true →
    exec (.level5RestoreComplete (some n)) s = .next (s.done (b.setRows (n.val / 16) { b.thermS (n.val / 16) with
      tile := (b.thermS (n.val / 16)).tile.set (n.val % 16) ⟨4, 0⟩
      restoring := (b.thermS (n.val / 16)).restoring.set (n.val % 16) false }))) ∧
  (∀ (s : State) (b : Block), s.ready b → b.lg.lowRun = 64 →
    exec .unachievableLimit s = .next (s.done
      ((({ b with lg := { b.lg with lowRun := 65 } }).setFld F.LG_STATUS_unachievable_seen 1).raise 1 0 0))) ∧
  (∀ (s : State) (now : Ft) (b : Block), s.readyAt now b → 0 < b.lg.adj →
    b.fld F.LG_L5_EXPIRY_tick ≤ b.tick → b.lg.adjWrite = none →
    exec (.l5Expiry now) s = .next (s.put b.clearAdj.keepThr.settle)) ∧
  (∀ (s : State) (now : Ft) (b : Block), s.readyAt now b → b.lg.adj < 0 → b.timeState = 1 →
    b.fld F.LG_L5_EXPIRY_tick + 1 ≤ b.tick → b.lg.adjWrite = none →
    exec (.l5Expiry now) s = .next (s.put (if b.fld F.LG_L5_EXPIRY_tick + 1 < b.tick
      then b.clearAdj.keepThr.noteCleared b.lg.adj.natAbs else b.clearAdj.keepThr).settle)) ∧
  (∀ (s : State) (b c : Block) (die : Die) (f : SbFlit) (a : LgAct) (rest : List LgAct), s.ready b →
    (b.relay die.val).lgActs = a :: rest → b.takeDown die.val 0x20 a.word = some (f, c) →
    exec (.lgActionAtRelay die) s = .next (s.done ((c.setRelay die.val
      { c.relay die.val with lgActs := rest, act := a }).forAll (List.range 16) fun c k => c.applyLevel (16 * die.val + k)))) ∧
  (∀ (s : State) (b : Block) (die : Die) (dom : Fin 16), s.ready b →
    b.fld F.LG_CTRL_hold_ticks ≤ ((b.thermS die.val).tile.getD dom.val Row.reset).cool →
    0 < ((b.thermS die.val).tile.getD dom.val Row.reset).level →
    ((b.thermS die.val).tile.getD dom.val Row.reset).level ≠ 5 →
    exec (.thermalLevelFall die dom 0) s = .next (s.done (b.setRows die.val { b.thermS die.val with
      tile := (b.thermS die.val).tile.set dom.val
        ⟨((b.thermS die.val).tile.getD dom.val Row.reset).level - 1, 0⟩ }))) ∧
  (∀ (s : State) (now : Ft) (b c : Block) (die : Die) (f : SbFlit) (bmem : Bool), s.readyAt now b →
    b.flag (F.HUB_SB_STATUS_link_up die.val) = true → b.nextOff die.val 0x11 8 = some (f, bmem, c) →
    ∃ (e : Block) (t : Nat), e = (c.forAll (List.range 16) fun c k => c.setFld
        (F.LG_DOM_STATE_therm_level (16 * die.val + k)) (getBits f.body.toNat (16 + 3 * k) 3)).showLevels.coolUpdate ∧
      t = 256 * die.val + getBits f.body.toNat 5 8 ∧
      exec (.thermalStateRecord die now) s = .next (s.done (if bit f.body.toNat 4 = false then e
        else if bmem = true then e.raise 0 1 die.val
        else e.injecting (e.stim 1 t).isSome fun e => e.raise 0 0 t))) ∧
  (∀ (s : State) (now : Ft) (b : Block) (asserted : Bool), s.readyAt now b →
    exec (.hotNChange asserted now) s = .next (s.done
      (((({ b with lg := { b.lg with hot := asserted } }).setFld F.LG_STATUS_hot (b2n asserted)).follow 1 4 0
        asserted).sendAction)))

/-- Requests at a Post (07_launch_admission.md R304-R311, R326): presented, granted, waited for, refused, revoked, retried,
sent again and withdrawn; and the gate, which opens for three windows and lapses. -/
def Obligations.PostRequestsComplete : Prop :=
  (∀ (s : State) (now : Ft) (b : Block) (tile : Tile) (ctx : Ctx) (tag : Half) (cls : Fin 4096) (lead : Fin 64),
    s.readyAt now b → exec (.tpRequest tile ctx tag cls lead now) s = .next (s.done
      ((b.setPost tile.val { b.post tile.val with pres := (b.post tile.val).pres ++
        [⟨tag.toNat, ctx.val, cls.val, lead.val, 0, 0, none⟩] }).pumpReqs tile.val))) ∧
  (∀ (s : State) (now : Ft) (b c : Block) (tile : Tile) (tag ctx win src debit : Nat) (dflt : Bool) (r : Req),
    s.readyAt now b → (b.post tile.val).runs = true →
    b.popReply tile.val = some (.grant tile.val tag ctx win src debit dflt, c) →
    (b.post tile.val).reqs.find? (·.tag == tag) = some r →
    (c.endReq tile.val tag).window < expandWin b.window win + 3 →
    exec (.grant tile now) s = .next (s.done (((c.endReq tile.val tag).setPost tile.val
      { (c.endReq tile.val tag).post tile.val with grants := ((c.endReq tile.val tag).post tile.val).grants ++
        [⟨tag, ctx, r.cls, expandWin b.window win, dflt, false, false⟩] }).pumpReqs tile.val))) ∧
  (∀ (s : State) (now : Ft) (b c : Block) (tile : Tile) (tag ctx reason retry : Nat), s.readyAt now b →
    (b.post tile.val).runs = true → b.popReply tile.val = some (.wait tile.val tag ctx reason retry, c) →
    exec (.wait tile now) s = .next (s.done (c.mapReq tile.val tag fun r => { r with age := 0, retry := some retry }))) ∧
  (∀ (s : State) (now : Ft) (b c : Block) (tile : Tile) (tag ctx win : Nat) (g : PGrant), s.readyAt now b →
    (b.post tile.val).runs = true → b.popReply tile.val = some (.revoke tile.val tag ctx win, c) →
    ((c.post tile.val).grants.find? fun g => g.tag == tag && !g.released && g.win % 256 == win % 256 &&
      decide (c.now < g.win * 32)) = some g → b.now = c.now → g.void = false →
    exec (.revoke tile now) s = .next (s.done ((c.setPost tile.val
      { c.post tile.val with grants := (c.post tile.val).grants.filter (· != g) }).tpResp tile.val 5 tag))) ∧
  (∀ (s : State) (now : Ft) (b c : Block) (tile : Tile) (tag ctx reason : Nat), s.readyAt now b →
    (b.post tile.val).runs = true → b.popReply tile.val = some (.refuse tile.val tag ctx reason, c) →
    ((c.post tile.val).reqs.any (·.tag == tag)) = true →
    exec (.refuse tile now) s = .next (s.done
      (((c.endReq tile.val tag).tpResp tile.val reason tag).pumpReqs tile.val))) ∧
  (∀ (s : State) (b : Block) (tile : Tile) (tag : Half) (r : Req), s.ready b → (b.post tile.val).runs = true →
    ((b.post tile.val).reqs.find? fun r => r.tag == tag.toNat && r.retry == some 0) = some r →
    exec (.requestRetry tile tag) s = .next (s.done ((b.mapReq tile.val r.tag fun r =>
      { r with age := 0, resends := 0, retry := none }).sendUp (r.flit 1 tile.val)))) ∧
  (∀ (s : State) (b : Block) (tile : Tile) (tag : Half) (r : Req), s.ready b → (b.post tile.val).runs = true →
    ((b.post tile.val).reqs.find? fun r => r.tag == tag.toNat && r.retry.isNone && decide (64 ≤ r.age)) = some r →
    exec (.requestResend tile tag) s = .next (s.done (if r.resends < 3
      then (b.mapReq tile.val r.tag fun r => { r with age := 0, resends := r.resends + 1 }).sendUp (r.flit 1 tile.val)
      else (((b.endReq tile.val r.tag).tpResp tile.val 3 r.tag).postFault tile.val 9 5).pumpReqs tile.val))) ∧
  (∀ (s : State) (now : Ft) (b : Block) (tile : Tile) (tag : Half) (r : Req), s.readyAt now b →
    (b.post tile.val).runs = true → (b.post tile.val).reqs.find? (·.tag == tag.toNat) = some r →
    exec (.requestWithdraw tile tag now) s = .next (s.done
      (((b.endReq tile.val tag.toNat).sendUp (r.flit 2 tile.val)).pumpReqs tile.val))) ∧
  (∀ (s : State) (now : Ft) (b : Block) (tile : Tile), s.readyAt now b → (b.post tile.val).runs = true →
    (b.post tile.val).cal ≠ .running →
    exec (.gateRelease tile now) s = .next (s.done ((b.setPost tile.val { b.post tile.val with
      grants := (b.post tile.val).grants.map fun (g : PGrant) =>
        if g.void = false ∧ g.win ≤ b.window ∧ b.window < g.win + 3 then { g with released := true } else g }).showGate
          tile.val))) ∧
  (∀ (s : State) (now : Ft) (b : Block) (tile : Tile) (g : PGrant), s.readyAt now b → (b.post tile.val).runs = true →
    ((b.post tile.val).grants.find? fun g => decide (g.win + 3 ≤ b.window)) = some g →
    exec (.grantLapse tile now) s = .next (s.done (((b.setPost tile.val
      { b.post tile.val with grants := (b.post tile.val).grants.filter (· != g) }).lapse tile.val g.tag g.ctx
        g.void).showGate tile.val)))

/-- A slice of the Silo and the pool (07_launch_admission.md R306-R344): a request is decided, whatever its flit carries: a
resend of an outstanding grant is answered again, one of a context the tile has not is refused, and one that has credit and
finds its ramp room is granted at the first window that takes it; cancels refund; idle notices end a busy count; windows
pass; and the pool is posted while core 1's tasks run (Table 13-5), divided in each of its three modes, delegated and
reported. -/
def Obligations.SiloCommandsComplete : Prop :=
  (∀ (s : State) (now : Ft) (b c : Block) (tile : Tile) (flip : DWord) (f : UpFlit), s.readyAt now b →
    b.lowerFirst (domOfTile tile.val) = false → b.popUp tile.val 1 = some (f, c) →
    ∃ w tag : Nat, w = (f.word ^^^ flip).toNat ∧ tag = getBits w 32 16 ∧
      exec (.launchRequest tile flip now) s = .next (s.done (
        if parity 64 w = true ∨ getBits w 54 10 ≠ tile.val
        then (c.incSat (F.POST_STATUS_sheaf_discards tile.val)).relayFault (dieOfTile tile.val) 9 0 tile.val
        else match (c.slice (dieOfTile tile.val)).grants.find? fun g =>
            g.tile == tile.val && g.tag == tag && c.outstanding g with
          | some g => c.reply (dieOfTile tile.val) (.grant tile.val tag g.ctx g.win g.src (satU 24 g.debit) g.dflt)
          | none => c.decideReq tile.val (getBits w 48 6) tag (getBits w 20 12) (getBits w 14 6)))) ∧
  (∀ (b : Block) (tile : Tile) (ctx tag cls lead : Nat), (b.slice (dieOfTile tile.val)).badCls.contains cls = false →
    (ctx ≠ b.tileCtx tile.val ∨ ctx = 0 ∨ b.ctxState (dieOfTile tile.val) ctx = 0) →
    b.decideReq tile.val ctx tag cls lead = b.sendRefuse tile.val tag ctx 0) ∧
  (∀ (b : Block) (tile : Tile) (tag cls lead d n lim w : Nat) (x : SiloDom) (ent : ClassE × Bool) (st : List Nat),
    d = dieOfTile tile.val → n = domOfTile tile.val → x = b.sdom n → ent = b.classFor d (b.tileCtx tile.val) cls →
    (b.slice d).badCls.contains cls = false → b.tileCtx tile.val ≠ 0 → b.ctxState d (b.tileCtx tile.val) = 1 →
    (b.tile tile.val).isolated = false → ent.1.defined = true → (b.slice d).stopped = false → (b.slice d).gs = false →
    b.lg.tripped = false → b.fld (F.SILO_DOM_LIM_level n) < 2 → 0 < b.credit d (b.tileCtx tile.val) →
    st = ent.1.ramp.map (fun r => r * x.kf / 16384) →
    lim = max 8 ((if b.fld (F.SILO_DOM_LIM_level n) = 1 then x.step / 2 else x.step) * 8) →
    (((List.range 16).map (b.window + max 2 lead + ·)).find? fun w =>
      !(decide (b.fld (F.SILO_DOM_LIM_level n) = 1) && decide (w % 2 = 1)) &&
        (x.fits w lim st || x.fitsEmpty w lim st)) = some w →
    b.decideReq tile.val (b.tileCtx tile.val) tag cls lead = b.makeGrant tile.val tag (b.tileCtx tile.val) w
      (w - (b.window + max 2 lead)) 0 (ent.1.energy * x.kvt / 16384) st ent.2 (!x.fits w lim st)) ∧
  (∀ (s : State) (now : Ft) (b c : Block) (tile : Tile) (f : UpFlit), s.readyAt now b →
    b.popUp tile.val 2 = some (f, c) → ∃ d : Block, d = c.waitEnds tile.val f.tag ∧
      exec (.cancel tile now) s = .next (s.done (
        match (d.slice (dieOfTile tile.val)).grants.find? fun g =>
            g.tile == tile.val && g.tag == f.tag && decide (d.now < g.win * 32) with
        | some g => d.refund g
        | none => d))) ∧
  (∀ (s : State) (b c : Block) (tile : Tile) (f : UpFlit), s.ready b → b.popUp tile.val 3 = some (f, c) →
    ∃ l : List Grant, l = (c.slice (dieOfTile tile.val)).grants.map (fun (g : Grant) =>
        if (g.tile == tile.val && g.ctx == f.ctx && decide (g.win ≤ c.window)) = true then { g with done := true }
        else g) ∧
      exec (.idleNotice tile) s = .next (s.done ((c.setSlice (dieOfTile tile.val)
        { c.slice (dieOfTile tile.val) with grants := l.filter fun g => !g.done || c.outstanding g }).showBusy f.ctx))) ∧
  (∀ (s : State) (now : Ft) (b : Block), s.readyAt now b → b.silo.lastWin < b.window →
    ∃ c : Block, c = ((({ b with silo := { b.silo with lastWin := b.window } }) : Block).forAll (List.range 64)
        fun c n => c.windowDom n b.silo.lastWin b.window).forAll (List.range 4) (Block.windowDie b.window) ∧
      exec (.limiterWindow now) s = .next (s.done
        (((c.forAll (c.posts.map (·.1)) (Block.windowPost (b.window - b.silo.lastWin))).forAll
          ((List.range 63).map (· + 1)) fun c n => c.showBusy n).showDrain))) ∧
  (∀ (s : State) (b c : Block), s.ready b → b.silo.loading = true → c = b.setFld F.SILO_STATUS_inactive_valid 1 →
    exec .classTableVerified s = .next (s.done { c with silo := { c.silo with loading := false } }) ∧
    c.fld F.SILO_STATUS_inactive_valid = 1) ∧
  (∀ (s : State) (now : Ft) (b : Block), s.readyAt now b → b.coreRuns 1 = true →
    exec (.poolPost now) s = .next (s.done (b.postPool b.poolOf (b.epoch + 1)))) ∧
  (∀ (s : State) (b c : Block) (die : Die) (deb waited busy : List Nat) (k : Nat) (w : DWord), s.ready b →
    (b.slice die.val).report = some (deb, waited, busy) → k = (b.slice die.val).sent →
    w = pairBody (reportEntry (2 * k) (deb.getD (2 * k) 0) (waited.getD (2 * k) 0))
      (reportEntry (2 * k + 1) (deb.getD (2 * k + 1) 0) (waited.getD (2 * k + 1) 0)) →
    b.time.epoch * 16384 + k / 4 * 1024 ≤ b.now → b.sbLow die.val 2 0x14 (srcRelay die.val) w = some c →
    ∃ d : Block, d = c.setSlice die.val { c.slice die.val with
        sent := k + 1, report := if 31 ≤ k then none else (c.slice die.val).report } ∧
      exec (.creditReport die) s = .next (s.done { d with silo := d.silo.takeReport die.val w })) ∧
  (∀ (s : State) (now : Ft) (b c : Block) (n : Nat) (res : List Nat), s.readyAt now b →
    b.silo.divided ≠ some b.epoch → 10240 ≤ b.now % 16384 → b.inDeep = false →
    c = (({ b with silo := { b.silo with divided := some b.epoch, cfgNext := some b.regCfg } }) : Block).forAll
      (List.range 4) (fun c d => c.setSlice d { c.slice d with half := none }) →
    n = sumN ((List.range 4).map b.securingTiles) →
    res = (List.range 4).map (fun d =>
      if n = 0 then 0 else b.fld F.SILO_RESERVE_reserve_mw * 16384 / 1000 * b.securingTiles d / n) →
    (∀ (pool : Nat) (a tot : List Nat), c.poolFor (c.epoch + 1) = some pool → c.flag F.SILO_CTRL_ration_force = false →
      a = (c.divide pool).1.map (fun x => x * 16384 / 1000) →
      tot = (List.range 64).map (fun k => (clampI 0 (2 * a.getD k 0 : Nat) ((a.getD k 0 : Nat) -
        (c.silo.chargedLast.getD k 0 - (sumN ((List.range 4).map fun d => c.repDebited d k) : Nat)))).toNat) →
      ∃ e : Block, e = c.shortfall pool (c.divide pool).2 ∧ exec (.poolDivision now) s = .next (s.done
        { e with silo := { e.silo with
          shares := some (c.divide pool).1, lastA := a, lastR := res, normal := true, nextMode := 0
          out := c.delegations tot res } })) ∧
    ((c.poolFor (c.epoch + 1) = none ∨ c.flag F.SILO_CTRL_ration_force = true) → c.silo.normal = true →
      exec (.poolDivision now) s = .next (s.done { c with silo := { c.silo with
        shares := none, nextMode := 1
        out := c.delegations ((List.range 64).map fun k =>
          if c.activeCtxs.contains k = true then c.silo.lastA.getD k 0 else 0) c.silo.lastR } })) ∧
    ((c.poolFor (c.epoch + 1) = none ∨ c.flag F.SILO_CTRL_ration_force = true) → c.silo.normal = false →
      exec (.poolDivision now) s = .next (s.done { c with silo := { c.silo with
        shares := none, nextMode := 2, out := (List.range 4).map fun _ => some (List.replicate 64 0) } }))) ∧
  (∀ (s : State) (b c : Block) (die : Die) (l : List Nat) (h : Nat) (bodies : List DWord), s.ready b →
    b.silo.out.getD die.val none = some l → h = (if (b.slice die.val).half.isSome = true then 1 else 0) →
    (b.silo.divided = some b.epoch → 12288 + 1024 * h ≤ b.now % 16384) →
    bodies = (List.range 16).map (fun k => pairBody (delegEntry (32 * h + 2 * k) (l.getD (32 * h + 2 * k) 0))
      (delegEntry (32 * h + 2 * k + 1) (l.getD (32 * h + 2 * k + 1) 0))) →
    b.sendDown die.val (bodies.map fun w => (0x15, w)) = some c →
    exec (.delegationReceived die) s = .next (s.done (
      match (c.slice die.val).half with
      | none => c.setSlice die.val { c.slice die.val with half := some (bodies.flatMap delegOf) }
      | some a => (({ c with silo := { c.silo with out := c.silo.out.set die.val none } }) : Block).setSlice die.val
          { c.slice die.val with next := some (a ++ bodies.flatMap delegOf), half := none })))

/-- Lanterns and margin (08_droop_and_margin.md R361-R375, R383): detections stretch, releases and glints are counted,
orders are registered, a tightening slews after its wait, and a calibration ends with a trim or a failure. -/
def Obligations.MarginCommandsComplete : Prop :=
  (∀ (s : State) (now : Ft) (b : Block) (tile : Tile) (mv : Fin 2048) (again : Bool), s.readyAt now b →
    mv.val < (b.chain (domOfTile tile.val)).levels.1 →
    exec (.lanternDetection tile mv again now) s = .next (s.done
      (b.detect tile.val (decide (mv.val < (b.chain (domOfTile tile.val)).levels.2)) again))) ∧
  (∀ (s : State) (b : Block) (tile : Tile) (mv : Fin 2048) (edges : Nat), s.ready b → (b.post tile.val).powered = true →
    ((b.post tile.val).primary = true ∨ (b.post tile.val).deepReq = true) →
    (((b.post tile.val).after4 = true ∧ (b.post tile.val).deepReq = false) ∨ b.releaseLevel tile.val + 5 ≤ mv.val) →
    (b.post tile.val).strHold ≤ edges → (∀ m, b.stim 0 tile.val = some m → m.2 ≤ b.now) →
    exec (.lanternRelease ⟨tile, mv, edges⟩) s = .next (s.done
      ((b.setPost tile.val (if (b.post tile.val).deepReq = true
        then { b.post tile.val with deepReq := false, primary := true, after4 := true }
        else { b.post tile.val with primary := false, after4 := false })).showStretch tile.val))) ∧
  (∀ (s : State) (b : Block) (tile : Tile), s.ready b → (b.post tile.val).powered = true → 256 ≤ (b.post tile.val).stuck →
    exec (.lanternStuck tile) s = .next (s.done
      (b.injecting (b.stim 0 tile.val).isSome fun c => c.postFault tile.val 10 1))) ∧
  (∀ (s : State) (b c : Block) (tile : Tile) (l : Nat), s.ready b → (b.post tile.val).powered = true →
    b.replyWaits (domOfTile tile.val) = false →
    l = (if (b.post tile.val).opening = true then 2 else levelStretch (b.sdom (domOfTile tile.val)).nextLevel.value) →
    b.postDownFlit tile.val 1 1 (withParity (packBits [(62, 2, l)])) = some c →
    exec (.stretchOrder tile) s = .next (s.done
      ((c.setPost tile.val { c.post tile.val with lgStretch := l }).showStretch tile.val))) ∧
  (∀ (s : State) (now : Ft) (b c : Block) (tile : Tile) (k count a : Nat) (deep : Bool), s.readyAt now b →
    (b.post tile.val).summary = some (k, count, a, deep) →
    b.upFlit tile.val 1 1 (glintSummaryWord tile.val k count a deep) = some c →
    exec (.glintSummary tile now) s = .next (s.done
      (if c.hopDrops tile.val = true then c.setPost tile.val { c.post tile.val with summary := none }
       else (c.setPost tile.val { c.post tile.val with summary := none }).takeSummary (domOfTile tile.val)
        (glintSummaryWord tile.val k count a deep)))) ∧
  (∀ (b : Block) (n : Nat) (w : DWord),
    ((b.takeSummary n w).chain n).glintTick = expandStamp 8 b.tick (getBits w.toNat 46 8)) ∧
  (∀ (s : State) (now : Ft) (b x y c : Block) (dom : CoreDom) (mine : SbFlit → Bool) (f : SbFlit) (m : Bool),
    s.readyAt now b → b.flag (F.HUB_SB_STATUS_link_up (dom.val / 16)) = true →
    mine = (fun f => f.type == 3 && getBits f.body.toNat 12 4 == dom.val % 16) →
    x = (if (b.chain dom.val).glintDue.isEmpty = true then b.closeGlints dom.val else b) →
    y = (if (x.offWire (dom.val / 16) mine).isSome = true then x else (x.putGlint dom.val).getD x) →
    y.offWire (dom.val / 16) mine = some (f, m, c) →
    ∃ n, n = sumN ((List.range 16).map fun p => getBits f.body.toNat (16 + 2 * p) 2) ∧
      exec (.glintRecord dom now) s = .next (s.done { c.cntDom dom.val 2 n with fc :=
        { (c.cntDom dom.val 2 n).fc with riskG := (c.cntDom dom.val 2 n).fc.riskG + n } })) ∧
  (∀ (s : State) (b c : Block) (tile : Tile), s.ready b → (b.post tile.val).powered = true →
    b.carryOrder (domOfTile tile.val) = some c →
    exec (.marginOrder tile) s = .next (s.done (c.takeOrder tile.val (c.margin (domOfTile tile.val)).order.toNat))) ∧
  (∀ (b : Block) (t w : Nat), (b.takeOrder t w).fld (F.POST_LANTERN_thr t) = getBits w 60 4 ∧
    (b.takeOrder t w).fld (F.POST_LANTERN_deep t) = getBits w 58 2 ∧
    (b.takeOrder t w).fld (F.POST_LANTERN_div t) = getBits w 57 1 ∧
    ((b.takeOrder t w).post t).strHold = getBits w 48 9) ∧
  (∀ (s : State) (now : Ft) (b : Block) (dom : CoreDom), s.readyAt now b → b.fld (F.LG_MARGIN_MODE_trans dom.val) = 1 →
    (b.margin dom.val).waitSlew = true → (b.margin dom.val).orderAt.toNat + 256 ≤ b.now →
    ∃ c : Block, c = b.setMargin dom.val { b.margin dom.val with
        waitSlew := false, pen := b.penOf dom.val (b.margin dom.val).toMode } ∧
      exec (.marginTightenSlew dom now) s =
        .next (s.done ((c.retarget dom.val 0 (c.domRate dom.val)).transitionReady dom.val))) ∧
  (∀ (s : State) (b : Block) (dom : CoreDom), s.ready b → b.flag (F.LG_MARGIN_MODE_held dom.val) = true →
    (b.margin dom.val).hold = 0 → (b.margin dom.val).holdNext = 0 → b.fld (F.LG_MARGIN_MODE_trans dom.val) = 0 →
    exec (.marginHoldEnd dom) s = .next (s.done
      ((b.setFld (F.LG_MARGIN_MODE_held dom.val) 0).setFld (F.LG_MARGIN_MODE_hold_left dom.val) 0))) ∧
  (∀ (s : State) (now : Ft) (b : Block) (dom : CoreDom) (f : Nat), s.readyAt now b → (b.margin dom.val).pll = .locking f →
    ∃ c : Block, c = (b.setFld (F.LG_MARGIN_FREQ_f_now dom.val) f).setMargin dom.val
        { b.margin dom.val with fVid := f, pll := .idle } ∧
      exec (.pllLock dom now) s =
        .next (s.done (c.retarget dom.val 0 (c.domRate dom.val)).idleExitDone.actTarget)) ∧
  (∀ (s : State) (b : Block) (tile : Tile), s.ready b → b.linkUp (dieOfTile tile.val) = true →
    (b.post tile.val).powered = true → (b.post tile.val).cal = .idle → exec (.calReq tile) s = .next (s.done
      (((b.setPost tile.val { b.post tile.val with cal := .pending }).setFld (F.POST_LANTERN_CAL_cal_busy tile.val) 1).setFld
        (F.POST_LANTERN_CAL_cal_req tile.val) 1))) ∧
  (∀ (s : State) (b : Block) (tile : Tile), s.ready b → (b.post tile.val).runs = true →
    (b.post tile.val).cal = .pending → (b.post tile.val).running = 0 →
    exec (.lanternCalStart tile) s = .next (s.done
      (((b.setPost tile.val { b.post tile.val with cal := .running }).showGate tile.val).noteResid tile.val))) ∧
  (∀ (s : State) (b : Block) (tile : Tile) (level : Fin 2048), s.ready b → (b.post tile.val).runs = true →
    (b.post tile.val).cal = .running →
    ((level.val : Int) - b.fld (F.VRC_DOM_REF_vmean_mv (domOfTile tile.val))).natAbs ≤ 31 →
    ∃ c : Block, exec (.lanternCalEnd tile level) s = .next (s.done (c.readmitCal tile.val)) ∧
      (c.post tile.val).cal = .idle ∧ c.fld (F.POST_LANTERN_CAL_cal_valid tile.val) = 1 ∧
      c.fldI (F.POST_LANTERN_CAL_trim tile.val) =
        (level.val : Int) - b.fld (F.VRC_DOM_REF_vmean_mv (domOfTile tile.val)))

/-- A regulator period, the limits of a phase, the start and the stop of a domain (09_regulator_control.md R387-R421). -/
def Obligations.RegulatorCommandsComplete : Prop :=
  (∀ (s : State) (now : Ft) (b : Block) (dom : Dom) (x y : Fin 4096) (isns : List (Fin 1024)), s.readyAt now b →
    ∃ c d e f : Block, c = (b.periodPhases dom.val).periodBoundary dom.val ∧
      d = (c.periodShed dom.val).periodDe dom.val
        (decide ((c.phasesOn dom.val).length < ((c.periodShed dom.val).phasesOn dom.val).length)) ∧
      e = (d.periodDuty dom.val).periodSense dom.val x.val y.val (isns.map (·.val)) ∧
      f = (if dom.val < 64 then e.driveLevels dom.val else e) ∧
      exec (.pwmPeriod dom (x, y) isns now) s = .next (s.put
        (if dom.val % 16 = 0 ∧ dom.val < 64 then f.periodDco (dom.val / 16) else f))) ∧
  (∀ (s : State) (b : Block) (phase : Phase) (x : VrcPh), s.ready b → b.phState phase.val = 1 →
    (b.vph phase.val).limit (b.stepOf (domOfPhase phase.val)) = some x →
    exec (.peakLimit phase) s = .next (s.put ((b.setVdom (domOfPhase phase.val)
      { b.vdom (domOfPhase phase.val) with tIlim := true }).setVph phase.val { x with
        lim := true, acc := 0, ilimRun := if x.lim = true then x.ilimRun else x.ilimRun + 1 }))) ∧
  (∀ (s : State) (b : Block) (phase : Phase), s.ready b → b.phState phase.val = 1 → (b.vph phase.val).trips.length < 3 →
    ∃ c : Block, c = (((b.setVph phase.val { (b.vph phase.val).cut with
        trips := 0 :: (b.vph phase.val).trips, wait := 1024 }).incSat
          (F.VRC_PH_COUNT_trip_total phase.val)).setFld (F.VRC_PH_STATUS_trips phase.val)
            ((b.vph phase.val).trips.length + 1)).relayFault (dieOfDom (domOfPhase phase.val)) 6 0 phase.val ∧
      exec (.phaseTrip phase) s = .next (s.put ((({ c with fc := { c.fc with riskT := c.fc.riskT + 1 } }).setPhState
        phase.val 3).showPhases (domOfPhase phase.val)))) ∧
  (∀ (s : State) (b : Block) (phase : Phase), s.ready b → b.phState phase.val = 3 → (b.vph phase.val).wait = 0 →
    b.vstate (domOfPhase phase.val) = Vs.run → b.flag (F.VRC_DOM_CTRL_shed_en (domOfPhase phase.val)) = false →
    exec (.tripWaitEnd phase) s = .next (s.put
      (((b.setPhState phase.val 1).showPhases (domOfPhase phase.val)).setFld
        (F.VRC_DOM_STATUS_de_active (domOfPhase phase.val)) 0))) ∧
  (∀ (s : State) (b : Block) (phase : Phase), s.ready b →
    b.flag (F.VRC_DOM_STATUS_de_active (domOfPhase phase.val)) = true → b.phState phase.val = 1 →
    (b.vdom (domOfPhase phase.val)).crowbar = false →
    exec (.zeroCross phase) s = .next (s.put (b.setVph phase.val
      ((b.vph phase.val).zeroAt (b.stepOf (domOfPhase phase.val)))))) ∧
  (∀ (s : State) (b : Block) (phase : Phase), s.ready b → (160 : Int) < ((b.vph phase.val).iAcc).fdiv 131072 →
    (b.vdom (domOfPhase phase.val)).overRun < 131072 →
    ∃ (c e : Block) (shed : List Nat), c = b.setFld (F.VRC_DOM_STATUS_cont_over_seen (domOfPhase phase.val)) 1 ∧
      shed = ((phasesOf (domOfPhase phase.val)).filter fun q => c.phState q == 2) ∧
      e = (c.forAll shed fun e q => (e.setPhState q 1).setVph q { e.vph q with acc := 0 }).showPhases
        (domOfPhase phase.val) ∧
      exec (.overRating phase) s = .next (s.put (if shed.isEmpty = true then e
        else e.setFld (F.VRC_DOM_STATUS_de_active (domOfPhase phase.val)) 0))) ∧
  (∀ (s : State) (b : Block) (dom : Dom), s.ready b → b.mayStart dom.val = true →
    exec (.domainEnable dom) s = .next (s.done (b.startDomain dom.val true))) ∧
  (∀ (s : State) (b : Block) (dom : Dom), s.ready b → b.vstate dom.val = Vs.prebias →
    (b.vdom dom.val).mean16 ≤ 16 * b.targetOf dom.val →
    exec (.prebiasRelease dom) s = .next (s.put (((b.setVdom dom.val { b.vdom dom.val with
      refQ := (b.vdom dom.val).mean16 * 256, integ := 0, dfl := 0, ssRun := 0 }).setFld
        (F.VRC_DOM_STATUS_state dom.val) Vs.soft).allOn dom.val))) ∧
  (∀ (s : State) (b : Block) (dom : Dom), s.ready b → 64 ≤ dom.val → b.vstate dom.val = Vs.soft →
    (b.vdom dom.val).refQ = b.fld (F.VRC_DOM_VID_vid_in_force dom.val) * 4096 →
    ∃ c : Block, c = ((b.setFld (F.VRC_DOM_STATUS_state dom.val) Vs.run).setFld (F.VRC_DOM_CMD_cur dom.val) 1).setVdom
        dom.val { b.vdom dom.val with runRun := 0, stillRun := 0 } ∧
      exec (.softstartComplete dom) s = .next (s.put ({ c with power := { c.power with
        waking := c.power.waking.filter (· != dom.val) } } : Block).bootRuns)) ∧
  (∀ (s : State) (b : Block) (dom : Dom), s.ready b → 64 ≤ dom.val → b.vstate dom.val = Vs.run →
    b.cmdReached dom.val = true →
    exec (.vrcCommandReached dom) s = .next (s.done (b.setFld (F.VRC_DOM_CMD_cur dom.val) 1))) ∧
  (∀ (s : State) (b : Block) (dom : Dom), s.ready b → b.vstate dom.val = Vs.hiccup → (b.vdom dom.val).hiccup = 0 →
    exec (.hiccupEnd dom) s = .next (s.put (b.startDomain dom.val false))) ∧
  (∀ (s : State) (b : Block) (dom : Dom), s.ready b → b.vstate dom.val = Vs.run → 125000 ≤ (b.vdom dom.val).runRun →
    exec (.retryReset dom) s = .next (s.put (b.setFld (F.VRC_DOM_STATUS_retries dom.val) 0))) ∧
  (∀ (s : State) (b : Block) (dom : Dom), s.ready b → b.linkUp (dieOfDom dom.val) = true → b.vstate dom.val = Vs.failed →
    exec (.failClr dom) s = .next (s.done ((b.enterOff dom.val).relayFault (dieOfDom dom.val) 7 1 dom.val true))) ∧
  (∀ (s : State) (b : Block) (dom : Dom), s.ready b → b.linkUp (dieOfDom dom.val) = true → 64 ≤ dom.val →
    b.vstate dom.val = Vs.run → exec (.domainDisable dom) s = .next (s.done ((b.setFld (F.VRC_DOM_CTRL_en dom.val) 0).enterStopping dom.val))) ∧
  (∀ (s : State) (b : Block) (dom : Dom), s.ready b → b.vstate dom.val = Vs.stopping →
    (b.vdom dom.val).refQ ≤ 100 * 4096 → exec (.stopComplete dom) s = .next (s.put (b.enterOff dom.val))) ∧
  (∀ (x y : VrcPh) (w o dtLh dtHl : Nat) (t : Int), y = x.drive w o dtLh dtHl →
    (y.hsAt t && y.lsAt t) = false ∧ x.crowbar.hsAt t = false ∧ x.crowbar.lsAt t = true ∧
    (y.hsAt t = true ↔ ((o : Int) ≤ t ∧ t < o + w) ∨
      ∃ q, x.pulse = some q ∧ q.rise - 256 ≤ t ∧ t < q.rise - 256 + q.width) ∧
    (0 < w → x.ls = true → (o : Int) - dtLh ≤ t → t < o + w + dtHl → y.lsAt t = false) ∧
    (0 < w → x.pulse = none → x.zero = [] → (o : Int) + w + dtHl ≤ t → y.lsAt t = true)) ∧
  (∀ (x y : VrcPh) (p : Pulse) (t u : Int), x.tail = none → x.pulse = some p → p.rise ≤ t → x.limit t = some y →
    t + 16 ≤ u → y.hsAt u = false) ∧
  (∀ (x : VrcPh) (t u : Int), t + 16 ≤ u → (∀ p, x.pulse = some p → t < p.rise → u < p.rise) →
    (x.zeroAt t).lsAt u = false)

/-- Protection, coefficients and the timebase of a slice (09_regulator_control.md R401, R419-R429): every form of each. A
command of the Hub reaches a slice whose link is up (R74). -/
def Obligations.RegulatorProtectionCompletes : Prop :=
  (∀ (s : State) (b : Block) (dom : Dom), s.ready b → b.shorted dom.val = true →
    ∃ c : Block, c = ((b.setFld (F.VRC_DOM_STATUS_short_seen dom.val) 1).setVdom dom.val
        { b.vdom dom.val with shortNow := true }).relayFault (dieOfDom dom.val) 7 0 dom.val ∧
      exec (.shortDetected dom) s = .next (s.put
        (if c.flag (F.VRC_DOM_CTRL_en dom.val) = true then c.enterHiccup dom.val else c.enterOff dom.val))) ∧
  (∀ (s : State) (b : Block) (dom : Dom), s.ready b → 4 ≤ (b.vdom dom.val).ovpRun → b.vstate dom.val ≠ Vs.off →
    (b.vdom dom.val).crowbar = false →
    ∃ c : Block, c = ((b.setVdom dom.val { b.vdom dom.val with
        crowbar := true, ovpAges := 0 :: (b.vdom dom.val).ovpAges, ovpRun := 0 }).setFld
          (F.VRC_DOM_STATUS_ovp_seen dom.val) 1).relayFault (dieOfDom dom.val) 7 2 dom.val ∧
      exec (.overvoltage dom) s = .next (s.put
        (if 3 ≤ (b.vdom dom.val).ovpAges.length then c.enterFailed dom.val else c))) ∧
  (∀ (s : State) (b : Block) (dom : Dom), s.ready b → (b.vdom dom.val).crowbar = true →
    ((b.vdom dom.val).adcA + (b.vdom dom.val).adcB) * 5 / 2 < 16 * b.fld (F.VRC_DOM_VID_vid_in_force dom.val) →
    ∃ c : Block, c = b.setVdom dom.val { b.vdom dom.val with crowbar := false, integ := 0 } ∧
      exec (.overvoltageRelease dom) s = .next (s.put
        (c.forAll ((c.phasesAvail dom.val).filter fun p => c.phState p != 1) fun c p => c.setVph p (c.vph p).cut))) ∧
  (∀ (s : State) (b : Block) (dom : Dom), s.ready b → (b.vstate dom.val = Vs.run ∨ (b.vdom dom.val).shortNow = true) →
    64 ≤ (b.vdom dom.val).uvpRun → 64 ≤ (b.vdom dom.val).stillRun → b.flag (F.VRC_DOM_CTRL_uvp_en dom.val) = true →
    ∃ c : Block, c = (b.setVdom dom.val { b.vdom dom.val with uvpRun := 0 }).setFld (F.VRC_DOM_STATUS_uvp_seen dom.val) 1 ∧
      exec (.undervoltage dom) s = .next (s.put (if ((b.vdom dom.val).shortNow || b.shorted dom.val) = true then c
        else c.relayFault (dieOfDom dom.val) 7 3 dom.val))) ∧
  (∀ (s : State) (b : Block) (dom : Dom), s.ready b → 64 ≤ (b.vdom dom.val).stuckRun →
    (b.vstate dom.val = Vs.soft ∨ b.vstate dom.val = Vs.run) →
    ∃ c : Block, c = (b.setFld (F.VRC_DOM_STATUS_sense_seen dom.val) 1).setVdom dom.val
        { b.vdom dom.val with bad := true, stuckRun := 0 } ∧
      exec (.senseFault dom none) s = .next (s.put (c.injecting ((c.stim 3 dom.val).any (·.1 == 1)) fun c =>
        (c.relayFault (dieOfDom dom.val) 7 4 dom.val).shortEnd dom.val))) ∧
  (∀ (s : State) (b : Block) (dom : Dom) (p : Phase), s.ready b → 64 ≤ (b.vph p.val).stuckRun → b.phState p.val = 1 →
    ∃ c : Block, c = b.setFld (F.VRC_DOM_STATUS_sense_seen (domOfPhase p.val)) 1 ∧
      exec (.senseFault dom (some p)) s = .next (s.put (c.injecting ((c.stim 3 p.val).any (·.1 == 0)) fun c =>
        (c.relayFault (dieOfDom (domOfPhase p.val)) 6 3 p.val).failPhase p.val))) ∧
  (∀ (s : State) (b : Block) (dom : Dom), s.ready b → b.linkUp (dieOfDom dom.val) = true → exec (.coefCommit dom) s =
    .next (s.done (b.setVdom dom.val
      { b.vdom dom.val with commitAt := some ((b.vdom dom.val).commitAt.getD b.edge) }))) ∧
  (∀ (s : State) (b : Block) (phase : Phase), s.ready b → b.linkUp (dieOfDom (domOfPhase phase.val)) = true →
    b.phState phase.val = 4 →
    exec (.phaseRestore phase) s = .next (s.done (((((b.setPhState phase.val 2).setVph phase.val
      { b.vph phase.val with trips := [], acc := 0 }).setFld (F.VRC_PH_STATUS_trips phase.val) 0).relayFault
        (dieOfDom (domOfPhase phase.val)) 6 1 phase.val true).showPhases (domOfPhase phase.val)))) ∧
  (∀ (s : State) (b : Block) (die : Die), s.ready b →
    ∃ c : Block, c = b.setVslice die.val { b.vslice die.val with root := false } ∧
      exec (.syncRelease die) s = .next (s.done
        (if b.fld (F.VRC_SLICE_SYNC_sync_state die.val) = 0 ∨ b.fld (F.VRC_SLICE_SYNC_sync_state die.val) = 3
         then c.setSync die.val 1 else c))) ∧
  (∀ (s : State) (b : Block) (die : Die) (ppm : Int), s.ready b → b.fld (F.VRC_SLICE_SYNC_sync_state die.val) = 1 →
    256 ≤ (b.vslice die.val).moved →
    ∃ x : VrcSlice, x = b.vslice die.val ∧ exec (.syncMoveComplete die ppm) s = .next (s.done ((b.setVslice die.val
      { x with ppm := clampI (x.ppm - 1000) (x.ppm + 1000) (x.drift ppm) }).setSync die.val 2))) ∧
  (∀ (s : State) (b : Block) (die : Die) (ppm : Int), s.ready b → b.fld (F.VRC_SLICE_SYNC_sync_state die.val) = 3 →
    256 ≤ (b.vslice die.val).moved → (b.vslice die.val).phase ≤ 1 → b.flag (F.VRC_SLICE_SYNC_track_en die.val) = true →
    exec (.syncMoveComplete die ppm) s = .next (s.done ((b.setVslice die.val
      { b.vslice die.val with ppm := clampI (-50) 50 ppm }).setSync die.val 0))) ∧
  (∀ (s : State) (b : Block) (die : Die), s.ready b → b.fld F.CTU_CLK_STATUS_root_src = 0 → b.timeState = 1 →
    b.flag (F.VRC_SLICE_SYNC_track_en die.val) = true → b.fld (F.VRC_SLICE_SYNC_sync_state die.val) = 2 →
    exec (.syncRelock die) s = .next (s.done
      ((b.setVslice die.val { b.vslice die.val with root := true }).setSync die.val 3))) ∧
  (∀ (b : Block) (die st : Nat), b.fld (F.VRC_SLICE_SYNC_sync_state die) ≠ st → (st = 1 ∨ st = 3) →
    b.setSync die st = ((((b.setVslice die { b.vslice die with moveFrom := (b.vslice die).ppm, moved := 0 }).setFld
      (F.VRC_SLICE_SYNC_sync_state die) st).incSat (F.VRC_SLICE_STATUS_sync_changes die)).relayFault die 8 0 die)) ∧
  (∀ (s : State) (b : Block) (die : Die), s.ready b → 1048576 ≤ (b.vslice die.val).track →
    exec (.dcoTrim die) s = .next (s.done (b.setVslice die.val
      { b.vslice die.val with track := 0, own := (b.vslice die.val).ppm })))

/-- The thermal model and its forecasts (10_thermal_management.md R447-R468): the flits of the bonded memory, a step and
its results, the ambient's age, a forecast, its commit and its staleness. -/
def Obligations.ThermalCommandsComplete : Prop :=
  (∀ (s : State) (now : Ft) (b c : Block) (die : Die) (flit : Fin 16) (w : DWord), s.readyAt now b →
    flit.val / 4 ≤ b.tick % 128 → b.time.ticking = true → w = sensorBody (b.relay die.val).bmem flit.val →
    b.sbLow die.val 2 0x17 (srcRelay die.val) w = some c →
    ∃ t, exec (.bmemSensorFlits die flit now) s = .next t ∧ ∀ q < 4,
      Tab.get (fun _ => none) t.block.ea.bmem (64 * die.val + 4 * flit.val + q) = readingOf (getBits w.toNat (16 * q) 16) ∧
      (b.now % 131072 ≤ 4096 →
        Tab.get (fun _ => (0, none)) t.block.tme.bmem (64 * die.val + 4 * flit.val + q) =
          (b.tick / 128, readingOf (getBits w.toNat (16 * q) 16)))) ∧
  (∀ (l : List (Option Int)) (f q : Nat), q < 4 → (∀ v, l.getD (4 * f + q) none = some v → -32767 ≤ v ∧ v ≤ 32767) →
    readingOf (getBits (sensorBody l f).toNat (16 * q) 16) = l.getD (4 * f + q) none) ∧
  (∀ (s : State) (now : Ft) (b : Block), s.readyAt now b → b.time.ticking = true → 4 ≤ b.tick % 128 →
    b.tme.seen < b.tick / 128 → exec (.tmeStep now) s = .next (s.done (b.tmeCompute (b.tick / 128)))) ∧
  (∀ (s : State) (now : Ft) (b : Block) (r : TmeOut), s.readyAt now b → b.tme.next = some r →
    128 * r.step + 64 ≤ b.tick → r.step % 128 ≠ 0 → r.ecc = false → r.clr = false → r.sus = [] →
    b.tick < b.tme.first + 1048576 → ∃ c : Block, c = (((({ b with tme := { b.tme with next := none } } : Block).setFld F.TME_LAST_STEP_ft
        (131072 * r.step)).forAll r.t.zipIdx fun c x =>
          c.setFld (F.TME_NODE_T_temp x.2) (ofSigned 16 (satS 16 (Fp.roundScaled x.1 4)))).setSat F.TME_STATUS_resid_max
            r.resid) ∧
      exec (.tmeResultsVisible now) s =
        .next (s.done (c.setFld F.TME_STATUS_n_suspect c.suspects.length).coolUpdate)) ∧
  (∀ (s : State) (b : Block), s.ready b → exec .suspectClr s =
    .next (s.done (({ b with tme := { b.tme with clr := true } }).setFld F.TME_CTRL_suspect_clr 1))) ∧
  (∀ (s : State) (now : Ft) (b : Block), s.readyAt now b → b.flag F.TME_AMB_amb_default = false →
    b.tme.ambAt.toNat + b.fld F.TME_AMB_amb_age * 1000000000 < b.now →
    exec (.ambientAgeExpiry now) s = .next (s.done (b.setFld F.TME_AMB_amb_default 1))) ∧
  (∀ (s : State) (now : Ft) (b : Block), s.readyAt now b → b.coreRuns 2 = true →
    (∃ x, b.tme.fcIn = some x ∧ x.1 = b.tick / 16384) → b.tme.formed ≠ some (b.tick / 16384) →
    ∃ t, exec (.forecastPeriod now) s = .next t ∧ t.block.tme.formed = some (b.tick / 16384)) ∧
  (∀ (s : State) (now : Ft) (b : Block), s.readyAt now b → b.coreRuns 2 = true → (∀ p, b.tme.formed = some p → b.tick / 16384 ≤ p) →
    exec (.fcCommit now) s = .next (s.done (((((({ b with tme := { b.tme with committed := true } }).setFld
      F.TME_STATUS_fc_missed 0).setFld F.TME_STATUS_fc_stale 0).unraise 3 1 0).coolCommit.coolUpdate).derateCommit))) ∧
  (∀ (s : State) (now : Ft) (b : Block), s.readyAt now b → 4 ≤ b.fld F.TME_STATUS_fc_missed →
    b.fc.active.contains (3, 1, 0) = false →
    exec (.forecastStale now) s = .next (s.done ((b.setFld F.TME_STATUS_fc_stale 1).raise 3 1 0).coolUpdate))

/-- Budget lending (11_budget_lending.md R476-R494): a configuration takes effect at X, an interval freezes its inputs, and
offers, claims, decisions and acknowledgements are exchanged. -/
def Obligations.LendingCommandsComplete : Prop :=
  (∀ (s : State) (now : Ft) (b : Block), s.readyAt now b → b.flag F.HIU_LEND_STATUS_pending = true →
    b.fld F.HIU_LEND_X_ft ≤ b.now → (b.lend.leases.any fun x => !x.lent) = false → b.lendRegs.n = 0 →
    ∃ c : Block, c = b.setFld F.HIU_LEND_STATUS_pending 0 ∧
      exec (.groupConfigEffect now) s = .next (s.done ({ c with lend := { c.lend with
        cfg := c.lendRegs, leases := c.lend.leases.filter (·.lent), offers := [], claims := [], rx := [], acks := [],
        spare := 0, want := 0, interval := c.interval - 1 } } : Block).keepThr.showLend)) ∧
  (∀ (s : State) (now : Ft) (b : Block), s.readyAt now b → b.lending = true → b.lend.interval < b.interval →
    ∃ t, exec (.offerIntervalStart now) s = .next t ∧ t.block.lend.interval = b.interval ∧
      t.block.lend.offers = [] ∧ t.block.lend.decided = false ∧ t.block.lend.spare % 1000 = 0 ∧
      t.block.lend.want % 1000 = 0 ∧ (0 < t.block.lend.want → t.block.lend.spare = 0)) ∧
  (∀ (s : State) (now : Ft) (b : Block), s.readyAt now b → b.inInterval = true → b.lend.offered = false →
    b.intervalAt + b.lend.cfg.self * 1048576 ≤ b.now →
    ∃ c : Block, c = b.forAll ((List.range b.lend.cfg.n).filter (· != b.lend.cfg.self)) (fun c m =>
        c.lendSend m (b.lendMsg 1 255 b.lend.spare b.lend.want)) ∧
      exec (.offerSend now) s = .next (s.done { c with lend := { c.lend with offered := true } })) ∧
  (∀ (s : State) (now : Ft) (b : Block) (bytes : List Byte), s.readyAt now b → b.lendDropped.1 = false →
    2 ≤ b.lend.cfg.n → b.coreRuns 1 = true → b.lend.adopt = false → b.lendOk bytes = true → rdAt bytes 0 1 = 1 →
    b.lend.claimed = false → b.now ≤ b.intervalAt + 16777216 → rdAt bytes 4 1 ≠ b.lend.cfg.self →
    exec (.offerMessage bytes now) s = .next (s.done { b with lend := { b.lend with
      offers := b.lend.offers.filter (·.1 != rdAt bytes 4 1) ++
        [(rdAt bytes 4 1, rdAt bytes 20 4, rdAt bytes 24 4)] } })) ∧
  (∀ (s : State) (now : Ft) (b : Block), s.readyAt now b → b.inInterval = true → b.lend.claimed = false →
    b.intervalAt + 16777216 ≤ b.now → b.lend.want = 0 →
    exec (.claimsCompute now) s = .next (s.done { b with lend := { b.lend with claimed := true } })) ∧
  (∀ (s : State) (now : Ft) (b : Block) (bytes : List Byte), s.readyAt now b → b.lendDropped.1 = false →
    2 ≤ b.lend.cfg.n → b.coreRuns 1 = true → b.lend.adopt = false → b.lendOk bytes = true → rdAt bytes 0 1 = 2 →
    b.lend.decided = false → b.now ≤ b.intervalAt + 33554432 →
    exec (.leaseMessage bytes now) s = .next (s.done { b with lend := { b.lend with
      rx := b.lend.rx.filter (·.1 != rdAt bytes 4 1) ++ [(rdAt bytes 4 1, rdAt bytes 20 4)] } })) ∧
  (∀ (s : State) (now : Ft) (b : Block), s.readyAt now b → b.inInterval = true → b.intervalAt + 33554432 ≤ b.now →
    b.lend.decided = false → b.lend.rx = [] →
    exec (.lenderDecide now) s = .next (s.done { b with lend := { b.lend with decided := true, acks := [] } })) ∧
  (∀ (s : State) (now : Ft) (b : Block) (bytes : List Byte), s.readyAt now b → b.lendDropped.1 = false →
    2 ≤ b.lend.cfg.n → b.coreRuns 1 = true → b.lend.adopt = false → b.lendOk bytes = true → rdAt bytes 0 1 = 3 →
    b.now ≤ b.intervalAt + 67108864 → 0 < rdAt bytes 20 4 →
    exec (.ackMessage bytes now) s = .next (s.done ((({ b with lend := { b.lend with
      claims := b.lend.claims.filter (·.1 != rdAt bytes 4 1)
      leases := b.lend.leases ++ [⟨false, rdAt bytes 4 1, rdAt bytes 20 4, b.intervalAt / 1024 + 131072,
        b.intervalAt / 1024 + 131072 + 1048576⟩] } } : Block).cntPkg 21).showLend))) ∧
  (∀ (s : State) (now : Ft) (b : Block), s.readyAt now b → b.lending = true → (b.tick + 1) % 131072 = 0 →
    (b.lend.leases.any fun x => !x.lent) = true →
    ∃ keep : List Lease, keep = b.lend.leases.filter (fun x => x.lent || decide (b.tick + 1 < x.stop)) ∧
      exec (.borrowerAdjWrite now) s = .next (s.done ((({ b with lend := { b.lend with leases := keep } } : Block).writeAdj
        (leaseSum (keep.filter fun x => !x.lent && decide (x.start ≤ b.tick + 1)) false : Nat)
          (b.tick + 1 + 131072)).showLend))) ∧
  (∀ (s : State) (now : Ft) (b : Block), s.readyAt now b → b.coreRuns 1 = true → b.timeState = 1 →
    (b.lend.leases.any fun x => x.lent && decide (x.stop ≤ b.tick)) = true →
    exec (.leaseRelease now) s = .next (s.done ({ b with lend := { b.lend with
      leases := b.lend.leases.filter fun x => !(x.lent && decide (x.stop ≤ b.tick)) } } : Block).writeLent))

/-- The Fault Collector's own commands (12_faults_and_isolation.md R498-R523): faults are taken, sticky bits and FC_FIRST
cleared, severities written, faults forced and injected, the alert cleared, and the risk score computed. -/
def Obligations.FaultCommandsComplete : Prop :=
  (∀ (s : State) (now : Ft) (b : Block) (f : FaultIn), s.readyAt now b → sourceExists f.group.val f.source.val = true →
    exec (.hubFault f now) s = .next (s.done
      (b.raiseRec ⟨f.group.val, f.source.val, f.inst.val, b.ft, 0, f.ended, f.injected⟩ false))) ∧
  (∀ (s : State) (b c : Block) (die : Die) (f : SbFlit) (m : Bool) (r : FaultRec), s.ready b →
    b.flag (F.HUB_SB_STATUS_link_up die.val) = true → b.nextOff die.val 0x20 8 = some (f, m, c) →
    r = faultOfWord c.now f.body → r.group < 26 → sourceExists r.group r.source = true →
    exec (.faultRecord die) s = .next (s.done (c.raiseRec r false))) ∧
  (∀ (s : State) (b : Block) (group : Fin 26) (bits : Byte), s.ready b →
    ∃ c : Block, c = b.forAll ((List.range 8).filter (bit bits.toNat)) (fun c k => c.clearSource group.val k) ∧
      exec (.fcGrpClr group bits) s = .next (s.done (if c.fld (F.FC_GRP_STICKY_sticky group.val) = 0
        then (c.setFld (F.FC_GRP_LAST_count group.val) 0).showFc else c.showFc))) ∧
  (∀ (s : State) (b : Block), s.ready b → ∃ t, exec .firstClr s = .next t ∧
    t.block.reg 0x10010 = (if b.firstNow = true then b.reg 0x10010 else resetWord 0x10010) ∧
    t.block.reg 0x10014 = resetWord 0x10014 ∧
    t.block.reg 0x10018 = (if b.firstNow = true then b.reg 0x10018 else resetWord 0x10018) ∧
    ∀ o, (o < 0x10010 ∨ 0x10020 ≤ o) → t.block.reg o = b.reg o) ∧
  (∀ (s : State) (b : Block), s.ready b → ∃ t, exec .alertPendClear s = .next t ∧
    (t.block.flag F.FC_SUMMARY_alert_pend = true ↔ b.flag F.FC_SUMMARY_alert_pend = true ∧
      ∃ x ∈ b.fc.recent, x.at_ = b.now ∧ b.fld F.FC_CTRL_alert_min ≤ b.severity x.group x.source)) ∧
  (∀ (b : Block) (g src : Nat), b.faultNow g src = true → b.clearSource g src = b) ∧
  (∀ (s : State) (b : Block) (group : Fin 26) (value : Word), s.ready b →
    exec (.fcGrpSevWrite group value) s = .next (s.done ((b.forAll (List.range 8) fun c k =>
      c.setSev group.val k (getBits value.toNat (4 * k) 3)).showFc))) ∧
  (∀ (s : State) (now : Ft) (b : Block) (group : Fin 26) (bits : Byte), s.readyAt now b →
    exec (.fcGrpForce group bits now) s = .next (s.done (b.forAll ((List.range 8).filter fun k =>
      bit bits.toNat k && sourceExists group.val k) fun c k =>
        c.raiseRec ⟨group.val, k, c.fld F.FC_FORCE_INST_instance, c.ft, 0, false, false⟩ true))) ∧
  (∀ (s : State) (b : Block), s.ready b → b.injAllowed (b.fld F.FC_INJ_CTRL_det) = true → b.fc.armed = none →
    ∃ t, exec .injectionGo s = .next t ∧ t.block.fld F.FC_INJ_STATUS_result = 1 ∧
      t.block.fc.armed = some (b.fld F.FC_INJ_CTRL_det, b.fld F.FC_INJ_CTRL_mode, b.fld F.FC_INJ_CTRL_instance,
        b.fld F.FC_INJ_CTRL_param)) ∧
  (∀ (s : State) (b : Block), s.ready b → b.injAllowed (b.fld F.FC_INJ_CTRL_det) = false →
    ∃ t, exec .injectionGo s = .next t ∧ t.block.fld F.FC_INJ_STATUS_result = 3 ∧ t.block.fc = b.fc) ∧
  (∀ (s : State) (now : Ft) (b : Block) (det mode inst param : Nat), s.readyAt now b →
    b.fc.armed = some (det, mode, inst, param) →
    exec (.injectionFire now) s = .next (s.done
      ((({ b with fc := { b.fc with armed := none } }).setFld F.FC_INJ_STATUS_result 2).injFire det mode inst param))) ∧
  (∀ (s : State) (b : Block), s.ready b → b.fc.riskSeen < b.tick / 1048576 → 4 ≤ b.tick % 1048576 →
    ∃ c : Block, c = ({ b with fc := { b.fc with riskSeen := b.tick / 1048576, riskIn := b.fc.riskLast } } : Block) ∧
      exec .riskInterval s = .next (s.done (((c.setFld F.FC_RISK_interval ((b.tick / 1048576 - 1) % 65536)).setFld
        F.FC_RISK_score c.riskScore).riskFollow)))

/-- Isolation and re-admission (12_faults_and_isolation.md R525-R533): requests with each of their outcomes, orders, the
opened switch and the steps of a re-admission up to the rejoin or its timeout. -/
def Obligations.IsolationCommandsComplete : Prop :=
  (∀ (s : State) (now : Ft) (b c : Block) (tile : Tile), s.readyAt now b → b.flag F.FC_ISO_STATUS_busy = false →
    c = b.isoBegin 0 tile.val → exec (.fcIsoIsolateTile tile now) s = .next (s.done (
      if c.unitIsolated (false, tile.val) = true ∧ c.fc.readmits.any (·.tile == tile.val) = false
      then (if c.unitLeaving (false, tile.val) = true then c.noteIso (false, tile.val)
        else ((c.noteIso (false, tile.val)).isoStep 0 tile.val 5).isoResult 0 tile.val 1)
      else c.orderIsolation (false, tile.val) c.ft))) ∧
  (∀ (s : State) (now : Ft) (b c : Block) (dom : CoreDom), s.readyAt now b → b.flag F.FC_ISO_STATUS_busy = false →
    c = b.isoBegin 1 dom.val → exec (.fcIsoIsolateDomain dom now) s = .next (s.done (
      if c.unitIsolated (true, dom.val) = true ∧
        ((tilesOf dom.val).any fun t => c.fc.readmits.any (·.tile == t)) = false
      then (if c.unitLeaving (true, dom.val) = true then c.noteIso (true, dom.val)
        else ((c.noteIso (true, dom.val)).isoStep 1 dom.val 6).isoResult 1 dom.val 1)
      else c.orderIsolation (true, dom.val) c.ft))) ∧
  (∀ (s : State) (b c : Block) (tile : Tile), s.ready b → b.flag F.FC_ISO_STATUS_busy = false →
    c = b.isoBegin 2 tile.val → exec (.fcIsoReadmitTile tile) s = .next (s.done (
      if c.isoJust (false, tile.val) = true then (c.isoResult 2 tile.val 3).raise 24 1 tile.val
      else if c.mayReadmit tile.val = true then (c.startReadmit tile.val none false).isoStep 2 tile.val 1
      else c.isoResult 2 tile.val 2))) ∧
  (∀ (s : State) (b c : Block) (dom : CoreDom), s.ready b → b.flag F.FC_ISO_STATUS_busy = false →
    c = b.isoBegin 3 dom.val → ∃ d : Block, d = (c.failClr dom.val).setFld (F.VRC_DOM_CTRL_en dom.val)
        (if (c.failClr dom.val).fld F.LFC_LC_state = 5 then 0 else 1) ∧
      exec (.fcIsoReadmitDomain dom) s = .next (s.done (
        if c.isoJust (true, dom.val) = true then (c.isoResult 3 dom.val 3).raise 24 1 (0x400 + dom.val)
        else if c.isoDom dom.val = true ∧ c.unitLeaving (true, dom.val) = false
        then { d with fc := { d.fc with readmitDom := some dom.val } }
        else c.isoResult 3 dom.val 2))) ∧
  (∀ (s : State) (b : Block), s.ready b → b.flag F.FC_ISO_STATUS_busy = true →
    (∀ tile, exec (.fcIsoReadmitTile tile) s = .next (s.done b)) ∧
    ∀ dom, exec (.fcIsoReadmitDomain dom) s = .next (s.done b)) ∧
  (∀ (s : State) (now : Ft) (b c : Block) (domain : Bool) (index : Tile) (o : Bool × Nat × Ft) (f : SbFlit),
    s.readyAt now b →
    (b.fc.orders.find? fun (o : Bool × Nat × Ft) => o.1 == domain && o.2.1 == index.val) = some o →
    b.takeDown (if domain = true then index.val / 16 else dieOfTile index.val) 0x21 (orderWord (domain, index.val)) =
      some (f, c) →
    exec (.isolationOrder domain index now) s = .next (s.done
      (({ c with fc := { c.fc with orders := c.fc.orders.filter (· != o) } }).isolate (domain, index.val) o.2.2))) ∧
  (∀ (s : State) (now : Ft) (b : Block) (tile : Tile), s.readyAt now b → (b.post tile.val).open_ = false →
    (b.post tile.val).opening = true → (b.post tile.val).openAt + 1125 ≤ b.now →
    exec (.switchOpened tile now) s = .next (s.done (b.switchOpened tile.val))) ∧
  (∀ (s : State) (b : Block) (tile : Tile), s.ready b → b.readmitAt tile.val 1 = true →
    ∃ c : Block, c = (b.clearSlot tile.val).setPost tile.val
        { (b.clearSlot tile.val).post tile.val with closePend := true } ∧
      exec (.readmitResetDone tile) s = .next (s.done
        ((c.mapReadmit tile.val fun r => { r with step := 2 }).refloor (domOfTile tile.val)))) ∧
  (∀ (s : State) (b : Block) (tile : Tile), s.ready b → b.readmitAt tile.val 2 = true →
    b.vstate (domOfTile tile.val) = Vs.run → b.vidSettled (domOfTile tile.val) = true →
    ∃ c d : Block, c = (b.setPost tile.val { b.post tile.val with
        powered := true, open_ := false, segs := 15, closePend := false }).postReset tile.val ∧
      d = c.setPost tile.val { c.post tile.val with lbist := true } ∧
      exec (.readmitSwitchClosed tile) s = .next (s.done (({ d with wce := { d.wce with
        switched := d.wce.switched ++ [(d.tick / 16, domOfTile tile.val)] } } : Block).mapReadmit tile.val
          fun r => { r with step := 4 }))) ∧
  (∀ (s : State) (now : Ft) (b : Block) (tile : Tile) (signature : DWord) (r : Readmit), s.readyAt now b →
    (b.fc.readmits.find? fun r => r.tile == tile.val && r.step == 4) = some r → (b.post tile.val).lbist = true →
    ∃ c d : Block, c = (b.setFld F.BTC_POST_MISR_misr signature.toNat).setPost tile.val
        { b.post tile.val with lbist := false } ∧
      d = (if signature.toNat = b.shadow.misr then c else c.relayFault (dieOfTile tile.val) 9 7 tile.val) ∧
      exec (.lbistEnd tile signature now) s = .next (s.done (
        if r.lbistOnly = true then d.orderSwitches [tile.val]
        else if signature.toNat = b.shadow.misr then d.mapReadmit tile.val fun r => { r with step := 5 }
        else d.dropReadmit tile.val 0 2))) ∧
  (∀ (s : State) (b : Block) (tile : Tile), s.ready b →
    (b.fc.readmits.any fun r => r.tile == tile.val && r.step == 7 && decide (16 ≤ r.good)) = true →
    exec (.readmitRejoin tile) s = .next (s.done (b.mapReadmit tile.val fun r => { r with step := 8 }))) ∧
  (∀ (s : State) (now : Ft) (b : Block) (tile : Tile), s.readyAt now b →
    (b.fc.readmits.any fun r => r.tile == tile.val && r.step == 7 && decide (64 ≤ r.ticks)) = true →
    exec (.readmitTimeout tile now) s = .next (s.done (b.dropReadmit tile.val 0 2))) ∧
  (∀ (b : Block) (t : Nat), (b.post t).open_ = false → (b.post t).opening = false →
    ((b.orderSwitches [t]).post t).opening = true ∧ ((b.orderSwitches [t]).post t).openAt = b.now + 1000 ∧
    ((b.orderSwitches [t]).post t).lgStretch = 2 ∧ ((b.orderSwitches [t]).post t).open_ = false)

/-- The firmware complex (13_firmware_complex.md R549-R563, R576-R580): watchdogs, crashes, dumps and returns of the cores,
the supervisor, debug and the crash-dump slots. -/
def Obligations.CoreCommandsComplete : Prop :=
  (∀ (s : State) (now : Ft) (b : Block) (core : CoreId), s.readyAt now b → b.coreState core.val = 0 →
    b.stim 5 core.val = none →
    exec (.watchdogService core now) s = .next (s.done (b.wdServe core.val))) ∧
  (∀ (s : State) (now : Ft) (b : Block) (core : Fin 4), s.readyAt now b → b.wdOver core.val = true →
    b.stim 5 core.val = none →
    exec (.watchdogExpiry core now) s = .next (s.done ((b.incSat (F.FWC_WDT_expiries core.val)).crash core.val 0))) ∧
  (∀ (s : State) (now : Ft) (b : Block) (core : Fin 4) (cause : Fin 3), s.readyAt now b →
    (b.coreState core.val = 0 ∨ b.coreState core.val = 5) →
    exec (.coreException core cause now) s = .next (s.done (b.crash core.val (cause.val + 1)))) ∧
  (∀ (s : State) (now : Ft) (b : Block) (core : Fin 4) (cause : Fin 3), s.readyAt now b → b.coreState core.val = 1 →
    b.fwc.since.getD core.val 0 = b.now → exec (.coreException core cause now) s = .next (s.done
      (((b.setMapBit F.FWC_DBG_STATUS_halted core.val false).drainFollow).crash core.val (cause.val + 1)))) ∧
  (∀ (s : State) (b : Block) (core : Fin 4), s.ready b → b.supRuns = true → b.fwc.due.contains core.val = true →
    exec (.taskRebind core) s = .next (s.done (b.rebind core.val))) ∧
  (∀ (s : State) (b : Block) (x : Frozen) (rest : List Frozen), s.ready b → b.fwc.dumping = x :: rest →
    exec .dumpComplete s = .next (s.done (({ b with fwc := { b.fwc with dumping := rest } }).dumpDone x))) ∧
  (∀ (s : State) (now : Ft) (b : Block) (core : Fin 4), s.readyAt now b → b.coreState core.val = 3 → b.activeGood = true →
    ∃ c : Block, c = ((b.setCore core.val 0).setSat (F.FWC_CORE_restart_us core.val)
        ((b.now - b.fwc.detect.getD core.val 0) / 1000)).wdRestart core.val ∧
      exec (.coreReady core now) s = .next (s.done ({ c with fwc := { c.fwc with
        due := c.fwc.due.filter (· != core.val), returning := c.fwc.returning ++ [(core.val, c.tick / 16)] } }
        : Block).bindWaiting)) ∧
  (∀ (s : State) (now : Ft) (b : Block) (core : Fin 4), s.readyAt now b →
    (b.fwc.returning.any fun (x : Nat × Nat) => x.1 == core.val && decide (x.2 < b.tick / 16)) = true →
    exec (.taskReturn core now) s = .next (s.done (({ b with fwc := { b.fwc with
      returning := b.fwc.returning.filter (·.1 != core.val) } } : Block).setFld
        (F.FWC_CORE_bound_to core.val) core.val))) ∧
  (∀ (s : State) (now : Ft) (b : Block), s.readyAt now b → b.wdOver 4 = true → b.stim 5 4 = none →
    ∃ c d : Block, c = ((((b.incSat (F.FWC_WDT_expiries 4)).incSat (F.FWC_CORE_crashes 4)).setCore 4 2).setFld
        (F.FWC_CORE_last_cause 4) 0) ∧
      d = { c with fwc := { c.fwc with
        detect := c.fwc.detect.set 4 c.now, dumping := c.fwc.dumping ++ [⟨4, 0, c.ft, c.fwc.elog⟩]
        supFail := c.fwc.supFail || decide (3 ≤ c.updState) } } ∧
      exec (.supervisorWatchdogExpiry now) s = .next (s.done ((if d.fwc.supFail = true
        then d.forAll (List.range 4) fun d k => d.setCore k 4 else d).raise 15 2 4))) ∧
  (∀ (s : State) (now : Ft) (b : Block), s.readyAt now b → b.coreState 4 = 3 →
    ∃ c : Block, c = ((b.bootAdopt.setCore 4 0).setSat (F.FWC_CORE_restart_us 4)
        (((b.bootAdopt).now - (b.bootAdopt).fwc.detect.getD 4 0) / 1000)).wdRestart 4 ∧
      exec (.supervisorReady now) s = .next (s.done (if b.bootAdopt.bootOk = true
        then (c.forAll c.fwc.due fun c k => c.rebind k).bindWaiting else b.bootAdopt.bootWait))) ∧
  (∀ (s : State) (now : Ft) (b : Block) (core : CoreId), s.readyAt now b → b.access 4 = true → b.updState = 0 →
    b.coreState core.val = 0 →
    exec (.debugHalt core now) s = .next (s.done
      (((b.setCore core.val 1).setMapBit F.FWC_DBG_STATUS_halted core.val true).drainFollow))) ∧
  (∀ (s : State) (now : Ft) (b : Block) (core : Fin 4), s.readyAt now b → b.access 4 = true → b.coreState core.val = 1 →
    exec (.debugResume ⟨core.val, by omega⟩ now) s = .next (s.done
      (((((b.setCore core.val 0).setMapBit F.FWC_DBG_STATUS_halted core.val false).bindWaiting).wdRestart
        core.val).drainFollow))) ∧
  (∀ (s : State) (now : Ft) (b : Block) (core : CoreId) (k : Fin 4), s.readyAt now b → b.access 4 = true →
    b.updState = 0 → b.coreState core.val = 0 → b.fld (F.FWC_BP_kind core.val k.val) ≠ 0 →
    exec (.breakpointHit core k now) s = .next (s.done
      ((b.setMapBit (F.FWC_BP_CTRL_hit core.val) k.val true).haltCore core.val))) ∧
  (∀ (s : State) (b : Block), s.ready b → exec (.granaryClr 1) s = .next (s.done
    { ((b.setFld (slotValid 0) 0).setFld (slotClr 0) 0) with fwc := { b.fwc with dumps := b.fwc.dumps.set 0 none } })) ∧
  (∀ (b : Block) (core : Nat) (ft : Ft) (place : Nat), place = b.fwc.elogAt % 4096 → core < 256 →
    (b.logEvent core ft).fwc.elog.length ≤ 4096 ∧
    (∃ e : LogEv, (b.logEvent core ft).fwc.eventAt place = some e ∧ e.bytes.length = 16 ∧
      rdAt e.bytes 0 8 = ft.toNat ∧ rdAt e.bytes 8 1 = core) ∧
    ∀ k < 4096, k ≠ place → (b.logEvent core ft).fwc.eventAt k = b.fwc.eventAt k)

/-- Boot and live update (13_firmware_complex.md R564-R575): the phases of an update in their order, its adoption and its
end without one. -/
def Obligations.UpdateCommandsComplete : Prop :=
  (∀ (s : State) (b : Block), s.ready b → b.flag F.FWC_STATUS_rom_wait = true → b.fwc.bootPend = false →
    b.flag F.MPU_STATUS_boot_busy = false → b.flag F.HIU_CTRL_region_lock = true →
    exec .bootGo s = .next (s.done
      (({ b with fwc := { b.fwc with bootPend := true } }).setFld F.FWC_BOOT_CTRL_result 1))) ∧
  (∀ (s : State) (now : Ft) (b : Block) (l : List Byte), s.readyAt now b → b.fwc.bootPend = true →
    b.flag F.FWC_STATUS_rom_wait = true → b.flag F.MPU_STATUS_boot_busy = false →
    ∃ c : Block, c = ({ b with fwc := { b.fwc with bootPend := false, bootMgmt := [] } } : Block).setFld
        F.MPU_STATUS_boot_busy 0 ∧
      exec (.bootImageChecked (some l) now) s = .next (s.done (c.bootCheck (l.take (c.fld F.FWC_BOOT_LEN_len))))) ∧
  (∀ (s : State) (now : Ft) (b : Block), s.readyAt now b → b.updState = 1 → b.fwc.lastChunk = true → b.supRuns = true →
    b.imageCheck ⟨b.region b.shadowReg⟩ = stOk →
    exec (.imageAuthenticated now) s = .next (s.done
      ((({ b.crypto (b.region b.shadowReg) with fwc := { b.fwc with authDone := some stOk, lastChunk := false } }).setFld
        F.FWC_UPD_STATUS_state 2).setFld F.FWC_IMAGE_INFO_shadow_valid 1))) ∧
  (∀ (s : State) (b : Block), s.ready b → b.updState = 3 → b.supRuns = true → b.updCrash = false →
    b.fwc.supFail = false → exec .updateCoresParked s = .next (s.done (b.setFld F.FWC_UPD_STATUS_state 4))) ∧
  (∀ (s : State) (b : Block), s.ready b → b.updState = 4 → b.supRuns = true → b.updCrash = false →
    b.fwc.supFail = false → ∃ c : Block, c = ({ b with fwc := { b.fwc with
        refl := b.reflection, reflSeq := b.fwc.reflSeq + 1
        boot := { b.fwc.boot with
          pending := some (b.shadowReg, Config.sha384 (b.region b.shadowReg)), commit := 0 } } } : Block).forAll
          (List.range 4) (fun c k => c.setCore k 5) ∧
      exec .reflectionComplete s = .next (s.done (c.setFld F.FWC_UPD_STATUS_state 5))) ∧
  (∀ (s : State) (b : Block), s.ready b → b.updState = 5 → b.supRuns = true → (∀ c < 4, b.coreState c = 5) →
    exec .updateCoresEntered s = .next (s.done (b.setFld F.FWC_UPD_STATUS_state 6))) ∧
  (∀ (s : State) (now : Ft) (b : Block) (r : Bool) (h : List Byte), s.readyAt now b → b.updState = 6 →
    b.supRuns = true → b.now ≤ b.fwc.updAt + 12000000 → (∀ c < 4, b.coreState c = 5) →
    b.fwc.boot.pending = some (r, h) → reflAdopts ⟨b.region b.shadowReg⟩ b.fwc.refl = true →
    ∃ c : Block, c = (({ b with fwc := { b.fwc with boot := ⟨r, h, none, commitWord⟩, crashes := [[], [], [], []] } }
        : Block).incSat F.FWC_UPD_STATUS_updates).cntPkg 18 ∧
      exec (.updateAdopted now) s = .next (s.done
        (((c.forAll (List.range 4) fun c k => c.runCore k).showImage r).updEnd 1 stOk))) ∧
  (∀ (s : State) (now : Ft) (b : Block), s.readyAt now b → b.updState = 6 → b.supRuns = true → b.fwc.supFail = false →
    ∃ c : Block, c = ({ b with fwc := { b.fwc with
        boot := { b.fwc.boot with pending := none }, due := [] } } : Block).forAll (List.range 4)
          (fun c k => c.runCore k) ∧
      exec (.updateAbandon true now) s = .next (s.done ((c.updEnd 3 stFaulted).raise 15 3 0)))

/-- Rings and the heartbeat (14_rings_and_negotiation.md R587-R594, R602, R606): a ring comes on with both positions at 0, a
doorbell moves the host's side, an entry is fetched, a session without a heartbeat goes unattended. -/
def Obligations.RingCommandsComplete : Prop :=
  (∀ (s : State) (b : Block) (ring : Ring), s.ready b → b.flag (F.HIU_RING_CFG_en ring.val) = false →
    b.ringOk ring.val = true → ∃ t, exec (.ringEnable ring) s = .next t ∧
      t.block.fld (F.HIU_RING_CFG_en ring.val) = 1 ∧ t.block.fld (F.HIU_RING_PROD_pos ring.val) = 0 ∧
      t.block.fld (F.HIU_RING_CONS_pos ring.val) = 0 ∧ t.block.fld (F.HIU_RING_STATUS_stopped ring.val) = 0 ∧
      t.block.fld (F.HIU_RING_STATUS_dropped ring.val) = 0) ∧
  (∀ (s : State) (b : Block) (ring : Ring), s.ready b → b.flag (F.HIU_RING_CFG_en ring.val) = false →
    b.ringOk ring.val = false → exec (.ringEnable ring) s =
      .next (s.done (b.setFld (F.HIU_RING_STATUS_proto_err_seen ring.val) 1))) ∧
  (∀ (s : State) (b : Block) (ring : Ring), s.ready b →
    exec (.ringDisable ring) s = .next (s.done (b.setFld (F.HIU_RING_CFG_en ring.val) 0))) ∧
  (∀ (s : State) (now : Ft) (b c : Block) (ring : Ring) (value : Word), s.readyAt now b → b.ringOn ring.val = true →
    c = b.setFld (if ring.val < 64 then F.HIU_RING_PROD_pos ring.val else F.HIU_RING_CONS_pos ring.val) value.toNat →
    (value.toNat + 4294967296 - b.fld (if ring.val < 64 then F.HIU_RING_PROD_pos ring.val
      else F.HIU_RING_CONS_pos ring.val)) % 4294967296 < 2147483648 →
    c.held ring.val ≤ b.ringEntries ring.val →
    exec (.doorbell ring value now) s = .next (s.done c)) ∧
  (∀ (s : State) (now : Ft) (b : Block) (ring : Ctx) (e : List Byte) (payload : Option (List Byte)), s.readyAt now b →
    b.coreRuns 0 = true → b.ringOn ring.val = true → b.ringOn (ring.val + 64) = true → b.held ring.val ≠ 0 →
    b.held (ring.val + 64) + (b.outstandingOf ring.val).length < b.ringEntries (ring.val + 64) →
    b.stim 8 ring.val = none →
    exec (.packetFetch ring (some e) payload now) s = .next (s.done
      ((b.incWrap (F.HIU_RING_CONS_pos ring.val)).takePacket
        ⟨ring.val, entryOf e, b.cons ring.val % 65536, payload, b.now, 0⟩))) ∧
  (∀ (s : State) (now : Ft) (b : Block) (value : Word), s.readyAt now b →
    exec (.heartbeat value now) s = .next (s.done
      ((b.setFld F.HIU_HB_value value.toNat).setFld F.HIU_HB_LAST_ft b.now))) ∧
  (∀ (s : State) (now : Ft) (b : Block), s.readyAt now b → b.fld F.HIU_SESSION_state = 2 → b.coreRuns 0 = true →
    max (b.fld F.HIU_HB_LAST_ft) b.hiu.commitAt.toNat + b.fld F.HIU_HB_CFG_timeout_ms * 1000000 ≤ b.now →
    exec (.heartbeatTimeout now) s = .next (s.done (b.unattended true)))

/-- A completion, a TTU entry and the end of a global stop (14_rings_and_negotiation.md R596-R601, R683): the block and the
DMA writes of the named operations; the writes land in the ring region. -/
def Obligations.CompletionWritesComplete : Prop :=
  (∀ (s : State) (now : Ft) (b : Block) (ring : Option Ring) (fail : Bool), s.readyAt now b →
    exec (.completionWrite ring fail now) s = .next { s with
      block := (b.completionWrite ring fail).1.settle
      mem := (b.completionWrite ring fail).2.foldl (fun m w => Memory.write m w.1 w.2) s.mem }) ∧
  (∀ (s : State) (now : Ft) (b : Block), s.block.rst.groups = false → b = s.block.advance now →
    b.fld F.TTU_STOP_STATUS_state = 2 →
    exec (.globalStopComplete now) s = .next { s with
      block := b.stopComplete.1
      mem := b.stopComplete.2.foldl (fun m w => Memory.write m w.1 w.2) s.mem })

/-- Session packets of class 0x0_ (14_rings_and_negotiation.md R603-R606, Table 15-8): NOP and IDENTIFY finish with OK; HELLO
proposes the lower minor and the common features, COMMIT adopts the proposal, GOODBYE leaves. -/
def Obligations.SessionPacketsComplete : Prop :=
  (∀ (s : State) (now : Ft) (b : Block) (p : Pkt), s.serves now 0x00 p b →
    exec (.nop now) s = .next (s.served (b.finish p stOk))) ∧
  (∀ (s : State) (now : Ft) (b : Block) (p : Pkt), s.serves now 0x01 p b → p.onP4 = false → p.arg 0 1 = 1 →
    ∃ r, exec (.hello now) s = .next (s.served ((b.setNeg p.src
      ⟨min (p.arg 1 1) b.imageMinor, p.arg 8 32 &&& b.featSup, p.arg 4 4⟩).finish p stOk r))) ∧
  (∀ (s : State) (now : Ft) (b : Block) (p : Pkt) (n : Neg), s.serves now 0x02 p b → p.onP4 = false →
    b.negOf p.src = some n → p.arg 0 32 &&& n.feats = p.arg 0 32 → bit (p.arg 0 32) 0 = true → p.arg 0x20 2 ≠ 0 →
    b.profiles.contains (p.arg 0x20 2) = true → p.arg 0x20 2 = b.fld F.HIU_PROFILE_selected →
    ∃ (c : Block) (r : List Byte), c = b.commitHost n.minor (p.arg 0 32) (p.arg 0x20 2) (clampN 100 10000 n.hb) ∧
      exec (.commit now) s = .next (s.served (c.finish p (clampSt (clampN 100 10000 n.hb != n.hb)) r))) ∧
  (∀ (s : State) (now : Ft) (b : Block) (p : Pkt), s.serves now 0x03 p b → p.onP4 = false → 2 ≤ b.sessionOf p.src →
    exec (.goodbye now) s = .next (s.served (b.finish p stOk))) ∧
  (∀ (s : State) (now : Ft) (b : Block) (p : Pkt), s.serves now 0x04 p b →
    exec (.identify now) s = .next (s.served (b.finish p stOk b.identify)))

/-- Context packets of class 0x1_ (15_control_packets.md, Table 15-9): a context is created, given a budget and tiles,
drained, freed, activated and queried; what takes effect at an epoch waits for it. -/
def Obligations.ContextPacketsComplete : Prop :=
  (∀ (s : State) (now : Ft) (b : Block) (p : Pkt) (c : Nat), s.serves now 0x10 p b → b.fld F.HIU_SESSION_state ≠ 3 →
    p.arg 0 1 = c → 1 ≤ c → c ≤ 63 → p.arg 1 1 < 4 → b.fld (F.SILO_CTX_CFG_state c) = 0 →
    b.overPool true c (b.budgetOf p).1.1 = false →
    ∃ (k : Nat) (d : Block), k = b.ctxEpoch ∧
      d = ((b.storeBudget c (p.arg 1 1) (b.budgetOf p).1).setFld (F.SILO_CTX_CFG_state c) 1).forAll
        ((List.range 1024).filter fun t =>
          ((b.storeBudget c (p.arg 1 1) (b.budgetOf p).1).setFld (F.SILO_CTX_CFG_state c) 1).tileCtxReg t == c)
        (fun d t => d.mapTile t 0) ∧
      exec (.ctxCreate now) s = .next (s.served
        ((({ d with hiu := { d.hiu with
            labels := Tab.set zeroN d.hiu.labels c (if 3 ≤ d.minorOf p.src then p.arg 0x10 8 else 0) } } : Block).contend
          [(0x23, c)] p.master k (k * 16384) (b.fld (F.SILO_CTX_MAX_max_mw c)) (b.budgetOf p).1.2.1
          (· == .epoch k)).2.await p (.epoch k) (clampSt (b.budgetOf p).2) (b2n (b.budgetOf p).2) c))) ∧
  (∀ (s : State) (now : Ft) (b : Block) (p : Pkt), s.serves now 0x11 p b → 1 ≤ p.arg 0 1 → p.arg 0 1 ≤ 63 →
    p.arg 4 4 ≤ p.arg 8 4 → p.arg 1 1 < 4 → b.overPool false (p.arg 0 1) (b.budgetOf p).1.1 = false →
    exec (.ctxSetBudget now) s = .next (s.served (b.single p b.ctxEpoch (b.ctxEpoch * 16384) (· == .epoch b.ctxEpoch)
      [((0x23, p.arg 0 1), b.fld (F.SILO_CTX_MAX_max_mw (p.arg 0 1)), (b.budgetOf p).1.2.1)] fun c _ _ =>
        (c.storeBudget (p.arg 0 1) (p.arg 1 1) (b.budgetOf p).1).await p (.epoch b.ctxEpoch) (clampSt (b.budgetOf p).2)
          (b2n (b.budgetOf p).2)))) ∧
  (∀ (s : State) (now : Ft) (b : Block) (p : Pkt) (l : List Nat), s.serves now 0x12 p b → 1 ≤ p.arg 0 1 →
    p.arg 0 1 ≤ 63 → p.arg 1 1 = 0 → p.tiles = some l → (∀ t ∈ l, b.tileCtxReg t = 0) →
    exec (.ctxSetTiles now) s = .next (s.served
      ((b.forAll l fun c t => c.mapTile t (p.arg 0 1)).await p (.epoch b.ctxEpoch) (clampSt p.tilesCl)
        (b2n p.tilesCl)))) ∧
  (∀ (s : State) (now : Ft) (b : Block) (p : Pkt), s.serves now 0x13 p b → 1 ≤ p.arg 0 1 → p.arg 0 1 ≤ 63 →
    exec (.ctxDrain now) s = .next (s.served ((b.drainCtx (p.arg 0 1)).await p (.drained (p.arg 0 1)) stOk 0))) ∧
  (∀ (s : State) (now : Ft) (b : Block) (p : Pkt), s.serves now 0x14 p b → 1 ≤ p.arg 0 1 → p.arg 0 1 ≤ 63 →
    exec (.ctxFree now) s = .next (s.served ((b.drainCtx (p.arg 0 1)).await p (.freed (p.arg 0 1)) stOk 0))) ∧
  (∀ (s : State) (now : Ft) (b : Block) (p : Pkt), s.serves now 0x15 p b → 1 ≤ p.arg 0 1 → p.arg 0 1 ≤ 63 →
    b.fld F.HIU_SESSION_state ≠ 3 → b.fld (F.SILO_CTX_CFG_state (p.arg 0 1)) = 2 →
    exec (.ctxActivate now) s = .next (s.served
      ((b.setFld (F.SILO_CTX_CFG_state (p.arg 0 1)) 1).await p (.epoch b.ctxEpoch) stOk 0))) ∧
  (∀ (s : State) (now : Ft) (b : Block) (p : Pkt), s.serves now 0x16 p b → 1 ≤ p.arg 0 1 → p.arg 0 1 ≤ 63 →
    ∃ r, exec (.ctxQuery now) s = .next (s.served (b.finish p stOk r)) ∧
      r.take 2 = u8 (b.fld (F.SILO_CTX_CFG_state (p.arg 0 1))) ++ u8 (b.fld (F.SILO_CTX_STAT_drained (p.arg 0 1))))

/-- Limit, ceiling, margin and calibration packets of classes 0x2_ and 0x3_ (Tables 15-10, 15-11; R640-R642). -/
def Obligations.LimitPacketsComplete : Prop :=
  (∀ (s : State) (now : Ft) (b : Block) (p : Pkt) (v : Nat), s.serves now 0x20 p b →
    ¬ (p.onP4 = true ∧ p.arg 0 1 = 4 ∧ 2 ≤ b.lend.cfg.n) → 1 ≤ p.arg 0 1 → p.arg 0 1 ≤ 4 →
    v = clampN (if p.arg 0 1 = 1 then 1600 else 300000) (b.limTop (p.arg 0 1 - 1)) (p.arg 0x10 4) →
    exec (.limitSet now) s = .next (s.served (b.slotRequest p (limSlotF (p.arg 0 1) p.slot) v (v != p.arg 0x10 4)
      (.limit (p.arg 0 1) p.slot v) fun a => match a with
        | .limit n m _ => n == p.arg 0 1 && m == p.slot
        | _ => false))) ∧
  (∀ (s : State) (now : Ft) (b : Block) (p : Pkt) (v : Int), s.serves now 0x21 p b → p.arg 0 1 ≤ 4 →
    v = clampI (b.thermRange (p.arg 0 1)).1 (b.thermRange (p.arg 0 1)).2 (p.argI 0x10 2) →
    exec (.thermalSet now) s = .next (s.served (b.slotRequest p (thermSlot (p.arg 0 1) p.slot) v.toNat
      (v != p.argI 0x10 2) (.thermal (p.arg 0 1) p.slot v.toNat) fun a => match a with
        | .thermal w m _ => w == p.arg 0 1 && m == p.slot
        | _ => false))) ∧
  (∀ (s : State) (now : Ft) (b : Block) (p : Pkt), s.serves now 0x22 p b →
    ∃ r, exec (.limitQuery now) s = .next (s.served (b.finish p stOk r)) ∧ r.take 2 = u16 (b.fld F.LG_LIM1_EFF_thr)) ∧
  (∀ (s : State) (now : Ft) (b c : Block) (p : Pkt), s.serves now 0x23 p b → p.arg 0 1 ≠ 2 →
    b.ceilingRequest (p.arg 0 1) (p.arg 4 4) (b.requesterOf p.src) = (stOk, c) →
    exec (.ceilingUpdate now) s =
      .next (s.served (c.await p (.ceiling (p.arg 0 1)) stOk 0 (b.fld (usedF (p.arg 0 1)))))) ∧
  (∀ (s : State) (now : Ft) (b : Block) (p : Pkt), s.serves now 0x24 p b →
    exec (.ceilingQuery now) s = .next (s.served (b.finishBuf p
      ((List.range 3).flatMap (fun c => u32 (b.fld (F.LFC_CEIL_value c))) ++
        (List.range 3).flatMap (fun c => u8 (b.fld (usedF c)))) b.ceilingLog))) ∧
  (∀ (s : State) (now : Ft) (b : Block) (p : Pkt) (n : Nat), s.serves now 0x30 p b → p.arg 0 1 = n → n < 64 →
    p.arg 1 1 ≤ 2 → ∃ (st : Nat) (c : Block), (st, c) = (worse stOk (b.modeRequest p.master n (p.arg 1 1)).1,
        (b.modeRequest p.master n (p.arg 1 1)).2) ∧
      exec (.marginSetMode now) s = .next (s.served (c.finish p st (u8 (c.fld (F.LG_MARGIN_MODE_mode n)) ++
        u8 (c.fld (F.LG_MARGIN_MODE_blocked n)) ++ u8 (c.fld (F.LG_MARGIN_MODE_held n)))))) ∧
  (∀ (s : State) (now : Ft) (b : Block) (p : Pkt) (n v : Nat), s.serves now 0x31 p b → p.arg 0 1 = n → n < 64 →
    v = clampN 800000 2200000 (p.arg 4 4) →
    ∃ k, k = b.time.epoch + 1 ∧ exec (.marginSetFreq now) s = .next (s.served (b.single p k (k * 16384)
      (fun w => match w with | .pll _ _ => true | _ => false)
      [((0x100, n), b.fld (F.LG_MARGIN_FREQ_f_req n), v / 25000 * 25)] fun c won st =>
        (fun d : Block =>
          if (won.map (·.2)).all (fun m => d.freqFor m (v / 25000 * 25) == d.fld (F.LG_MARGIN_FREQ_f_now m) &&
              (d.margin m).pll == .idle) = true
          then d.effect p (worse st (clampSt (v != p.arg 4 4))) (b2n (v != p.arg 4 4)) 0
          else d.await p (.pll k (won.map (·.2))) (worse st (clampSt (v != p.arg 4 4))) (b2n (v != p.arg 4 4)) 0)
        (c.forAll (won.map (·.2)) fun d m => d.setFld (F.LG_MARGIN_FREQ_f_req m) (v / 25000 * 25))))) ∧
  (∀ (s : State) (now : Ft) (b d : Block) (p : Pkt) (cl : Bool), s.serves now 0x32 p b →
    b.writeParams p (p.arg 0x1C 4) = some (d, cl) → d.marginOk = true →
    ∃ (k : Nat) (f : Nat → Fld), k = b.time.epoch + 1 ∧
      f = (fun i => (marginParams.map (·.1)).getD i F.LG_MARGIN_PEN_pen_static) ∧
      exec (.marginSetParams now) s = .next (s.served (b.single p k (k * 16384) (· == .epoch k)
        (p.keys.map fun q => (q, b.fld (f q.2), d.fld (f q.2))) fun c won st => match c.writeParams p (keyMask won) with
          | some (c, _) => c.await p (.epoch k) (worse st (clampSt cl)) (b2n cl)
          | none => c))) ∧
  (∀ (s : State) (now : Ft) (b : Block) (p : Pkt), s.serves now 0x33 p b → p.arg 0 1 < 64 →
    exec (.marginQuery now) s = .next (s.served (b.finish p stOk (b.marginState (p.arg 0 1))))) ∧
  (∀ (s : State) (now : Ft) (b : Block) (p : Pkt), s.serves now 0x34 p b → p.arg 0 2 ≤ 1023 →
    b.isoTile (p.arg 0 2) = false → (b.post (p.arg 0 2)).powered = true →
    exec (.lanternCal now) s = .next (s.served ((b.calReq (p.arg 0 2)).await p (.cal (p.arg 0 2)) stOk 0)))

/-- Bundle, Winnow, table and cooling packets of class 0x4_ (Table 15-12; R643, R645). -/
def Obligations.CalibrationPacketsComplete : Prop :=
  (∀ (s : State) (now : Ft) (b e : Block) (p : Pkt) (g : Nat × Block → Block) , s.serves now 0x40 p b → b.updState = 0 →
    p.hasBuf = true → b.envCheck p.buf = stOk → e = b.crypto p.buf → (e.bundleStart p.buf).1 = stOk →
    (g = fun k => ((e.bundleStart p.buf).2 k.2).await p (.bundle (envType p.buf)) stOk 0
      (envType p.buf + rdAt p.buf 0x18 8 * 65536 + k.1 * 1208925819614629174706176)) →
    exec (.bundleLoad now) s = .next (s.served (g (e.loadedBank (envType p.buf))))) ∧
  (∀ (s : State) (b : Block) (e : TmeBank), s.ready b → b.hiu.loading = some (.tme e) →
    ∃ c : Block, c = { b with hiu := { b.hiu with loading := none } } ∧
      exec .bundleLoadVerified s = .next (s.done ((c.tmeLoad e).setFld F.TME_STATUS_inactive_valid 1))) ∧
  (∀ (s : State) (now : Ft) (b : Block) (p : Pkt), s.serves now 0x41 p b → p.arg 0 1 ≤ 2 → b.silo.loading = false →
    b.swapReady (p.arg 0 1) = true → b.tick + 8 ≤ p.arg 8 8 →
    exec (.bundleSwap now) s = .next (s.served
      ((b.swapSchedule (p.arg 0 1) (p.arg 8 8)).await p (.swap (p.arg 0 1)) stOk 0))) ∧
  (∀ (s : State) (now : Ft) (b : Block) (p : Pkt), s.serves now 0x42 p b → (winnowDoms (p.arg 0 1)).isEmpty = false →
    p.arg 1 1 = 0 → exec (.winnowCtrl now) s = .next (s.served
      ((b.forAll (winnowDoms (p.arg 0 1)) fun c d => c.setFld (F.WCE_DOM_CTRL_hold d) 1).effect p stOk 0))) ∧
  (∀ (s : State) (now : Ft) (b : Block) (p : Pkt) (k : Nat), s.serves now 0x43 p b →
    k = (if bit (p.arg 0x1C 4) 5 then b.nextPublication else b.nextCycle0) →
    ∃ f : Nat → Fld, f = (fun i => (winnowParams.map (·.1)).getD i F.WCE_CFG_conf_enter) ∧
      exec (.winnowCfg now) s = .next (s.served (b.single p k (k * 1024) (· == .tick k)
        (p.keys.map fun q => (q, b.fld (f q.2), (b.writeMasked p winnowParams).1.fld (f q.2))) fun c won st =>
          (c.writeFields p winnowParams (keyMask won)).1.await p (.tick k)
            (worse st (clampSt (b.writeMasked p winnowParams).2)) (b2n (b.writeMasked p winnowParams).2)))) ∧
  (∀ (s : State) (now : Ft) (b : Block) (p : Pkt), s.serves now 0x44 p b → p.arg 0 1 ≤ 71 → p.hasRes = true →
    exec (.winnowRead now) s = .next (s.served (b.finishBuf p (u8 (b.fld (F.WCE_DOM_CONF_conf (p.arg 0 1))) ++
      u8 (b.fld (F.WCE_DOM_CONF_outcome (p.arg 0 1))) ++ u16 (b.fld (F.WCE_DOM_CONF_n_acc (p.arg 0 1))))
        (b.winnowBytes (p.arg 0 1))))) ∧
  (∀ (s : State) (now : Ft) (b : Block) (p : Pkt), s.serves now 0x45 p b → p.arg 0 1 ≤ 1 → p.arg 2 1 = 0 →
    p.hasRes = true → exec (.eaRead now) s = .next (s.served (b.finishBuf p []
      (b.eaBytes (b.eaBank (b.flag F.EA_STATUS_bank_active)) (p.arg 0 1) (p.arg 1 1))))) ∧
  (∀ (s : State) (now : Ft) (b : Block) (p : Pkt) (v : Int), s.serves now 0x46 p b → p.arg 0x1C 4 = 2 →
    v = clampI 0 960 (p.argI 2 2) →
    exec (.coolSet now) s = .next (s.served (b.single p (b.time.step + 1) ((b.time.step + 1) * 131072)
      (· == .step (b.time.step + 1)) [((0x22, 0), b.fld F.TME_AMB_t_amb, v.toNat)] fun c _ _ =>
        (c.storeAmb v).await p (.step (b.time.step + 1)) (worse stOk (clampSt (v != p.argI 2 2)))
          (b2n (v != p.argI 2 2) + deferNote stOk)))) ∧
  (∀ (s : State) (now : Ft) (b : Block) (p : Pkt) (n : Nat), s.serves now 0x47 p b → n = clampN 1 1120 (p.arg 2 2) →
    p.arg 0 2 + n ≤ 1120 →
    exec (.thermalRead now) s = .next (s.served (b.finishBuf p (u64 (b.fld F.TME_LAST_STEP_ft))
      ((List.range n).flatMap fun i => u16 (b.fld (F.TME_NODE_T_temp (p.arg 0 2 + i)))) (clampSt (n != p.arg 2 2)))))

/-- Telemetry, trace and digest packets of class 0x5_ (Table 15-13). -/
def Obligations.TelemetryPacketsComplete : Prop :=
  (∀ (s : State) (now : Ft) (b : Block) (p : Pkt) (k v : Nat), s.serves now 0x50 p b → p.arg 0 1 ≤ 3 →
    p.arg 4 4 % 16 = 0 → p.arg 8 8 < 512 → k = b.time.epoch + 1 → v = clampN 16 1048576 (p.arg 4 4) →
    exec (.telemConfig now) s = .next (s.served (b.single p k (k * 16384) (· == .epoch k)
      [((0x24, p.arg 0 1), b.fld (F.TTU_TELEM_INT_interval (p.arg 0 1)), v)] fun c _ _ =>
        ((c.setFld (F.TTU_TELEM_MASK_mask (p.arg 0 1)) (p.arg 8 8)).setFld (F.TTU_TELEM_INT_interval (p.arg 0 1)) v).await
          p (.epoch k) (clampSt (v != p.arg 4 4)) (b2n (v != p.arg 4 4))))) ∧
  (∀ (s : State) (now : Ft) (b : Block) (p : Pkt) (l : List Nat) (k : Nat), s.serves now 0x51 p b → p.tiles = some l →
    p.arg 0 1 ≤ 1 → k = b.time.epoch + 1 →
    exec (.traceConfig now) s = .next (s.served (b.single p k (k * 16384) (· == .epoch k)
      (l.map fun t => ((0x103, t), b.fld (F.POST_CTRL_trace_en t), p.arg 0 1)) fun c won st =>
        (c.schedEpoch k (.trace (won.map (·.2)) (p.arg 0 1 == 1))).await p (.epoch k) (worse st (clampSt p.tilesCl))
          (b2n p.tilesCl)))) ∧
  (∀ (s : State) (now : Ft) (b : Block) (p : Pkt) (l : List Nat) (w k : Nat) (cl : Bool), s.serves now 0x52 p b →
    p.tiles = some l → widthCode (p.arg 8 1) = some w → p.arg 6 1 ≤ 1 → p.arg 7 1 ≤ 5 → p.arg 9 1 ≤ 1 →
    cl = (decide (7 < p.arg 0xA 1) || p.tilesCl) → k = b.time.epoch + 1 →
    exec (.digestConfig now) s = .next (s.served (b.single p k (k * 16384) (· == .epoch k)
      (l.map fun t => ((0x104, t), getBits (b.reg (F.POST_DIG_CFG_window t).off).toNat 6 18, digCfgOf p w)) fun c won st =>
        (c.schedEpoch k (.digest (won.map (·.2)) (digCfgOf p w))).await p (.epoch k) (worse st (clampSt cl))
          (b2n cl)))) ∧
  (∀ (s : State) (now : Ft) (b : Block) (p : Pkt) (l : List Nat), s.serves now 0x53 p b → p.arg 0 1 ≤ 4 →
    p.hasRes = true → l = b.ttu.sample.set (p.arg 0 1) →
    exec (.countersRead now) s = .next (s.served (b.finishBuf p []
      (u64 b.ttu.sample.b ++ u32 (p.arg 0 1) ++ u32 l.length ++ l.flatMap u64))))

/-- Fault and isolation packets of class 0x6_ (Table 15-14). -/
def Obligations.FaultPacketsComplete : Prop :=
  (∀ (s : State) (now : Ft) (b : Block) (p : Pkt), s.serves now 0x60 p b →
    exec (.faultRead now) s = .next (s.served (b.finishBuf p
      (u64 (b.reg 0x10000).toNat ++ u32 (b.reg 0x10010).toNat ++
        u32 (putBits (b.reg 0x10014).toNat 31 1 (b.fld F.FC_FIRST_valid)) ++ u64 (b.fld F.FC_FIRST_FT_ft) ++ u32 (b.reg 0x1000C).toNat ++ u16 (b.fld F.FC_RISK_score))
      ((List.range 26).flatMap b.groupRecord)))) ∧
  (∀ (s : State) (now : Ft) (b : Block) (p : Pkt) (c : Block), s.serves now 0x61 p b → p.arg 0 1 < 26 →
    p.arg 2 1 = 0 → p.arg 3 1 = 0 → c = b.grpClr (p.arg 0 1) (p.arg 1 1) →
    exec (.faultClear now) s = .next (s.served
      (c.finish p stOk (u8 (c.fld (F.FC_GRP_STICKY_sticky (p.arg 0 1))))))) ∧
  (∀ (s : State) (now : Ft) (b : Block) (p : Pkt) (c : Block), s.serves now 0x62 p b → p.arg 0 1 < 26 →
    sourceExists (p.arg 0 1) (p.arg 1 1) = true → p.arg 2 1 < 5 → sevFixed (p.arg 0 1) (p.arg 1 1) = false →
    c = (b.setSev (p.arg 0 1) (p.arg 1 1) (p.arg 2 1)).showFc →
    exec (.faultSetSev now) s = .next (s.served (c.finish p stOk (u8 (c.fld (sevField (p.arg 0 1) (p.arg 1 1))))))) ∧
  (∀ (s : State) (now : Ft) (b : Block) (p : Pkt), s.serves now 0x63 p b → p.arg 0x1C 4 = 1 → p.arg 0 1 ≤ 4 →
    exec (.faultSetCtrl now) s = .next (s.served
      ((b.setFld F.FC_CTRL_fault_n_min (p.arg 0 1)).showFc.finish p stOk))) ∧
  (∀ (s : State) (now : Ft) (b : Block) (p : Pkt) (u : Bool × Nat), s.serves now 0x64 p b →
    b.flag F.FC_ISO_STATUS_busy = false → p.unit = some u →
    exec (.isolate now) s = .next (s.served ((b.reqIsolate u).await p .iso stOk 0))) ∧
  (∀ (s : State) (now : Ft) (b : Block) (p : Pkt) (t : Nat), s.serves now 0x65 p b →
    b.flag F.FC_ISO_STATUS_busy = false → p.unit = some (false, t) →
    exec (.readmit now) s = .next (s.served ((b.reqReadmitTile t).await p .iso stOk 0))) ∧
  (∀ (s : State) (now : Ft) (b : Block) (p : Pkt), s.serves now 0x66 p b → p.arg 0 1 < 26 →
    sourceExists (p.arg 0 1) (p.arg 1 1) = true → p.arg 2 2 < 4096 → p.arg 4 1 ≤ 1 →
    exec (.faultForce now) s = .next (s.served ((((b.setFld F.FC_CTRL_force_dry (p.arg 4 1)).setFld
      F.FC_FORCE_INST_instance (p.arg 2 2)).grpForce (p.arg 0 1) (2 ^ p.arg 1 1)).finish p stOk))) ∧
  (∀ (s : State) (now : Ft) (b : Block) (p : Pkt) (c : Block), s.serves now 0x67 p b → b.fc.armed = none →
    injNames (p.arg 0 1) (p.arg 1 1) (p.arg 2 2) = true →
    c = ((((b.setFld F.FC_INJ_CTRL_det (p.arg 0 1)).setFld F.FC_INJ_CTRL_mode (p.arg 1 1)).setFld
      F.FC_INJ_CTRL_instance (p.arg 2 2)).setFld F.FC_INJ_CTRL_param
        (if p.arg 0 1 = 1 ∧ p.arg 4 1 = 0 then 1 else p.arg 4 1)).injGo →
    exec (.faultInject now) s = .next (s.served (c.finish p (if c.fld F.FC_INJ_STATUS_result = 1
      then clampSt (p.arg 0 1 = 1 ∧ p.arg 4 1 = 0) else stLocked) (u8 (c.fld F.FC_INJ_STATUS_result))))) ∧
  (∀ (s : State) (now : Ft) (b : Block) (p : Pkt) (c : Block), s.serves now 0x68 p b →
    c = (b.writeMasked p riskParams).1 →
    exec (.riskCfg now) s = .next (s.served (c.riskFollow.finish p (clampSt (b.writeMasked p riskParams).2)))) ∧
  (∀ (s : State) (now : Ft) (b : Block) (p : Pkt), s.serves now 0x69 p b →
    exec (.riskRead now) s = .next (s.served (b.finish p stOk b.riskRecord)))

/-- Image and lending packets of classes 0x7_ and 0x8_ (Tables 15-15, 15-16; R651, R652). -/
def Obligations.UpdatePacketsComplete : Prop :=
  (∀ (s : State) (now : Ft) (b : Block) (p : Pkt), s.serves now 0x70 p b → b.updState < 3 → p.hasBuf = true →
    p.arg 0 4 = 0 → p.arg 4 1 ≤ 1 → p.bufLen ≤ 524288 →
    exec (.imageLoad now) s = .next (s.served (b.imageChunk p))) ∧
  (∀ (s : State) (now : Ft) (b : Block) (p : Pkt), s.serves now 0x71 p b → activateRefused b p = none →
    (⟨b.region b.shadowReg⟩ : Image).reflMin ≤ b.fld F.FWC_IMAGE_INFO_refl_max →
    b.fld F.FWC_IMAGE_INFO_refl_max ≤ (⟨b.region b.shadowReg⟩ : Image).reflMax →
    ∃ c : Block, c = b.setFld F.FWC_UPD_STATUS_state 3 ∧ exec (.imageActivate now) s = .next (s.served
      ({ c with fwc := { c.fwc with updAt := c.now, supFail := false, actDone := none } }.await p .act stOk 0))) ∧
  (∀ (s : State) (now : Ft) (b : Block) (p : Pkt), s.serves now 0x72 p b → b.updState < 3 →
    exec (.imageDiscard now) s = .next (s.served (b.discard.finish p stOk))) ∧
  (∀ (s : State) (now : Ft) (b : Block) (p : Pkt), s.serves now 0x73 p b →
    b.flag F.FWC_IMAGE_INFO_shadow_valid = false →
    exec (.imageQuery now) s = .next (s.served (b.finish p stOk (u32 (b.reg 0x3004).toNat ++ u32 (b.reg 0x3008).toNat ++
      u32 (b.reg 0x300C).toNat ++ u32 0)))) ∧
  (∀ (s : State) (now : Ft) (b : Block) (p : Pkt) (cl : Bool), s.serves now 0x80 p b → b.groupBad p = false →
    cl = (p.arg 2 1 != 0 && p.arg 0 2 == 0) →
    exec (.groupSet now) s = .next (s.served
      ((b.dropGroup.groupStore p).await p (.group (p.arg 8 8)) (clampSt cl) (b2n cl)))) ∧
  (∀ (s : State) (now : Ft) (b : Block) (p : Pkt), s.serves now 0x81 p b → p.arg 0x1C 4 = 3 → p.arg 0 1 ≤ 1 →
    p.arg 1 1 ≤ 1 → exec (.lendCfg now) s = .next (s.served (((b.setFld F.HIU_LEND_CFG_lend_en (p.arg 0 1)).setFld
      F.HIU_LEND_CFG_borrow_en (p.arg 1 1)).finish p stOk))) ∧
  (∀ (s : State) (now : Ft) (b : Block) (p : Pkt), s.serves now 0x82 p b →
    ∃ r, exec (.lendQuery now) s = .next (s.served (b.finish p stOk r)) ∧
      r.take 2 = u8 (b.fld F.HIU_LEND_STATUS_role) ++ u8 (b.fld F.HIU_LEND_STATUS_leases))

/-- Diagnosis and lifecycle packets of classes 0x9_ and 0xA_ (Tables 15-17, 15-18; R654-R656, R679). -/
def Obligations.DiagnosisPacketsComplete : Prop :=
  (∀ (s : State) (now : Ft) (b : Block) (p : Pkt) (d : Dump), s.serves now 0x90 p b → p.arg 0 1 ≤ 1 →
    b.fwc.dumps.getD (p.arg 0 1) none = some d →
    exec (.dumpRead now) s = .next (s.served (b.finishBuf p (u8 (b.fld (slotValid (p.arg 0 1)))) d.bytes))) ∧
  (∀ (s : State) (now : Ft) (b : Block) (p : Pkt) (c : Block), s.serves now 0x91 p b →
    c = b.granaryClr (p.arg 0 1 % 4) →
    exec (.dumpClear now) s = .next (s.served
      (c.finish p stOk (u8 (c.fld (slotValid 0) + 2 * c.fld (slotValid 1)))))) ∧
  (∀ (s : State) (now : Ft) (b : Block) (p : Pkt), s.serves now 0x92 p b → p.arg 0 1 ≤ 3 →
    b.coreState (p.arg 0 1) = 0 →
    exec (.coreReset now) s = .next (s.served ((((b.setMapBit F.FWC_DBG_STATUS_halted (p.arg 0 1) false).crash
      (p.arg 0 1) 4).drainFollow).await p (.core (p.arg 0 1)) stOk 0))) ∧
  (∀ (s : State) (now : Ft) (b : Block) (p : Pkt), s.serves now 0x93 p b → b.flag F.FC_ISO_STATUS_busy = false →
    p.arg 0 2 ≤ 1023 → b.mayReadmit (p.arg 0 2) = true →
    exec (.postLbist now) s = .next (s.served ((b.startReadmit (p.arg 0 2) none true).await p (.lbist (p.arg 0 2))
      stOk 0))) ∧
  (∀ (s : State) (now : Ft) (b : Block) (p : Pkt), s.serves now 0x94 p b → b.now + 8192 ≤ p.arg 0 8 →
    b.fld F.TTU_STOP_STATUS_state = 0 → b.updState = 0 →
    exec (.globalStop now) s = .next (s.served (((b.setFld F.TTU_STOP_FT_stop_ft (p.arg 0 8)).stopArm).await p .stop
      stOk 0))) ∧
  (∀ (s : State) (now : Ft) (b : Block) (p : Pkt), s.serves now 0x95 p b → p.hasRes = true →
    (p.onP4 = true ∨ 81984 ≤ p.resLen) →
    exec (.wfgRead now) s = .next (s.served (b.finishBuf p [] b.wfgGraph))) ∧
  (∀ (s : State) (now : Ft) (b : Block) (p : Pkt), s.serves now 0xA0 p b →
    exec (.lcQuery now) s = .next (s.served (b.finish p stOk (u8 b.lcState ++ u8 (b.fld F.LFC_LC_transitions) ++
      u8 (b.fld F.LFC_KEYS_img_prog) ++ u8 (b.fld F.LFC_KEYS_img_revoked) ++ u8 (b.fld F.LFC_KEYS_bnd_prog) ++
      u8 (b.fld F.LFC_KEYS_bnd_revoked) ++ u8 (b.fld F.LFC_SVN_min_svn))))) ∧
  (∀ (s : State) (now : Ft) (b c : Block) (p : Pkt), s.serves now 0xA1 p b →
    b.transitionRequest (p.arg 0 1) p.buf (b.requesterOf p.src) = (stOk, c) →
    exec (.lcTransition now) s = .next (s.served (c.await p .fuse stOk 0))) ∧
  (∀ (s : State) (now : Ft) (b c : Block) (p : Pkt), s.serves now 0xA2 p b →
    b.revokeRequest (p.arg 0 1) (p.arg 1 1) p.buf (b.requesterOf p.src) = (stOk, c) →
    exec (.keyRevoke now) s = .next (s.served (c.await p .fuse stOk 0))) ∧
  (∀ (s : State) (now : Ft) (b c : Block) (p : Pkt), s.serves now 0xA3 p b →
    b.raiseRequest (p.arg 0 1) (b.requesterOf p.src) = (stOk, c) →
    exec (.svnRaise now) s = .next (s.served (c.await p .fuse stOk 0)))

/-- Telemetry, traces, the wait-for graph and the global stop (16_telemetry_trace_debug.md R660-R683). -/
def Obligations.TelemetryCommandsComplete : Prop :=
  (∀ (s : State) (now : Ft) (b c : Block) (ring : Fin 4) (i : Nat), s.readyAt now b →
    c = (if b.telDue ring.val (b.now / 1024) = true then b.telSwitch ring.val else b) →
    c.telEnded ring.val c.tick = some i → i * 1024 + 2048 ≤ c.now →
    exec (.telemetryIntervalEnd ring now) s = .next (s.done (c.telWrite ring.val (i * 1024)))) ∧
  (∀ (s : State) (b c : Block) (die : Die) (t : Tile) (r : TraceRec) (rest : List TraceRec), s.ready b →
    (b.post t.val).powered = true → (b.post t.val).trace = r :: rest → b.pnClear t.val 4 = true →
    (b.post t.val).digs.any (fun x => decide (x.ft ≤ r.ft)) = false → b.upFlits t.val 4 r.flits = some c →
    ∃ d : Block, d = c.setPost t.val { c.post t.val with trace := rest } ∧
      exec (.traceRecord die (some t)) s = .next (s.done
        ((if (d.flag F.TTU_CTRL_trace_fwd && !d.hopDrops t.val) = true
          then d.relayTrace (dieOfTile t.val) (.boundary r) 3 else d).sendDigs t.val))) ∧
  (∀ (s : State) (b c : Block) (die : Die) (r : TraceRec) (rest : List Vc3), s.ready b →
    (b.relay die.val).vc3 = .boundary r :: rest → b.sbLows die.val 3 r.tile r.flits = some c →
    exec (.traceRecord die none) s = .next (s.done
      ((c.popVc3 die.val (.boundary r) rest).traceArrive (traceOf c.now (r.flits.map (·.2)))))) ∧
  (∀ (s : State) (b c : Block) (die : Die) (r : DigestRec) (rest : List Vc3), s.ready b →
    (b.relay die.val).vc3 = .digest r :: rest → b.sbLows die.val 3 r.tile r.flits = some c →
    exec (.digestRecord die) s = .next (s.done
      ((c.popVc3 die.val (.digest r) rest).digestEntries (digestOf c.now (r.flits.map (·.2)))))) ∧
  (∀ (s : State) (b : Block), s.ready b → b.coreRuns 3 = true → b.time.ticking = true → b.now % 16777216 = 0 →
    exec .wfgBuild s = .next (s.done { b with ttu := { b.ttu with wfg := b.wfgGraph } })) ∧
  (∀ (s : State) (b : Block), s.ready b → b.fld F.TTU_STOP_STATUS_state = 0 →
    exec .stopArm s = .next (s.done ((b.setFld F.TTU_STOP_CTRL_arm 1).setFld F.TTU_STOP_STATUS_state 1))) ∧
  (∀ (s : State) (now : Ft) (b : Block) (items : List CapItem), s.readyAt now b → b.fld F.TTU_STOP_STATUS_state = 1 →
    b.fld F.TTU_STOP_FT_stop_ft ≤ b.now →
    ∃ t, exec (.globalStopCut items now) s = .next t ∧ t.block.fld F.TTU_STOP_STATUS_state = 2 ∧
      t.block.ttu.capture = (items.take 16382).map CapItem.bytes)

/-- Clocks, sources, gates and crossings (17_clocks_and_crossings.md R687-R719). -/
def Obligations.ClockCommandsComplete : Prop :=
  (∀ (s : State) (now : Ft) (b c d : Block) (m : Fin 3) (count : Nat), s.readyAt now b → b.stim 6 m.val = none →
    c = (b.setFldS (F.CTU_MON_dev m.val) ((count : Int) - 65536)).setFld (F.CTU_MON_stopped m.val) 0 →
    d = (if m.val = 2 then c.showAlt.setSat F.CTU_RING_ring_khz
      (count * 4000000 / 65536) else c) →
    exec (.monitorWindow m count now) s = .next (s.done
      (if (monitorRange m.val).1 ≤ count ∧ count ≤ (monitorRange m.val).2
        then (d.incSat (F.CTU_MON_good_run m.val)).qualify m.val
        else d.failSource (if m.val = 0 ∧ d.markersVouch = true then 1 else m.val)))) ∧
  (∀ (s : State) (now : Ft) (b : Block) (src : Fin 3), s.readyAt now b → b.flag (F.CTU_MON_stopped src.val) = false →
    exec (.sourceStop src now) s = .next (s.done ((b.setFld (F.CTU_MON_stopped src.val) 1).failSource src.val))) ∧
  (∀ (s : State) (now : Ft) (b : Block) (r : Nat), s.readyAt now b → b.clk.ref = some r → b.qualified r = true →
    b.srcEnabled r = true → b.flag F.CTU_CLK_STATUS_pll_lock = false → b.flag F.HUB_BOOT_STATUS_root_pll = false →
    b.rootCmd.1 = 2 →
    exec (.rootPllLock true now) s = .next (s.done ((b.setFld F.CTU_CLK_STATUS_pll_lock 1).switchRoot r))) ∧
  (∀ (s : State) (b : Block) (r : Nat), s.ready b → b.bestRef = some r → b.clk.ref = none →
    exec .retReq s = .next (s.done (b.setFld F.CTU_CLK_CTRL_ret_req 1).preferBetter)) ∧
  (∀ (s : State) (b : Block) (island : Fin 14), s.ready b → b.clk.stopped.contains island.val = true → island.val ≠ 1 →
    island.val ≠ 2 → (b.clk.stopped.filter (· != island.val)).isEmpty = false →
    exec (.islandSwitchComplete island) s = .next (s.done
      (({ b with clk := { b.clk with stopped := b.clk.stopped.filter (· != island.val) } }).showIsl island.val))) ∧
  (∀ (s : State) (now : Ft) (b : Block) (node : Fin 13) (die : Die), s.readyAt now b → node.val ≠ 6 →
    b.gateEn node.val = true → b.gateInUse node.val = false →
    exec (.gateClose node die now) s = .next (s.done (b.setMapBit F.CTU_GATE_STATUS_closed node.val true))) ∧
  (∀ (s : State) (now : Ft) (b : Block) (node : Fin 13) (die : Die), s.readyAt now b → node.val ≠ 6 →
    b.gateInUse node.val = true →
    exec (.gateOpen node die now) s = .next (s.done (b.setMapBit F.CTU_GATE_STATUS_closed node.val false))) ∧
  (∀ (s : State) (now : Ft) (b : Block) (crossing : Fin 2048), s.readyAt now b → cdcValid crossing.val 1 = true →
    cdcDest crossing.val = none → b.stim 7 crossing.val = none →
    exec (.cdcAgreementTimeout crossing now) s = .next (s.done (b.cdcFault crossing.val 0))) ∧
  (∀ (s : State) (now : Ft) (b : Block) (crossing : Fin 2048), s.readyAt now b → cdcValid crossing.val 3 = true →
    exec (.pulseCountOverflow crossing now) s = .next (s.done (b.cdcFault crossing.val 1)))

/-- Power states and the start of the core domains (18_reset_states_bringup.md R731-R738, Table 18-5). -/
def Obligations.PowerCommandsComplete : Prop :=
  (∀ (s : State) (now : Ft) (b : Block) (by_ : Fin 3) (value : Fin 4), s.readyAt now b → value.val ≠ 3 →
    b.hiu.claims = [] → b.power.phase = .rest →
    exec (.pstateTarget by_ value now) s = .next (s.done (({ b with hiu := { b.hiu with
      claims := [⟨0x105, 0, rankOf by_.val, b.tick, b.fld F.HUB_PSTATE_CTRL_target, value.val⟩] } } : Block).setFld F.HUB_PSTATE_CTRL_target value.val).actTarget)) ∧
  (∀ (s : State) (now : Ft) (b : Block), s.readyAt now b → b.power.phase = .drain →
    ((List.range 63).any fun c => decide (0 < sumN ((List.range 4).map fun d => b.busyTiles d (c + 1)))) = false →
    ((List.range 4).any fun d => !(b.slice d).gs || (b.slice d).grants.any b.outstanding) = false →
    exec (.idleGatedDrained now) s = .next (s.done (b.setPstate 1 .lower).freqAll)) ∧
  (∀ (s : State) (now : Ft) (b : Block), s.readyAt now b → b.power.phase = .lower →
    (List.range 64).all b.coreAtRest = true →
    exec (.idleGatedReached now) s = .next (s.done (b.setPstate 2 .rest).actTarget)) ∧
  (∀ (s : State) (now : Ft) (b : Block), s.readyAt now b → b.power.phase = .deep →
    ((List.range 64).all fun n => b.vstate n == Vs.off || b.vstate n == Vs.failed) = true →
    ∃ c : Block, c = (b.switchDeep true).setPstate 5 .rest ∧
      exec (.deepEntrySwitch now) s = .next (s.done (c.setPower { c.power with hold := true }).actTarget)) ∧
  (∀ (s : State) (now : Ft) (b : Block) (dom : CoreDom), s.readyAt now b → b.power.toStart.contains dom.val = true →
    b.power.x.toNat + 1024 + dom.val * (b.fld F.HUB_PSTATE_CFG_stagger * 64) ≤ b.now → b.vstate dom.val = Vs.off →
    b.isoDom dom.val = false → b.linkUp (dieOfDom dom.val) = true → b.fld F.LFC_LC_state ≠ 5 →
    exec (.deepExitDomainStart dom now) s = .next (s.done ((b.setPower { b.power with
      toStart := b.power.toStart.filter (· != dom.val), waking := b.power.waking ++ [dom.val] }).setFld
        (F.VRC_DOM_CTRL_en dom.val) 1))) ∧
  (∀ (s : State) (now : Ft) (b : Block), s.readyAt now b → b.power.phase = .wake → b.power.toStart.isEmpty = true →
    (b.power.waking.all fun n => b.vstate n == Vs.run || b.vstate n == Vs.failed) = true →
    ∃ c : Block, c = (b.setPstate 0 .rest).exitTime ∧
      exec (.deepExitComplete now) s = .next (s.done (c.setPower { c.power with waking := [] }).actTarget)) ∧
  (∀ (s : State) (now : Ft) (t : Nat) (b : Block), s.readyAt now b → b.power.uncoreAt = some t → b.timeState = 1 →
    b.flag F.HUB_BOOT_STATUS_image_started = true → b.flag F.HUB_BOOT_STATUS_core_up = false →
    b.power.phase = .rest → b.fld F.HUB_PSTATE_STATUS_state = 0 → b.power.toStart.isEmpty = true →
    ∃ l : List Nat, l = (List.range 64).filter (fun n =>
        b.vstate n == Vs.off && !b.flag (F.VRC_DOM_CTRL_en n) && !b.isoDom n) ∧
      exec (.coreDomainStart now) s = .next (s.done ((b.setPower { b.power with x := b.ft, toStart := l }).forAll l
        fun c n => ((c.setFld (F.LG_MARGIN_FREQ_f_req n) 1000).setFld (F.LG_MARGIN_MODE_req n) 0).applyFreq n)))

/-- Memory errors, page retirement and fuse operations (19_test_and_memory_protection.md R750-R757,
20_lifecycle_and_security.md R766-R776). -/
def Obligations.MemoryAndFuseCommandsComplete : Prop :=
  (∀ (s : State) (now : Ft) (b : Block) (sram : Fin 24) (addr : Nat) (syn : Byte) (copy : Bool), s.readyAt now b →
    addr < sramSize sram.val → b.eccStim sram.val 0 = false →
    ∃ c : Block, c = (b.eccLog sram.val 1 (if copy then 2 else 0) syn.toNat (addr / 8 * 8)).setFld
        F.BTC_ECC_STATUS_ce_seen 1 ∧
      exec (.eccCorrected sram addr syn copy now) s = .next (s.done (({ c with btc := { c.btc with
        weak := c.btc.weak.filter (· != (sram.val, addr / 8 * 8)) } } : Block).sramFault 0 sram.val))) ∧
  (∀ (s : State) (now : Ft) (b c d : Block) (sram : Fin 24) (addr : Nat) (syn : Byte) (copy : Bool) (who : Fin 4)
    (part : Nat), s.readyAt now b → addr < sramSize sram.val →
    c = b.eccFound sram.val addr syn.toNat (if copy then 2 else 0) → d = c.eccEngine sram.val part →
    exec (.eccUncorrectable sram addr syn copy who part now) s = .next (s.done
      (if copy = true then c else if sram.val = 0 ∨ sram.val = 1 ∨ sram.val = 5 then d.eccReader who.val else d))) ∧
  (∀ (s : State) (now : Ft) (b : Block) (sram : Fin 24) (addr : Nat) (syn : Byte) (part : Nat), s.readyAt now b →
    b.flag F.BTC_ECC_CFG_scrub_en = true → addr < sramSize sram.val →
    exec (.patrolScrub sram addr (2, syn) part now) s = .next (s.done (if sram.val = 2
      then (b.eccFound sram.val addr syn.toNat 1).eccEngine 2 part else b.eccFound sram.val addr syn.toNat 1))) ∧
  (∀ (s : State) (b : Block) (sram : Fin 4096) (page : Fin 512) (k : Nat), s.ready b →
    b.flag F.BTC_RETIRE_STATUS_busy = false → 4096 * page.val < sramSize sram.val →
    (spares sram.val).any (fun k => b.flag (F.BTC_RETIRE_valid k) && b.fld (F.BTC_RETIRE_page k) == page.val) = false →
    (spares sram.val).find? (fun k => !b.flag (F.BTC_RETIRE_valid k)) = some k →
    exec (.pageRetire sram page) s = .next (s.done
      (({ b with btc := { b.btc with copy := some (sram.val, page.val, k) } }).setFld F.BTC_RETIRE_STATUS_busy 1))) ∧
  (∀ (s : State) (now : Ft) (b : Block) (sram page k : Nat), s.readyAt now b → b.btc.copy = some (sram, page, k) →
    ∃ c : Block, c = ((({ b with btc := { b.btc with
        copy := none
        bad := b.btc.bad.map fun (x : Nat × Nat × Bool) =>
          if x.1 = sram ∧ x.2.1 / 4096 = page then (x.1, x.2.1, true) else x
        retired := b.btc.retired ++ [(k, page)] } }).setFld F.BTC_RETIRE_STATUS_busy 0).setFld
          F.BTC_RETIRE_STATUS_result 0) ∧
      exec (.pageRetireComplete now) s = .next (s.done (c.showRetired.raise 16 2 sram))) ∧
  (∀ (s : State) (now : Ft) (b : Block) (op : FuseOp) (c value : Nat) (ok : Bool), s.readyAt now b → b.lfc.op = some op →
    op.kind = .ceiling c value →
    exec (.ceilingProgramComplete ok now) s = .next (s.done (b.ceilingEnd op c value ok))) ∧
  (∀ (s : State) (now : Ft) (b : Block) (op : FuseOp) (ok : Bool) (readback : Fin 64), s.readyAt now b →
    b.lfc.op = some op → exec (.fuseOpComplete ok readback now) s =
      .next (s.done (b.fuseComplete op ok readback.val))) ∧
  (∀ (s : State) (b : Block) (op : FuseOp) (target at_ : Nat) (ok : Bool), s.ready b → b.lfc.due = some (op, ok, at_) →
    op.kind = .transition target → at_ < b.tick →
    exec .lcTransitionEffect s = .next (s.done (b.transitionEffect op target ok)))

/-- The management port (22_port_signals_and_register_map.md R809-R818): SMBus, MCTP control messages, vendor messages and
the board's converters. -/
def Obligations.ManagementCommandsComplete : Prop :=
  (∀ (s : State) (now : Ft) (b : Block), s.mgmtReady now b → b.flag F.MPU_SMB_CFG_ara_en = true →
    b.flag F.FC_SUMMARY_alert_pend = true →
    exec (.alertResponse now) s = .next (s.done (b.send (.ara (b.fld F.MPU_SMB_CFG_addr))))) ∧
  (∀ (s : State) (now : Ft) (b : Block), s.mgmtReady now b →
    exec (.smbusTimeout now) s = .next (s.done ((b.incSat F.MPU_STATUS_timeouts).raise 18 0 0))) ∧
  (∀ (s : State) (now : Ft) (b : Block), s.mgmtReady now b →
    exec (.pecError now) s = .next (s.done ((b.incSat F.MPU_STATUS_pec_errors).raise 18 0 0))) ∧
  (∀ (s : State) (now : Ft) (b : Block), s.mgmtReady now b → b.mpu.tx.any Tx.isMsg = true → b.mpu.arbLost < 15 →
    ∃ c : Block, c = b.setFld F.MPU_STATUS_arb_lost_seen 1 ∧ exec (.smbusArbitrationLost now) s =
      .next (s.done { c with mpu := { c.mpu with arbLost := c.mpu.arbLost + 1 } })) ∧
  (∀ (s : State) (now : Ft) (b : Block), s.mgmtReady now b →
    exec (.smbusUnsupportedTransaction now) s = .next (s.done b)) ∧
  (∀ (s : State) (now : Ft) (b : Block) (src eid : Byte) (inst : Fin 32) (op : Fin 4), s.mgmtReady now b → op.val < 2 →
    eid.toNat ≠ 0 → eid.toNat ≠ 255 →
    exec (.mctpSetEndpointId src inst op eid now) s = .next (s.done
      (((b.setFld F.MPU_MCTP_EID_eid eid.toNat).setFld F.MPU_STATUS_eid_set 1).mctpAnswer src.toNat inst.val 1 0
        (u8 0 ++ u8 eid.toNat ++ u8 0)))) ∧
  (∀ (s : State) (now : Ft) (b : Block) (src : Byte) (inst : Fin 32), s.mgmtReady now b →
    exec (.mctpGetEndpointId src inst now) s = .next (s.done
      (b.mctpAnswer src.toNat inst.val 2 0 (u8 (b.fld F.MPU_MCTP_EID_eid) ++ u8 0 ++ u8 0)))) ∧
  (∀ (s : State) (now : Ft) (b : Block) (src type : Byte) (inst : Fin 32), s.mgmtReady now b → type.toNat = 0x7F →
    exec (.mctpGetVersionSupport src inst type now) s = .next (s.done
      (b.mctpAnswer src.toNat inst.val 4 0 (u8 1 ++ u8 0xF1 ++ u8 0xF3 ++ u8 0xF0 ++ u8 0)))) ∧
  (∀ (s : State) (now : Ft) (b : Block) (src : Byte) (inst : Fin 32), s.mgmtReady now b →
    exec (.mctpGetMessageTypeSupport src inst now) s = .next (s.done
      (b.mctpAnswer src.toNat inst.val 5 0 (u8 1 ++ u8 0x7F)))) ∧
  (∀ (s : State) (now : Ft) (b : Block) (src selector : Byte) (inst : Fin 32), s.mgmtReady now b → selector.toNat = 0 →
    ∃ (set : List Byte) (c : Block), (set, c) = b.freeBytes 2 ∧
      exec (.mctpGetVendorSupport src inst selector now) s = .next (s.done
        (c.mctpAnswer src.toNat inst.val 6 0 (u8 0xFF ++ u8 1 ++ c.enterprise ++ set)))) ∧
  (∀ (s : State) (now : Ft) (b : Block) (src command : Byte) (inst : Fin 32), s.mgmtReady now b →
    mctpServed.contains command.toNat = false →
    exec (.mctpUnsupportedCommand src inst command now) s = .next (s.done
      (b.mctpAnswer src.toNat inst.val command.toNat 5))) ∧
  (∀ (s : State) (now : Ft) (b : Block) (eid seq : Byte) (entry payload : List Byte), s.mgmtReady now b →
    b.eidSet = true → entry.length = 64 → payload.length ≤ 4096 → (b.outstandingOf (64 + eid.toNat)).length < 4 →
    exec (.packet eid seq entry payload now) s = .next (s.done
      (b.takePacket ⟨64 + eid.toNat, entry, 0, some payload, b.now, seq.toNat⟩))) ∧
  (∀ (s : State) (now : Ft) (b c : Block) (eid seq width syn : Byte) (off : Word) (act : Activity) (v : Nat),
    s.readyAt now b → b.accepts = true → b.eidSet = true → accessShape off.toNat width.toNat = true →
    (b.sampleFor off.toNat act).busRead 1 off.toNat (width.toNat == 8) syn.toNat = some (.ok v, c) →
    exec (.regRead eid seq off width syn ⟨act, now⟩) s = .next (s.put
      (c.vendorAnswer eid.toNat 2 seq.toNat 0 (leBytes width.toNat v)).settle)) ∧
  (∀ (s : State) (now : Ft) (b c : Block) (eid seq width : Byte) (off : Word) (value : DWord), s.mgmtReady now b →
    b.eidSet = true → accessShape off.toNat width.toNat = true →
    b.busWrite 1 off.toNat (width.toNat == 8) value.toNat 0 = some (none, c) →
    exec (.regWrite eid seq off width value now) s = .next (s.done (c.vendorAnswer eid.toNat 3 seq.toNat 0))) ∧
  (∀ (s : State) (now : Ft) (b : Block) (eid seq : Byte) (last : Bool) (data : List Byte), s.mgmtReady now b →
    b.eidSet = true → 8 ≤ data.length → data.length ≤ 4096 → data.length % 8 = 0 →
    b.flag F.FWC_STATUS_rom_wait = true → b.fwc.bootPend = false → b.flag F.MPU_STATUS_boot_busy = false →
    exec (.bootChunk eid seq 0 last data now) s = .next (s.done
      (((({ b with fwc := { b.fwc with bootMgmt := data, bootPend := last } } : Block).setFld F.MPU_STATUS_boot_busy
        1).setFld F.FWC_BOOT_CTRL_result 1).bootAnswer eid.toNat seq.toNat 0))) ∧
  (∀ (s : State) (now : Ft) (b : Block) (eid cmd seq : Byte), s.mgmtReady now b → b.eidSet = true →
    exec (.malformedVendorMessage eid cmd seq now) s = .next (s.done
      (b.vendorAnswer eid.toNat (cmd.toNat % 128) seq.toNat 6))) ∧
  (∀ (s : State) (now : Ft) (b : Block) (reads : List (Option ConvRead)), s.mgmtReady now b → b.now % 16777216 = 0 →
    exec (.pmbusPoll reads now) s = .next (s.done (b.forAll (List.range 8) fun c k =>
      if c.convOn k then match reads.getD k none with
        | some r => c.convPoll k r
        | none => c.convFail k
      else c))) ∧
  (∀ (s : State) (now : Ft) (b : Block) (status : List (Option (BitVec 16))), s.mgmtReady now b →
    exec (.pmbAlert status now) s = .next (s.done (b.forAll (List.range 8) fun c k =>
      if c.convOn k then match status.getD k none with
        | some w =>
          if convBad w.toNat then ((c.setConv k { c.conv k with fails := 0 }).setFld (F.MPU_CONV_status_word k)
            w.toNat).raise 18 1 k
          else (c.setConv k { c.conv k with fails := 0 }).setFld (F.MPU_CONV_status_word k) w.toNat
        | none => c.convFail k
      else c))) ∧
  (∀ (s : State) (now : Ft) (b : Block) (k : Fin 8), s.mgmtReady now b → exec (.converterClr k now) s =
    .next (s.done { b with mpu := { b.mpu with tx := b.mpu.tx ++ [.clearFaults k.val] } }))

/-- The TAP (19_test_and_memory_protection.md, 22_port_signals_and_register_map.md R819-R822): the mandatory instructions are
always served, the others where LFC_ACCESS opens them; one whose access is closed acts as BYPASS. -/
def Obligations.TapCommandsComplete : Prop :=
  (∀ s : State, exec .tapReset s = .next (s.put { s.block with mpu := { s.block.mpu with
    tapOut := false, tapIr := 1, tapDr := s.block.idcode } })) ∧
  (∀ s : State, exec .idcode s = .next (s.put { s.block with mpu := { s.block.mpu with
    tapOut := true, tapIr := 1, tapDr := s.block.idcode } })) ∧
  (∀ s : State, exec .bypass s = .next (s.put { s.block with mpu := { s.block.mpu with
    tapOut := true, tapIr := 0xFF, tapDr := 0 } })) ∧
  (∀ (s : State) (pins load : BitVec 14), exec (.samplePreload pins load) s = .next (s.put { s.block with
    mpu := { s.block.mpu with tapOut := true, tapIr := 2, tapDr := s.block.sample pins, bsr := load } })) ∧
  (∀ (s : State) (pins load : BitVec 14), exec (.extest pins load) s = .next (s.put { s.block with
    mpu := { s.block.mpu with tapOut := true, tapIr := 0, tapDr := s.block.sample pins, bsr := load } })) ∧
  (∀ (s : State) (now : Ft) (b c : Block) (zero : Bool), s.readyAt now b → c = b.tap 0x10 0 →
    exec (.scanEnter zero now) s = .next (s.done
      (if b.access 1 = false then b.bypass
       else if c.scanEn = true then c
       else if zero = true then (c.zeroise.setFld F.BTC_STATUS_scan_en 1).showNonce
       else c.raise 22 0 0)) ∧
    c.zeroise.lfc.secrets = Secrets.zero ∧ c.zeroise.fld F.BTC_STATUS_zeroised = 1) ∧
  (∀ (s : State) (now : Ft) (b : Block) (unrep : BitVec 16) (rows cols : Nat), s.readyAt now b → b.access 2 = true →
    ∃ (a i : List Byte) (c d e f g : Block) (v : DWord), (a, c) = (b.tap 0x11 0).freeBytes b.fwc.imgA.length ∧
      (i, d) = c.freeBytes b.fwc.imgB.length ∧
      e = ({ d with fwc := { d.fwc with imgA := a, imgB := i, sram := [], elog := [] }, btc := { d.btc with mbist := true } }
        : Block).mbistResult unrep.toNat rows cols ∧
      f = e.forAll (srams.filter fun n => bit (e.fld F.BTC_MBIST_STATUS_mbist_unrep) (unrepBit n))
        (fun x n => x.raise 23 1 n) ∧
      (v, g) = f.free ∧ exec (.mbistRun unrep rows cols now) s = .next (s.done (g.tapResult (v.toNat % 2)))) ∧
  (∀ (s : State) (now : Ft) (b : Block) (entry : Word) (key : Option (BitVec 4 × List Byte)) (r : Nat × Block),
    s.readyAt now b → b.access 3 = true →
    r = (match key with
      | some (slot, hash) => (b.tap 0x12 0).keyRequest slot.toNat hash
      | none => (b.tap 0x12 0).repairRequest entry.toNat) →
    exec (.fuseProgram entry key now) s = .next (s.done (r.2.tapResult r.1))) ∧
  (∀ (s : State) (now : Ft) (b : Block) (c : Byte) (value : Word), s.readyAt now b → b.access 7 = true →
    exec (.tapCeilingUpdate c value now) s = .next (s.done
      (((b.tap 0x13 0).ceilingRequest c.toNat value.toNat requesterP6).2.tapResult
        ((b.tap 0x13 0).ceilingRequest c.toNat value.toNat requesterP6).1))) ∧
  (∀ (s : State) (now : Ft) (b : Block) (op : Byte) (record : List Byte), s.readyAt now b → b.access 0 = true →
    exec (.lcRequest op record now) s = .next (s.done
      (((b.tap 0x14 0).lcRequest op.toNat record).2.tapResult ((b.tap 0x14 0).lcRequest op.toNat record).1))) ∧
  (∀ (s : State) (now : Ft) (b : Block) (off : Fin 16777216) (write wide : Bool) (data : DWord) (syn : Byte)
    (act : Activity), s.readyAt now b → b.access 4 = true →
    ∃ (v code : Nat) (a c : Block), a = (if write = true then b.tap 0x15 0 else (b.tap 0x15 0).sampleFor off.val act) ∧
      (v, code, c) = a.tapAccess off.val write wide data.toNat syn.toNat ∧
      exec (.regAccess off write wide data syn ⟨act, now⟩) s = .next (s.put
        (c.tapResult (tapWord off.val write wide v code)).settle)) ∧
  (∀ (s : State) (now : Ft) (b : Block), s.readyAt now b →
    (∀ (unrep : BitVec 16) (rows cols : Nat), b.access 2 = false →
      exec (.mbistRun unrep rows cols now) s = .next (s.done b.bypass)) ∧
    (∀ (entry : Word) (key : Option (BitVec 4 × List Byte)), b.access 3 = false →
      exec (.fuseProgram entry key now) s = .next (s.done b.bypass)) ∧
    (∀ (c : Byte) (value : Word), b.access 7 = false →
      exec (.tapCeilingUpdate c value now) s = .next (s.done b.bypass)) ∧
    (∀ (op : Byte) (record : List Byte), b.access 0 = false →
      exec (.lcRequest op record now) s = .next (s.done b.bypass)) ∧
    (∀ (off : Fin 16777216) (write wide : Bool) (data : DWord) (syn : Byte) (act : Activity), b.access 4 = false →
      exec (.regAccess off write wide data syn ⟨act, now⟩) s = .next (s.put b.bypass.settle)))

/-! ## The machine as a whole -/

/-- A step takes the command at the front of the queue, first in, first out, and carries it out with the queue's rest;
on an empty queue the block idles (the model's choice, log entry 6). -/
def Obligations.StepRunsTheFrontCommand : Prop :=
  (∀ (c : Instr) (rest : List Instr) (s : State), step { s with pending := c :: rest } = exec c { s with pending := rest }) ∧
  (∀ s : State, step { s with pending := [] } = .next { s with pending := [] })

/-- The block after reset keeps the ring region's canonical form, with nothing listed and nothing waiting. -/
def Obligations.ResetHoldsTheInvariant : Prop :=
  State.reset.Inv ∧ State.reset.pending = [] ∧ ∀ a, State.reset.byte a = 0

/-- What reset leaves (Tables 02-1, 18-5, R85, R339): every register of the window reads its reset value, the CTU is in
ACQUIRING with FT reading 0, no Post is powered, no ring is on, no tile's context is set, no lending group stands and
no global stop. -/
def Obligations.ResetValues : Prop :=
  (∀ o, State.reset.block.reg o = resetWord o) ∧ State.reset.block.timeState = 0 ∧ State.reset.block.now = 0 ∧
  (∀ t, (State.reset.block.post t).powered = false) ∧ (∀ r < 128, State.reset.block.ringOn r = false) ∧
  State.reset.block.lend.cfg.n = 0 ∧ State.reset.block.frozen = false ∧ State.reset.block.rst.groups = false ∧
  State.reset.block.rst.warm = false ∧ State.reset.block.hiu.accepted = []

/-- A field written keeps its value modulo its width, and every field beside it keeps its own (00_scope.md R21). -/
def Obligations.FieldsKeepTheirPlaces : Prop :=
  ∀ (b : Block) (f g : Fld) (v : Nat), f.lo + f.width ≤ 64 → g.lo + g.width ≤ 64 →
    (b.setFld f v).fld f = v % 2 ^ f.width ∧
    (f.off ≠ g.off ∨ g.lo + g.width ≤ f.lo ∨ f.lo + f.width ≤ g.lo → (b.setFld f v).fld g = b.fld g)

/-- A saturating field stops at its top and at its bottom; a free-running counter wraps modulo its width (R13). -/
def Obligations.CountersSaturateOrWrap : Prop :=
  ∀ (b : Block) (f : Fld) (n : Nat), f.lo + f.width ≤ 64 →
    (b.incSat f n).fld f = min (b.fld f + n) (2 ^ f.width - 1) ∧
    (b.incWrap f n).fld f = (b.fld f + n) % 2 ^ f.width ∧
    ∀ v : Int, 0 < f.width → (b.setFldS f v).fldI f =
      if v < -(2 : Int) ^ (f.width - 1) then -(2 : Int) ^ (f.width - 1)
      else if (2 : Int) ^ (f.width - 1) - 1 < v then (2 : Int) ^ (f.width - 1) - 1 else v

/-- Time that a command's stamp brings forward never goes back, and while boundaries are generated it stays in the tick
in progress: the boundary is a command of its own (R83, R96; the stamp is the model's, log entry 5). -/
def Obligations.FabricTimeNeverGoesBack : Prop :=
  ∀ (b : Block) (stamp : Ft), b.now ≤ (b.advance stamp).now ∧ (b.advance stamp).timeState = b.timeState ∧
    (b.time.ticking = true → (b.advance stamp).tick = b.tick) ∧
    (b.time.ticking = false → b.timeState ≠ 0 →
      (b.advance stamp).now = max b.now (if b.inDeep = true then stamp.toNat / 8 * 8 else stamp.toNat)) ∧
    (b.timeState = 0 → (b.advance stamp).now = 0) ∧
    (b.tick * 1024 ≤ b.now ∧ b.now < (b.tick + 1) * 1024)

/-! ## Figures -/

/-- A short stamp expands to the largest value, not later than the receiver's own, with its low bits (R102); a value
delivered within 2^w - 1 units comes back. -/
def Obligations.ShortStampsExpand : Prop :=
  ∀ (w own short : Nat), short < 2 ^ w → short ≤ own →
    expandStamp w own short ≤ own ∧ expandStamp w own short % 2 ^ w = short ∧
    (∀ v, v ≤ own → v % 2 ^ w = short → v ≤ expandStamp w own short) ∧
    (∀ v, v ≤ own → own ≤ v + (2 ^ w - 1) → expandStamp w own (v % 2 ^ w) = v)

/-- A regressor value travels as a mantissa of 12 bits, rounded half up, and the smallest exponent that holds it (R219):
exactly up to 4,095, and within 2^-12 of what arrives up to the largest value. -/
def Obligations.RegressorsKeepTheirPrecision : Prop :=
  ∀ v : Nat, (v ≤ 134184960 → ∃ e m : Nat, e ≤ 15 ∧ m ≤ 4095 ∧ regCode v = m * 2 ^ e ∧ m = (v + 2 ^ e / 2) / 2 ^ e ∧
      (∀ k < e, 4095 < (v + 2 ^ k / 2) / 2 ^ k) ∧ (0 < e → 2048 ≤ m)) ∧
    (v ≤ 4095 → regCode v = v) ∧ regCode v ≤ 134184960 ∧
    (v ≤ 134184960 → 4096 * v ≤ 4097 * regCode v ∧ 4095 * regCode v ≤ 4096 * v)

/-- The window of a grant expands into the range of 175 before to 80 after the Post's own (07_launch_admission.md). -/
def Obligations.GrantWindowsExpand : Prop :=
  ∀ cur win : Nat, win < 256 → win ≤ cur + 80 →
    expandWin cur win % 256 = win ∧ cur ≤ expandWin cur win + 175 ∧ expandWin cur win ≤ cur + 80 ∧
    ∀ n, n % 256 = win → cur ≤ n + 175 → n ≤ cur + 80 → n = expandWin cur win

/-- A regulator's reference moves toward its target by the rate's step a period and never past it
(09_regulator_control.md). -/
def Obligations.ReferencesSlewTowardTheTarget : Prop :=
  ∀ ref tgt rate : Nat,
    (ref ≤ tgt → ref ≤ moveRef ref tgt rate ∧ moveRef ref tgt rate ≤ tgt ∧
      moveRef ref tgt rate = min (ref + (rate * 32768 + 500) / 1000) tgt) ∧
    (tgt ≤ ref → tgt ≤ moveRef ref tgt rate ∧ moveRef ref tgt rate ≤ ref ∧
      (moveRef ref tgt rate = tgt ∨ moveRef ref tgt rate + (rate * 32768 + 500) / 1000 = ref))

/-- A lender serves claims one by one: each grant is of its own claim, in whole watts and no more than the claim, and
the grants together are no more than the spare (11_budget_lending.md). -/
def Obligations.GrantsStayWithinTheSpare : Prop :=
  ∀ (claims : List (Nat × Nat)) (spare : Nat),
    (grantClaims claims spare).map (·.1) = claims.map (·.1) ∧ sumN ((grantClaims claims spare).map (·.2)) ≤ spare ∧
    ∀ k : Nat, ((grantClaims claims spare).getD k (0, 0)).2 ≤ (claims.getD k (0, 0)).2 ∧
      ((grantClaims claims spare).getD k (0, 0)).2 % 1000 = 0

/-- A context's total is split among the dies without loss, nothing going to a die without a part, and every part is at
least its proportion rounded down (07_launch_admission.md, the division). -/
def Obligations.DelegationsSumToTheTotal : Prop :=
  ∀ (tot : Nat) (parts : List Nat),
    (splitBy tot parts).length = parts.length ∧
    (sumN parts = 0 → sumN (splitBy tot parts) = 0) ∧
    (0 < sumN parts → sumN (splitBy tot parts) = tot ∧
      ∀ d < parts.length, tot * parts.getD d 0 / sumN parts ≤ (splitBy tot parts).getD d 0 ∧
        (parts.getD d 0 = 0 → (splitBy tot parts).getD d 0 = 0))

/-- The effective threshold is the smallest of the three requests and the top of the range
(06_limits_and_budgets.md). -/
def Obligations.EffectiveLimitsAreTheSmallest : Prop :=
  ∀ (b : Block) (n : Nat), b.limEff n ≤ b.limTop n ∧ (∀ m < 3, b.limEff n ≤ (b.limSlots n).getD m 0) ∧
    (b.limEff n = b.limTop n ∨ ∃ m < 3, b.limEff n = (b.limSlots n).getD m 0)

/-- While its link is down a Relay holds one Sheaf a tile: merging keeps that, leaves the other tiles' entries, and the
new entry's tile has one (01_architecture.md, 03_activity_sensing.md). -/
def Obligations.RelaysMergeOneSheafATile : Prop :=
  ∀ (l : List FifoE) (e : FifoE), (l.map (·.tile)).Nodup →
    ((fifoMerge l e).map (·.tile)).Nodup ∧ (∃ x ∈ fifoMerge l e, x.tile = e.tile) ∧
    ∀ x : FifoE, x.tile ≠ e.tile → (x ∈ fifoMerge l e ↔ x ∈ l)

/-! ## Encodings -/

/-- The words on the wires hold their fields: the Sheaf word every field of Table 03-3 in its place, and an even number of
ones; the header of a sideband flit those of Table 01-8, of a Post network flit those of Table 03-4; a domain measurement
record reads back at the Hub (Table 09-1, R102), and so do the two entries of a delegation flit (R337; which entry lies in
the low word is the model's, log entry 116). -/
def Obligations.SheafWordsHoldTheirFields : Prop :=
  (∀ (vc type cv cn source slot : Nat), vc < 4 → type < 64 → cv < 4 → cn < 64 → source < 2048 → slot < 8 →
    ∃ x : Nat, x = (sbHeader vc type cv cn source slot).toNat ∧ getBits x 30 2 = vc ∧ getBits x 24 6 = type ∧
      getBits x 22 2 = cv ∧ getBits x 16 6 = cn ∧ getBits x 5 11 = source ∧ getBits x 2 3 = slot ∧ getBits x 0 2 = 0) ∧
  (∀ (pn type pos cp cn : Nat) (nak : Bool), pn < 8 → type < 32 → pos < 16 → cp < 8 → cn < 8 →
    ∃ x : Nat, x = (chHeader pn type pos cp cn nak).toNat ∧ getBits x 21 3 = pn ∧ getBits x 16 5 = type ∧
      getBits x 12 4 = pos ∧ getBits x 9 3 = cp ∧ getBits x 6 3 = cn ∧ bit x 5 = nak ∧ getBits x 0 5 = 0) ∧
  (∀ (d tick : Nat) (m : Meas), d < 128 → m.v16 < 65536 → m.i16 < 65536 → m.phasesOn < 8 → m.state < 8 →
    m.tick ≤ tick → tick ≤ m.tick + 255 → measOfWord tick (m.word d) = m ∧ getBits (m.word d).toNat 57 7 = d ∧
      getBits (m.word d).toNat 1 6 = 0 ∧ parity 64 (m.word d).toNat = false) ∧
  (∀ (c c' x y : Nat), c < 64 → c' < 64 → ∃ w : DWord,
    w = pairBody (delegEntry c (quantDeleg x)) (delegEntry c' (quantDeleg y)) ∧
    delegOf w = [quantDeleg x, quantDeleg y] ∧ getBits w.toNat 26 6 = c ∧ getBits w.toNat 58 6 = c') ∧
  ∀ (t : Nat) (w : WSheaf), t < 1024 →
    getBits (sheafWord t w).toNat 54 10 = t ∧ getBits (sheafWord t w).toNat 46 8 = w.tick % 256 ∧
    getBits (sheafWord t w).toNat 30 16 = w.energy % 65536 ∧
    getBits (sheafWord t w).toNat 24 6 = share 63 w.run w.cycles ∧
    getBits (sheafWord t w).toNat 20 4 = share 15 w.str w.cycles ∧
    getBits (sheafWord t w).toNat 10 10 = w.tempQ % 1024 ∧ getBits (sheafWord t w).toNat 6 4 = w.glints % 16 ∧
    bit (sheafWord t w).toNat 5 = w.bank ∧ bit (sheafWord t w).toNat 4 = w.eSat ∧ bit (sheafWord t w).toNat 3 = w.tBad ∧
    bit (sheafWord t w).toNat 2 = w.merged ∧ bit (sheafWord t w).toNat 1 = w.probation ∧
    parity 64 (sheafWord t w).toNat = false

/-- A lending message that a member sends reads back, field by field, at every member of its group in the same interval
that it addresses (Table 11-2, R492). -/
def Obligations.LendingMessagesReadBack : Prop :=
  ∀ (a b : Block) (type dst amount want : Nat), 1 ≤ type → type ≤ 3 → dst < 256 → amount < 2 ^ 32 → want < 2 ^ 32 →
    a.lend.cfg.group < 65536 → a.lend.cfg.self < 256 → b.lend.cfg.group = a.lend.cfg.group →
    a.lend.cfg.self < b.lend.cfg.n → b.interval = a.interval → b.timeState = 1 →
    dst = (if type = 1 then 255 else b.lend.cfg.self) →
    (type = 3 → (b.lend.claims.any fun (x : Nat × Nat) => x.1 == a.lend.cfg.self) = true) →
    (type = 2 → b.lg.adj ≤ 0) →
    b.lendOk (a.lendMsg type dst amount want) = true ∧ (a.lendMsg type dst amount want).length = 32 ∧
    rdAt (a.lendMsg type dst amount want) 0 1 = type ∧ rdAt (a.lendMsg type dst amount want) 4 1 = a.lend.cfg.self ∧
    rdAt (a.lendMsg type dst amount want) 5 1 = dst ∧ rdAt (a.lendMsg type dst amount want) 8 8 = a.now ∧
    rdAt (a.lendMsg type dst amount want) 20 4 = amount ∧ rdAt (a.lendMsg type dst amount want) 24 4 = want

/-! ## The window (00_scope.md) -/

/-- A 64-bit read of a 64-bit register takes it at once. A 32-bit read of its low word latches the high word for the
requester alone, and the requester's next read of the high word returns that, whatever the register holds by then
(R23). -/
def Obligations.HighWordsComeFromTheLatch : Prop :=
  ∀ (b : Block) (req off : Nat) (row : RegRow), off + 4 < 0x600000 → row.wide = true → findReg off = some ⟨row, off, false⟩ →
    findReg (off + 4) = some ⟨row, off, true⟩ →
    (b.readWindow req off true).1 = b.regView off ∧
    (b.readWindow req off false).1 = b.regView off % 2 ^ 32 ∧
    (∀ other, other ≠ req → (b.readWindow req off false).2.latchOf other = b.latchOf other) ∧
    ∀ c : Block, c.latchOf req = (b.readWindow req off false).2.latchOf req →
      (c.readWindow req (off + 4) false).1 = b.regView off / 2 ^ 32 ∧
      (c.readWindow req (off + 4) false).2.latchOf req = none

/-- A write of the low word of a writable register changes the requester's held word alone, a second one replaces it, and
the write of the high word then acts as one 64-bit write of both; with no low word held the high word is written alone. A
write of the low word of a read-only register is ignored (R24). -/
def Obligations.LowWordsAreHeld : Prop :=
  ∀ (b : Block) (req off lo lo' hi : Nat) (row : RegRow), off + 4 < 0x600000 → row.wide = true →
    findReg off = some ⟨row, off, false⟩ → findReg (off + 4) = some ⟨row, off, true⟩ → lo < 2 ^ 32 → hi < 2 ^ 32 →
    (row.writable = false → b.writeWindow req off false lo = b) ∧
    (row.writable = true → b.writeWindow req off false lo = b.setHeld req (some (off, lo)) ∧
      (b.setHeld req (some (off, lo'))).writeWindow req off false lo = b.setHeld req (some (off, lo))) ∧
    (b.setHeld req (some (off, lo))).writeWindow req (off + 4) false hi =
      (b.setHeld req none).writeWindow req off true (lo + hi * 2 ^ 32) ∧
    (b.heldOf req = none → b.writeWindow req (off + 4) false hi =
      b.writeReg req off row (hi * 2 ^ 32) (2 ^ 64 - 2 ^ 32))

/-- A reserved offset reads as zero, and writes to it are ignored and complete without error
(00_scope.md, register access). -/
def Obligations.ReservedOffsetsReadZero : Prop :=
  ∀ (b : Block) (req off v syn : Nat), off < 0x600000 → findReg off = none → b.unreachable off = false →
    b.portRead req off false syn = (.ok 0, b.setRdata req 0) ∧ b.portWrite req off false v syn = (none, b)

/-! ## What each command may change -/

/-- A command leaves the queue's rest as it was; every byte of the ring region too, but for the two commands whose effect
is a DMA write. -/
def Obligations.CommandsKeepQueueAndRegion : Prop :=
  ∀ (c : Instr) (s t : State), exec c s = .next t →
    t.pending = s.pending ∧ (writesRegion c = false → t.mem = s.mem)

/-- A completion writes the bytes it names to the ring region in order, a later write over an earlier one, and every other
byte reads as before (14_rings_and_negotiation.md; R585). -/
def Obligations.CompletionsWriteTheirBytesAlone : Prop :=
  ∀ (s t : State) (now : Ft) (ring : Option Ring) (fail : Bool), s.block.rst.groups = false → s.block.frozen = false →
    exec (.completionWrite ring fail now) s = .next t →
    (∀ a, (∀ x ∈ ((s.block.advance now).completionWrite ring fail).2, ¬ (x.1 ≤ a ∧ a < x.1 + x.2.length)) →
      t.byte a = s.byte a) ∧
    (∀ (l r : Writes) (x : Nat × List Byte), ((s.block.advance now).completionWrite ring fail).2 = l ++ x :: r →
      ∀ k < x.2.length, (∀ y ∈ r, ¬ (y.1 ≤ x.1 + k ∧ x.1 + k < y.1 + y.2.length)) → t.byte (x.1 + k) = x.2.getD k 0) ∧
    t.pending = s.pending

/-- While the reset groups are asserted no unit acts: every command but the power-on reset, the release of the reset and
the instructions the TAP always serves leaves the state as it was (17_clocks_and_crossings.md, reset groups; the model's
reading of a command that arrives then). -/
def Obligations.NothingActsInReset : Prop :=
  ∀ (c : Instr) (s : State), s.block.rst.groups = true → actsInReset c = false → exec c s = .next s

/-- After the cut of a global stop the frozen parts change nothing, whatever command arrives (Table 16-15). -/
def Obligations.NothingFrozenActsAfterTheCut : Prop :=
  ∀ (c : Instr) (s : State), s.block.frozen = true → actsAfterCut c = false → exec c s = .next s

/-- The canonical form of the ring region is an invariant of every step, from every state that has it. -/
def Obligations.StepKeepsTheInvariant : Prop :=
  ∀ s t : State, s.Inv → step s = .next t → t.Inv
end

