-- ==== Sys2Proof/Laws/Bits.lean ====
section
/-! SUPPORT. Bit fields: what a replaced field and its neighbours read as. -/
namespace Sys2Proof.Machine

theorem testBit_getBits (x lo w i : Nat) : (getBits x lo w).testBit i = (decide (i < w) && x.testBit (lo + i)) := by
  simp [getBits, Nat.testBit_mod_two_pow, Nat.testBit_shiftRight]

theorem testBit_putBits (x lo w v i : Nat) :
    (putBits x lo w v).testBit i = if i < lo then x.testBit i else if i < lo + w then v.testBit (i - lo) else x.testBit i := by
  have e : putBits x lo w v = 2 ^ lo * (2 ^ w * (x >>> (lo + w)) + v % 2 ^ w) + x % 2 ^ lo := by
    unfold putBits
    rw [Nat.mul_add, ← Nat.mul_assoc, ← Nat.pow_add, Nat.mul_comm (2 ^ lo) (v % 2 ^ w), Nat.mul_comm (2 ^ (lo + w))]
    omega
  rw [e, Nat.testBit_two_pow_mul_add _ (Nat.mod_lt _ (Nat.two_pow_pos lo))]
  split
  · rename_i h; simp [Nat.testBit_mod_two_pow, h]
  · rename_i h
    rw [Nat.testBit_two_pow_mul_add _ (Nat.mod_lt _ (Nat.two_pow_pos w))]
    by_cases h2 : i < lo + w
    · have h3 : i - lo < w := by omega
      simp [h2, h3, Nat.testBit_mod_two_pow]
    · have h3 : ¬ i - lo < w := by omega
      have h4 : lo + w + (i - lo - w) = i := by omega
      simp [h2, h3, Nat.testBit_shiftRight, h4]

/-- A replaced field reads as the low bits of what was put there. -/
theorem getBits_putBits_same (x lo w v : Nat) : getBits (putBits x lo w v) lo w = v % 2 ^ w := by
  apply Nat.eq_of_testBit_eq
  intro i
  rw [testBit_getBits, testBit_putBits, Nat.testBit_mod_two_pow]
  by_cases h : i < w
  · have h1 : ¬ lo + i < lo := by omega
    have h2 : lo + i < lo + w := by omega
    have h3 : lo + i - lo = i := by omega
    simp only [h, h1, h2, h3, if_true, if_false, decide_true, Bool.true_and]
  · simp [h]

/-- A field beside the replaced one reads as before. -/
theorem getBits_putBits_disjoint (x lo w v lo' w' : Nat) (h : lo' + w' ≤ lo ∨ lo + w ≤ lo') :
    getBits (putBits x lo w v) lo' w' = getBits x lo' w' := by
  apply Nat.eq_of_testBit_eq
  intro i
  rw [testBit_getBits, testBit_getBits, testBit_putBits]
  by_cases hi : i < w'
  · rcases h with h | h
    · have h1 : lo' + i < lo := by omega
      simp [h1]
    · have h1 : ¬ lo' + i < lo := by omega
      have h2 : ¬ lo' + i < lo + w := by omega
      simp [h1, h2]
  · simp [hi]

/-- A field within the low `n` bits does not see what lies above. -/
theorem getBits_mod (x lo w n : Nat) (h : lo + w ≤ n) : getBits (x % 2 ^ n) lo w = getBits x lo w := by
  apply Nat.eq_of_testBit_eq
  intro i
  rw [testBit_getBits, testBit_getBits, Nat.testBit_mod_two_pow]
  by_cases hi : i < w
  · have : lo + i < n := by omega
    simp [this]
  · simp [hi]

theorem getBits_lt (x lo w : Nat) : getBits x lo w < 2 ^ w := Nat.mod_lt _ (Nat.two_pow_pos w)

/-- A value that fits is read back signed as it was. -/
theorem toSigned_ofSigned (w : Nat) (i : Int) (hw : 0 < w) (h1 : -(2 ^ (w - 1) : Nat) ≤ i) (h2 : i < (2 ^ (w - 1) : Nat)) :
    toSigned w (ofSigned w i) = i := by
  have hp : (2 : Nat) ^ w = 2 * 2 ^ (w - 1) := by
    obtain ⟨k, rfl⟩ : ∃ k, w = k + 1 := ⟨w - 1, by omega⟩
    simp [Nat.pow_succ, Nat.mul_comm]
  have hpos : 0 < 2 ^ (w - 1) := Nat.two_pow_pos _
  unfold toSigned ofSigned
  rw [hp]
  generalize (2 : Nat) ^ (w - 1) = m at *
  by_cases hi : 0 ≤ i
  · have e : i % ((2 * m : Nat) : Int) = i := Int.emod_eq_of_lt hi (by omega)
    rw [e]
    have e2 : i.toNat % (2 * m) = i.toNat := Nat.mod_eq_of_lt (by omega)
    rw [e2, if_pos (by omega)]
    omega
  · have e : i % ((2 * m : Nat) : Int) = i + (2 * m : Nat) := by
      rw [← Int.add_emod_right, Int.emod_eq_of_lt (by omega) (by omega)]
    rw [e]
    have e2 : (i + (2 * m : Nat)).toNat % (2 * m) = (i + (2 * m : Nat)).toNat := Nat.mod_eq_of_lt (by omega)
    rw [e2, if_neg (by omega)]
    omega

end Sys2Proof.Machine
end

