-- ==== Sys2Proof/Laws/Tab.lean ====
section
/-! SUPPORT. What reading a sparse table after a write gives, and that a write keeps the canonical form. -/
namespace Sys2Proof.Machine

section
variable {α : Type}

theorem Tab.erase_eq_filter (t : Tab α) (k : Nat) : Tab.erase t k = t.filter fun p => p.1 != k := by
  induction t with
  | nil => rfl
  | cons p t ih =>
    obtain ⟨k', v⟩ := p
    by_cases h : k' = k <;> simp [Tab.erase, h, ih]

theorem Tab.get_erase (d : Nat → α) (t : Tab α) (k j : Nat) :
    Tab.get d (Tab.erase t k) j = if k = j then d j else Tab.get d t j := by
  induction t with
  | nil => simp [Tab.erase, Tab.get]
  | cons p t ih =>
    obtain ⟨k', v⟩ := p
    simp only [Tab.erase]
    split
    · rename_i h; subst h; rw [ih]
      by_cases hj : k' = j <;> simp [Tab.get, hj]
    · rename_i h
      simp only [Tab.get, ih]
      split
      · rename_i h'; subst h'
        have : ¬ k = k' := fun e => h e.symm
        simp [this]
      · rfl

theorem Tab.get_insert (d : Nat → α) (t : Tab α) (k : Nat) (v : α) (j : Nat)
    (h : ∀ p ∈ t, p.1 ≠ k) :
    Tab.get d (Tab.insert t k v) j = if k = j then v else Tab.get d t j := by
  induction t with
  | nil => simp [Tab.insert, Tab.get]
  | cons p t ih =>
    obtain ⟨k', v'⟩ := p
    have hk : k' ≠ k := h (k', v') List.mem_cons_self
    have ih := ih fun p hp => h p (List.mem_cons_of_mem _ hp)
    simp only [Tab.insert]
    split
    · simp [Tab.get]
    · simp only [Tab.get, ih]
      split
      · rename_i hj; subst hj
        have : ¬ k = k' := fun e => hk e.symm
        simp [this]
      · rfl

theorem Tab.mem_erase (t : Tab α) (k : Nat) (p : Nat × α) : p ∈ Tab.erase t k ↔ p ∈ t ∧ p.1 ≠ k := by
  simp [Tab.erase_eq_filter]

theorem Tab.get_set [DecidableEq α] (d : Nat → α) (t : Tab α) (k : Nat) (v : α) (j : Nat) :
    Tab.get d (Tab.set d t k v) j = if k = j then v else Tab.get d t j := by
  unfold Tab.set
  split
  · rename_i h
    rw [Tab.get_erase]
    by_cases hj : k = j
    · subst hj; simp [h]
    · simp [hj]
  · rw [Tab.get_insert d _ k v j fun p hp => ((Tab.mem_erase t k p).1 hp).2, Tab.get_erase]
    by_cases hj : k = j <;> simp [hj]

/-- A table reads back what was last written at a key. -/
@[simp] theorem Tab.get_set_same [DecidableEq α] (d : Nat → α) (t : Tab α) (k : Nat) (v : α) :
    Tab.get d (Tab.set d t k v) k = v := by simp [Tab.get_set]

/-- A write leaves every other key alone. -/
theorem Tab.get_set_ne [DecidableEq α] (d : Nat → α) (t : Tab α) (k : Nat) (v : α) (j : Nat) (h : k ≠ j) :
    Tab.get d (Tab.set d t k v) j = Tab.get d t j := by simp [Tab.get_set, h]

theorem Tab.rising_iff (t : Tab α) : Tab.rising t = true ↔ (t.map Prod.fst).Pairwise (· < ·) := by
  induction t with
  | nil => simp [Tab.rising]
  | cons p t ih =>
    obtain ⟨k, v⟩ := p
    cases t with
    | nil => simp [Tab.rising]
    | cons q t =>
      obtain ⟨k', v'⟩ := q
      simp only [Tab.rising, Bool.and_eq_true, decide_eq_true_eq, ih]
      simp only [List.map_cons, List.pairwise_cons, List.mem_cons, forall_eq_or_imp]
      constructor
      · rintro ⟨h1, h2, h3⟩
        exact ⟨⟨h1, fun a ha => Nat.lt_trans h1 (h2 a ha)⟩, h2, h3⟩
      · rintro ⟨⟨h1, _⟩, h2, h3⟩
        exact ⟨h1, h2, h3⟩

theorem Tab.noDefault_iff [DecidableEq α] (d : Nat → α) (t : Tab α) :
    Tab.noDefault d t = true ↔ ∀ p ∈ t, p.2 ≠ d p.1 := by
  induction t with
  | nil => simp [Tab.noDefault]
  | cons p t ih =>
    obtain ⟨k, v⟩ := p
    simp [Tab.noDefault, ih]

theorem Tab.mem_insert (t : Tab α) (k : Nat) (v : α) (p : Nat × α) : p ∈ Tab.insert t k v ↔ p = (k, v) ∨ p ∈ t := by
  induction t with
  | nil => simp [Tab.insert]
  | cons q t ih =>
    obtain ⟨k', v'⟩ := q
    simp only [Tab.insert]
    split
    · simp
    · simp only [List.mem_cons, ih, or_left_comm]

theorem Tab.rising_insert (t : Tab α) (k : Nat) (v : α) (hk : ∀ p ∈ t, p.1 ≠ k)
    (h : (t.map Prod.fst).Pairwise (· < ·)) : ((Tab.insert t k v).map Prod.fst).Pairwise (· < ·) := by
  induction t with
  | nil => simp [Tab.insert]
  | cons q t ih =>
    obtain ⟨k', v'⟩ := q
    simp only [List.map_cons, List.pairwise_cons, List.mem_map, forall_exists_index, and_imp] at h
    have hne : k' ≠ k := hk (k', v') List.mem_cons_self
    simp only [Tab.insert]
    split
    · rename_i hlt
      simp only [List.map_cons, List.pairwise_cons, List.mem_cons, List.mem_map]
      refine ⟨?_, ?_, h.2⟩
      · rintro a (rfl | ⟨p, hp, rfl⟩)
        · exact hlt
        · exact Nat.lt_trans hlt (h.1 p.1 p hp rfl)
      · rintro a ⟨p, hp, rfl⟩
        exact h.1 p.1 p hp rfl
    · rename_i hlt
      simp only [List.map_cons, List.pairwise_cons, List.mem_map]
      refine ⟨?_, ih (fun p hp => hk p (List.mem_cons_of_mem _ hp)) h.2⟩
      rintro a ⟨p, hp, rfl⟩
      rcases (Tab.mem_insert t k v p).1 hp with rfl | hp
      · exact Nat.lt_of_le_of_ne (Nat.le_of_not_lt hlt) hne
      · exact h.1 p.1 p hp rfl

/-- A write keeps the canonical form. -/
theorem Tab.wf_set [DecidableEq α] (d : Nat → α) (t : Tab α) (k : Nat) (v : α) (h : Tab.wf d t = true) :
    Tab.wf d (Tab.set d t k v) = true := by
  simp only [Tab.wf, Bool.and_eq_true, Tab.rising_iff, Tab.noDefault_iff] at h ⊢
  have he : ((Tab.erase t k).map Prod.fst).Pairwise (· < ·) := by
    rw [Tab.erase_eq_filter]
    exact h.1.sublist (List.filter_sublist.map Prod.fst)
  unfold Tab.set
  split
  · exact ⟨he, fun p hp => h.2 p ((Tab.mem_erase t k p).1 hp).1⟩
  · rename_i hv
    refine ⟨Tab.rising_insert _ k v (fun p hp => ((Tab.mem_erase t k p).1 hp).2) he, fun p hp => ?_⟩
    rcases (Tab.mem_insert _ k v p).1 hp with rfl | hp
    · exact hv
    · exact h.2 p ((Tab.mem_erase t k p).1 hp).1

end

end Sys2Proof.Machine
end

