-- ==== Sys2Proof/Laws/Memory.lean ====
section
/-! SUPPORT. The ring region: what a DMA write changes, and that it keeps the canonical form. -/
namespace Sys2Proof.Machine

theorem Memory.wf_nil : Memory.wf [] = true := rfl

theorem Memory.foldl_wf (off : Nat) (l : List (Byte × Nat)) (m : Tab Byte) (h : Memory.wf m = true) :
    Memory.wf (l.foldl (fun (m : Tab Byte) (x : Byte × Nat) => Tab.set zeroB m (off + x.2) x.1) m) = true := by
  induction l generalizing m with
  | nil => exact h
  | cons x l ih => exact ih _ (Tab.wf_set zeroB m _ _ h)

/-- A DMA write keeps the canonical form. -/
theorem Memory.wf_write (m : Tab Byte) (off : Nat) (l : List Byte) (h : Memory.wf m = true) :
    Memory.wf (Memory.write m off l) = true := Memory.foldl_wf off l.zipIdx m h

/-- A list of DMA writes keeps it. -/
theorem Memory.wf_writes (w : Writes) (m : Tab Byte) (h : Memory.wf m = true) :
    Memory.wf (w.foldl (fun m w => Memory.write m w.1 w.2) m) = true := by
  induction w generalizing m with
  | nil => exact h
  | cons x w ih => exact ih _ (Memory.wf_write m x.1 x.2 h)

theorem Memory.foldl_get (off n : Nat) (l : List Byte) (m : Tab Byte) (a : Nat) :
    Tab.get zeroB ((l.zipIdx n).foldl (fun (m : Tab Byte) (x : Byte × Nat) => Tab.set zeroB m (off + x.2) x.1) m) a =
      if off + n ≤ a ∧ a < off + n + l.length then l.getD (a - (off + n)) 0 else Tab.get zeroB m a := by
  induction l generalizing n m with
  | nil =>
    have : ¬ (off + n ≤ a ∧ a < off + n + 0) := by omega
    simp only [List.zipIdx_nil, List.foldl_nil, List.length_nil, this, if_false]
  | cons x l ih =>
    simp only [List.zipIdx_cons, List.foldl_cons, ih, Tab.get_set, List.length_cons]
    by_cases h : off + n = a
    · subst h
      have h1 : ¬ (off + (n + 1) ≤ off + n ∧ off + n < off + (n + 1) + l.length) := by omega
      have h2 : off + n ≤ off + n ∧ off + n < off + n + (l.length + 1) := by omega
      rw [if_neg h1, if_pos rfl, if_pos h2, Nat.sub_self, List.getD_cons_zero]
    · by_cases h1 : off + (n + 1) ≤ a ∧ a < off + (n + 1) + l.length
      · have h2 : off + n ≤ a ∧ a < off + n + (l.length + 1) := by omega
        have h3 : a - (off + n) = (a - (off + (n + 1))) + 1 := by omega
        simp only [h1, h2, if_true, and_self, h3, List.getD_cons_succ]
      · have h2 : ¬ (off + n ≤ a ∧ a < off + n + (l.length + 1)) := by omega
        simp only [h1, h2, if_false, h]

/-- A byte after a DMA write: the written one inside, as before outside. -/
theorem Memory.get_write (m : Tab Byte) (off : Nat) (l : List Byte) (a : Nat) :
    Tab.get zeroB (Memory.write m off l) a =
      if off ≤ a ∧ a < off + l.length then l.getD (a - off) 0 else Tab.get zeroB m a := by
  unfold Memory.write
  exact Memory.foldl_get off 0 l m a

/-- A byte outside every one of a list of DMA writes reads as before. -/
theorem Memory.get_writes_outside (w : Writes) (m : Tab Byte) (a : Nat)
    (h : ∀ x ∈ w, ¬ (x.1 ≤ a ∧ a < x.1 + x.2.length)) :
    Tab.get zeroB (w.foldl (fun m w => Memory.write m w.1 w.2) m) a = Tab.get zeroB m a := by
  induction w generalizing m with
  | nil => rfl
  | cons x w ih =>
    simp only [List.foldl_cons]
    rw [ih _ fun y hy => h y (List.mem_cons_of_mem _ hy), Memory.get_write, if_neg (h x List.mem_cons_self)]

end Sys2Proof.Machine
end

