-- ==== Sys2Proof/Laws/Regs.lean ====
section
/-! SUPPORT. Register fields: what a write of one field changes. -/
namespace Sys2Proof.Machine

/-- A stored register reads back. -/
@[simp] theorem Block.reg_setReg (s : Block) (o : Nat) (v : DWord) : (s.setReg o v).reg o = v := by
  simp [Block.reg, Block.setReg]

/-- Another register reads as before. -/
theorem Block.reg_setReg_ne (s : Block) (o o' : Nat) (v : DWord) (h : o ≠ o') : (s.setReg o v).reg o' = s.reg o' :=
  Tab.get_set_ne _ _ _ _ _ h

/-- A written field reads back, modulo its width. -/
theorem Block.fld_setFld (s : Block) (f : Fld) (v : Nat) (h : f.lo + f.width ≤ 64) :
    (s.setFld f v).fld f = v % 2 ^ f.width := by
  unfold Block.fld Block.setFld
  rw [Block.reg_setReg, BitVec.toNat_ofNat, getBits_mod _ _ _ _ h, getBits_putBits_same]

/-- A field of another register reads as before. -/
theorem Block.fld_setFld_off (s : Block) (f g : Fld) (v : Nat) (h : f.off ≠ g.off) : (s.setFld f v).fld g = s.fld g := by
  unfold Block.fld Block.setFld
  rw [Block.reg_setReg_ne _ _ _ _ h]

/-- A field beside the written one reads as before. -/
theorem Block.fld_setFld_disjoint (s : Block) (f g : Fld) (v : Nat) (hg : g.lo + g.width ≤ 64)
    (h : f.off ≠ g.off ∨ g.lo + g.width ≤ f.lo ∨ f.lo + f.width ≤ g.lo) : (s.setFld f v).fld g = s.fld g := by
  by_cases ho : f.off = g.off
  · have h' : g.lo + g.width ≤ f.lo ∨ f.lo + f.width ≤ g.lo := h.resolve_left fun e => e ho
    unfold Block.fld Block.setFld
    rw [← ho, Block.reg_setReg, BitVec.toNat_ofNat, getBits_mod _ _ _ _ hg, getBits_putBits_disjoint _ _ _ _ _ _ h']
  · exact Block.fld_setFld_off s f g v ho

/-- A register that holds no written field reads as before. -/
theorem Block.reg_setFld_ne (s : Block) (f : Fld) (v o : Nat) (h : f.off ≠ o) : (s.setFld f v).reg o = s.reg o :=
  Block.reg_setReg_ne _ _ _ _ h

end Sys2Proof.Machine
end

