-- ==== Sys2Proof/Laws/State.lean ====
section
/-! SUPPORT. One lemma per component and named update: what the update leaves as it was. -/
namespace Sys2Proof.Machine

variable (s : Block)

@[simp] theorem Block.time_setReg (o : Nat) (v : DWord) : (s.setReg o v).time = s.time := rfl
@[simp] theorem Block.links_setReg (o : Nat) (v : DWord) : (s.setReg o v).links = s.links := rfl
@[simp] theorem Block.posts_setReg (o : Nat) (v : DWord) : (s.setReg o v).posts = s.posts := rfl
@[simp] theorem Block.tiles_setReg (o : Nat) (v : DWord) : (s.setReg o v).tiles = s.tiles := rfl
@[simp] theorem Block.relays_setReg (o : Nat) (v : DWord) : (s.setReg o v).relays = s.relays := rfl
@[simp] theorem Block.chains_setReg (o : Nat) (v : DWord) : (s.setReg o v).chains = s.chains := rfl
@[simp] theorem Block.wce_setReg (o : Nat) (v : DWord) : (s.setReg o v).wce = s.wce := rfl
@[simp] theorem Block.fc_setReg (o : Nat) (v : DWord) : (s.setReg o v).fc = s.fc := rfl
@[simp] theorem Block.shadow_setReg (o : Nat) (v : DWord) : (s.setReg o v).shadow = s.shadow := rfl
@[simp] theorem Block.ttu_setReg (o : Nat) (v : DWord) : (s.setReg o v).ttu = s.ttu := rfl
@[simp] theorem Block.lg_setReg (o : Nat) (v : DWord) : (s.setReg o v).lg = s.lg := rfl
@[simp] theorem Block.therm_setReg (o : Nat) (v : DWord) : (s.setReg o v).therm = s.therm := rfl
@[simp] theorem Block.silo_setReg (o : Nat) (v : DWord) : (s.setReg o v).silo = s.silo := rfl
@[simp] theorem Block.slices_setReg (o : Nat) (v : DWord) : (s.setReg o v).slices = s.slices := rfl
@[simp] theorem Block.sdoms_setReg (o : Nat) (v : DWord) : (s.setReg o v).sdoms = s.sdoms := rfl
@[simp] theorem Block.margins_setReg (o : Nat) (v : DWord) : (s.setReg o v).margins = s.margins := rfl
@[simp] theorem Block.vdoms_setReg (o : Nat) (v : DWord) : (s.setReg o v).vdoms = s.vdoms := rfl
@[simp] theorem Block.vphs_setReg (o : Nat) (v : DWord) : (s.setReg o v).vphs = s.vphs := rfl
@[simp] theorem Block.vslices_setReg (o : Nat) (v : DWord) : (s.setReg o v).vslices = s.vslices := rfl
@[simp] theorem Block.ea_setReg (o : Nat) (v : DWord) : (s.setReg o v).ea = s.ea := rfl
@[simp] theorem Block.power_setReg (o : Nat) (v : DWord) : (s.setReg o v).power = s.power := rfl
@[simp] theorem Block.clk_setReg (o : Nat) (v : DWord) : (s.setReg o v).clk = s.clk := rfl
@[simp] theorem Block.rst_setReg (o : Nat) (v : DWord) : (s.setReg o v).rst = s.rst := rfl
@[simp] theorem Block.btc_setReg (o : Nat) (v : DWord) : (s.setReg o v).btc = s.btc := rfl
@[simp] theorem Block.tme_setReg (o : Nat) (v : DWord) : (s.setReg o v).tme = s.tme := rfl
@[simp] theorem Block.lend_setReg (o : Nat) (v : DWord) : (s.setReg o v).lend = s.lend := rfl
@[simp] theorem Block.fwc_setReg (o : Nat) (v : DWord) : (s.setReg o v).fwc = s.fwc := rfl
@[simp] theorem Block.hiu_setReg (o : Nat) (v : DWord) : (s.setReg o v).hiu = s.hiu := rfl
@[simp] theorem Block.mpu_setReg (o : Nat) (v : DWord) : (s.setReg o v).mpu = s.mpu := rfl
@[simp] theorem Block.lfc_setReg (o : Nat) (v : DWord) : (s.setReg o v).lfc = s.lfc := rfl
@[simp] theorem Block.marginCfg_setReg (o : Nat) (v : DWord) : (s.setReg o v).marginCfg = s.marginCfg := rfl
@[simp] theorem Block.freeCounter_setReg (o : Nat) (v : DWord) : (s.setReg o v).freeCounter = s.freeCounter := rfl

@[simp] theorem Block.time_setFld (f : Fld) (v : Nat) : (s.setFld f v).time = s.time := rfl
@[simp] theorem Block.links_setFld (f : Fld) (v : Nat) : (s.setFld f v).links = s.links := rfl
@[simp] theorem Block.posts_setFld (f : Fld) (v : Nat) : (s.setFld f v).posts = s.posts := rfl
@[simp] theorem Block.tiles_setFld (f : Fld) (v : Nat) : (s.setFld f v).tiles = s.tiles := rfl
@[simp] theorem Block.relays_setFld (f : Fld) (v : Nat) : (s.setFld f v).relays = s.relays := rfl
@[simp] theorem Block.chains_setFld (f : Fld) (v : Nat) : (s.setFld f v).chains = s.chains := rfl
@[simp] theorem Block.wce_setFld (f : Fld) (v : Nat) : (s.setFld f v).wce = s.wce := rfl
@[simp] theorem Block.fc_setFld (f : Fld) (v : Nat) : (s.setFld f v).fc = s.fc := rfl
@[simp] theorem Block.shadow_setFld (f : Fld) (v : Nat) : (s.setFld f v).shadow = s.shadow := rfl
@[simp] theorem Block.ttu_setFld (f : Fld) (v : Nat) : (s.setFld f v).ttu = s.ttu := rfl
@[simp] theorem Block.lg_setFld (f : Fld) (v : Nat) : (s.setFld f v).lg = s.lg := rfl
@[simp] theorem Block.therm_setFld (f : Fld) (v : Nat) : (s.setFld f v).therm = s.therm := rfl
@[simp] theorem Block.silo_setFld (f : Fld) (v : Nat) : (s.setFld f v).silo = s.silo := rfl
@[simp] theorem Block.slices_setFld (f : Fld) (v : Nat) : (s.setFld f v).slices = s.slices := rfl
@[simp] theorem Block.sdoms_setFld (f : Fld) (v : Nat) : (s.setFld f v).sdoms = s.sdoms := rfl
@[simp] theorem Block.margins_setFld (f : Fld) (v : Nat) : (s.setFld f v).margins = s.margins := rfl
@[simp] theorem Block.vdoms_setFld (f : Fld) (v : Nat) : (s.setFld f v).vdoms = s.vdoms := rfl
@[simp] theorem Block.vphs_setFld (f : Fld) (v : Nat) : (s.setFld f v).vphs = s.vphs := rfl
@[simp] theorem Block.vslices_setFld (f : Fld) (v : Nat) : (s.setFld f v).vslices = s.vslices := rfl
@[simp] theorem Block.ea_setFld (f : Fld) (v : Nat) : (s.setFld f v).ea = s.ea := rfl
@[simp] theorem Block.power_setFld (f : Fld) (v : Nat) : (s.setFld f v).power = s.power := rfl
@[simp] theorem Block.clk_setFld (f : Fld) (v : Nat) : (s.setFld f v).clk = s.clk := rfl
@[simp] theorem Block.rst_setFld (f : Fld) (v : Nat) : (s.setFld f v).rst = s.rst := rfl
@[simp] theorem Block.btc_setFld (f : Fld) (v : Nat) : (s.setFld f v).btc = s.btc := rfl
@[simp] theorem Block.tme_setFld (f : Fld) (v : Nat) : (s.setFld f v).tme = s.tme := rfl
@[simp] theorem Block.lend_setFld (f : Fld) (v : Nat) : (s.setFld f v).lend = s.lend := rfl
@[simp] theorem Block.fwc_setFld (f : Fld) (v : Nat) : (s.setFld f v).fwc = s.fwc := rfl
@[simp] theorem Block.hiu_setFld (f : Fld) (v : Nat) : (s.setFld f v).hiu = s.hiu := rfl
@[simp] theorem Block.mpu_setFld (f : Fld) (v : Nat) : (s.setFld f v).mpu = s.mpu := rfl
@[simp] theorem Block.lfc_setFld (f : Fld) (v : Nat) : (s.setFld f v).lfc = s.lfc := rfl
@[simp] theorem Block.marginCfg_setFld (f : Fld) (v : Nat) : (s.setFld f v).marginCfg = s.marginCfg := rfl
@[simp] theorem Block.freeCounter_setFld (f : Fld) (v : Nat) : (s.setFld f v).freeCounter = s.freeCounter := rfl

@[simp] theorem Block.win_setLink (k : Nat) (x : LinkS) : (s.setLink k x).win = s.win := rfl
@[simp] theorem Block.time_setLink (k : Nat) (x : LinkS) : (s.setLink k x).time = s.time := rfl
@[simp] theorem Block.posts_setLink (k : Nat) (x : LinkS) : (s.setLink k x).posts = s.posts := rfl
@[simp] theorem Block.tiles_setLink (k : Nat) (x : LinkS) : (s.setLink k x).tiles = s.tiles := rfl
@[simp] theorem Block.relays_setLink (k : Nat) (x : LinkS) : (s.setLink k x).relays = s.relays := rfl
@[simp] theorem Block.chains_setLink (k : Nat) (x : LinkS) : (s.setLink k x).chains = s.chains := rfl
@[simp] theorem Block.fc_setLink (k : Nat) (x : LinkS) : (s.setLink k x).fc = s.fc := rfl
@[simp] theorem Block.therm_setLink (k : Nat) (x : LinkS) : (s.setLink k x).therm = s.therm := rfl
@[simp] theorem Block.slices_setLink (k : Nat) (x : LinkS) : (s.setLink k x).slices = s.slices := rfl
@[simp] theorem Block.sdoms_setLink (k : Nat) (x : LinkS) : (s.setLink k x).sdoms = s.sdoms := rfl
@[simp] theorem Block.margins_setLink (k : Nat) (x : LinkS) : (s.setLink k x).margins = s.margins := rfl
@[simp] theorem Block.vdoms_setLink (k : Nat) (x : LinkS) : (s.setLink k x).vdoms = s.vdoms := rfl
@[simp] theorem Block.vphs_setLink (k : Nat) (x : LinkS) : (s.setLink k x).vphs = s.vphs := rfl
@[simp] theorem Block.vslices_setLink (k : Nat) (x : LinkS) : (s.setLink k x).vslices = s.vslices := rfl
@[simp] theorem Block.rst_setLink (k : Nat) (x : LinkS) : (s.setLink k x).rst = s.rst := rfl
@[simp] theorem Block.hiu_setLink (k : Nat) (x : LinkS) : (s.setLink k x).hiu = s.hiu := rfl
@[simp] theorem Block.freeCounter_setLink (k : Nat) (x : LinkS) : (s.setLink k x).freeCounter = s.freeCounter := rfl
@[simp] theorem Block.fld_setLink (k : Nat) (x : LinkS) (f : Fld) : (s.setLink k x).fld f = s.fld f := rfl

@[simp] theorem Block.win_setPost (k : Nat) (x : PostS) : (s.setPost k x).win = s.win := rfl
@[simp] theorem Block.time_setPost (k : Nat) (x : PostS) : (s.setPost k x).time = s.time := rfl
@[simp] theorem Block.links_setPost (k : Nat) (x : PostS) : (s.setPost k x).links = s.links := rfl
@[simp] theorem Block.tiles_setPost (k : Nat) (x : PostS) : (s.setPost k x).tiles = s.tiles := rfl
@[simp] theorem Block.relays_setPost (k : Nat) (x : PostS) : (s.setPost k x).relays = s.relays := rfl
@[simp] theorem Block.chains_setPost (k : Nat) (x : PostS) : (s.setPost k x).chains = s.chains := rfl
@[simp] theorem Block.fc_setPost (k : Nat) (x : PostS) : (s.setPost k x).fc = s.fc := rfl
@[simp] theorem Block.therm_setPost (k : Nat) (x : PostS) : (s.setPost k x).therm = s.therm := rfl
@[simp] theorem Block.slices_setPost (k : Nat) (x : PostS) : (s.setPost k x).slices = s.slices := rfl
@[simp] theorem Block.sdoms_setPost (k : Nat) (x : PostS) : (s.setPost k x).sdoms = s.sdoms := rfl
@[simp] theorem Block.margins_setPost (k : Nat) (x : PostS) : (s.setPost k x).margins = s.margins := rfl
@[simp] theorem Block.vdoms_setPost (k : Nat) (x : PostS) : (s.setPost k x).vdoms = s.vdoms := rfl
@[simp] theorem Block.vphs_setPost (k : Nat) (x : PostS) : (s.setPost k x).vphs = s.vphs := rfl
@[simp] theorem Block.vslices_setPost (k : Nat) (x : PostS) : (s.setPost k x).vslices = s.vslices := rfl
@[simp] theorem Block.rst_setPost (k : Nat) (x : PostS) : (s.setPost k x).rst = s.rst := rfl
@[simp] theorem Block.hiu_setPost (k : Nat) (x : PostS) : (s.setPost k x).hiu = s.hiu := rfl
@[simp] theorem Block.freeCounter_setPost (k : Nat) (x : PostS) : (s.setPost k x).freeCounter = s.freeCounter := rfl
@[simp] theorem Block.fld_setPost (k : Nat) (x : PostS) (f : Fld) : (s.setPost k x).fld f = s.fld f := rfl

@[simp] theorem Block.win_setTile (k : Nat) (x : RelTile) : (s.setTile k x).win = s.win := rfl
@[simp] theorem Block.time_setTile (k : Nat) (x : RelTile) : (s.setTile k x).time = s.time := rfl
@[simp] theorem Block.links_setTile (k : Nat) (x : RelTile) : (s.setTile k x).links = s.links := rfl
@[simp] theorem Block.posts_setTile (k : Nat) (x : RelTile) : (s.setTile k x).posts = s.posts := rfl
@[simp] theorem Block.relays_setTile (k : Nat) (x : RelTile) : (s.setTile k x).relays = s.relays := rfl
@[simp] theorem Block.chains_setTile (k : Nat) (x : RelTile) : (s.setTile k x).chains = s.chains := rfl
@[simp] theorem Block.fc_setTile (k : Nat) (x : RelTile) : (s.setTile k x).fc = s.fc := rfl
@[simp] theorem Block.therm_setTile (k : Nat) (x : RelTile) : (s.setTile k x).therm = s.therm := rfl
@[simp] theorem Block.slices_setTile (k : Nat) (x : RelTile) : (s.setTile k x).slices = s.slices := rfl
@[simp] theorem Block.sdoms_setTile (k : Nat) (x : RelTile) : (s.setTile k x).sdoms = s.sdoms := rfl
@[simp] theorem Block.margins_setTile (k : Nat) (x : RelTile) : (s.setTile k x).margins = s.margins := rfl
@[simp] theorem Block.vdoms_setTile (k : Nat) (x : RelTile) : (s.setTile k x).vdoms = s.vdoms := rfl
@[simp] theorem Block.vphs_setTile (k : Nat) (x : RelTile) : (s.setTile k x).vphs = s.vphs := rfl
@[simp] theorem Block.vslices_setTile (k : Nat) (x : RelTile) : (s.setTile k x).vslices = s.vslices := rfl
@[simp] theorem Block.rst_setTile (k : Nat) (x : RelTile) : (s.setTile k x).rst = s.rst := rfl
@[simp] theorem Block.hiu_setTile (k : Nat) (x : RelTile) : (s.setTile k x).hiu = s.hiu := rfl
@[simp] theorem Block.freeCounter_setTile (k : Nat) (x : RelTile) : (s.setTile k x).freeCounter = s.freeCounter := rfl
@[simp] theorem Block.fld_setTile (k : Nat) (x : RelTile) (f : Fld) : (s.setTile k x).fld f = s.fld f := rfl

@[simp] theorem Block.win_setRelay (k : Nat) (x : RelayS) : (s.setRelay k x).win = s.win := rfl
@[simp] theorem Block.time_setRelay (k : Nat) (x : RelayS) : (s.setRelay k x).time = s.time := rfl
@[simp] theorem Block.links_setRelay (k : Nat) (x : RelayS) : (s.setRelay k x).links = s.links := rfl
@[simp] theorem Block.posts_setRelay (k : Nat) (x : RelayS) : (s.setRelay k x).posts = s.posts := rfl
@[simp] theorem Block.tiles_setRelay (k : Nat) (x : RelayS) : (s.setRelay k x).tiles = s.tiles := rfl
@[simp] theorem Block.chains_setRelay (k : Nat) (x : RelayS) : (s.setRelay k x).chains = s.chains := rfl
@[simp] theorem Block.fc_setRelay (k : Nat) (x : RelayS) : (s.setRelay k x).fc = s.fc := rfl
@[simp] theorem Block.therm_setRelay (k : Nat) (x : RelayS) : (s.setRelay k x).therm = s.therm := rfl
@[simp] theorem Block.slices_setRelay (k : Nat) (x : RelayS) : (s.setRelay k x).slices = s.slices := rfl
@[simp] theorem Block.sdoms_setRelay (k : Nat) (x : RelayS) : (s.setRelay k x).sdoms = s.sdoms := rfl
@[simp] theorem Block.margins_setRelay (k : Nat) (x : RelayS) : (s.setRelay k x).margins = s.margins := rfl
@[simp] theorem Block.vdoms_setRelay (k : Nat) (x : RelayS) : (s.setRelay k x).vdoms = s.vdoms := rfl
@[simp] theorem Block.vphs_setRelay (k : Nat) (x : RelayS) : (s.setRelay k x).vphs = s.vphs := rfl
@[simp] theorem Block.vslices_setRelay (k : Nat) (x : RelayS) : (s.setRelay k x).vslices = s.vslices := rfl
@[simp] theorem Block.rst_setRelay (k : Nat) (x : RelayS) : (s.setRelay k x).rst = s.rst := rfl
@[simp] theorem Block.hiu_setRelay (k : Nat) (x : RelayS) : (s.setRelay k x).hiu = s.hiu := rfl
@[simp] theorem Block.freeCounter_setRelay (k : Nat) (x : RelayS) : (s.setRelay k x).freeCounter = s.freeCounter := rfl
@[simp] theorem Block.fld_setRelay (k : Nat) (x : RelayS) (f : Fld) : (s.setRelay k x).fld f = s.fld f := rfl

@[simp] theorem Block.win_setChain (k : Nat) (x : ChainS) : (s.setChain k x).win = s.win := rfl
@[simp] theorem Block.time_setChain (k : Nat) (x : ChainS) : (s.setChain k x).time = s.time := rfl
@[simp] theorem Block.links_setChain (k : Nat) (x : ChainS) : (s.setChain k x).links = s.links := rfl
@[simp] theorem Block.posts_setChain (k : Nat) (x : ChainS) : (s.setChain k x).posts = s.posts := rfl
@[simp] theorem Block.tiles_setChain (k : Nat) (x : ChainS) : (s.setChain k x).tiles = s.tiles := rfl
@[simp] theorem Block.relays_setChain (k : Nat) (x : ChainS) : (s.setChain k x).relays = s.relays := rfl
@[simp] theorem Block.fc_setChain (k : Nat) (x : ChainS) : (s.setChain k x).fc = s.fc := rfl
@[simp] theorem Block.therm_setChain (k : Nat) (x : ChainS) : (s.setChain k x).therm = s.therm := rfl
@[simp] theorem Block.slices_setChain (k : Nat) (x : ChainS) : (s.setChain k x).slices = s.slices := rfl
@[simp] theorem Block.sdoms_setChain (k : Nat) (x : ChainS) : (s.setChain k x).sdoms = s.sdoms := rfl
@[simp] theorem Block.margins_setChain (k : Nat) (x : ChainS) : (s.setChain k x).margins = s.margins := rfl
@[simp] theorem Block.vdoms_setChain (k : Nat) (x : ChainS) : (s.setChain k x).vdoms = s.vdoms := rfl
@[simp] theorem Block.vphs_setChain (k : Nat) (x : ChainS) : (s.setChain k x).vphs = s.vphs := rfl
@[simp] theorem Block.vslices_setChain (k : Nat) (x : ChainS) : (s.setChain k x).vslices = s.vslices := rfl
@[simp] theorem Block.rst_setChain (k : Nat) (x : ChainS) : (s.setChain k x).rst = s.rst := rfl
@[simp] theorem Block.hiu_setChain (k : Nat) (x : ChainS) : (s.setChain k x).hiu = s.hiu := rfl
@[simp] theorem Block.freeCounter_setChain (k : Nat) (x : ChainS) : (s.setChain k x).freeCounter = s.freeCounter := rfl
@[simp] theorem Block.fld_setChain (k : Nat) (x : ChainS) (f : Fld) : (s.setChain k x).fld f = s.fld f := rfl

@[simp] theorem Block.win_setTherm (k : Nat) (x : ThermS) : (s.setTherm k x).win = s.win := rfl
@[simp] theorem Block.time_setTherm (k : Nat) (x : ThermS) : (s.setTherm k x).time = s.time := rfl
@[simp] theorem Block.links_setTherm (k : Nat) (x : ThermS) : (s.setTherm k x).links = s.links := rfl
@[simp] theorem Block.posts_setTherm (k : Nat) (x : ThermS) : (s.setTherm k x).posts = s.posts := rfl
@[simp] theorem Block.tiles_setTherm (k : Nat) (x : ThermS) : (s.setTherm k x).tiles = s.tiles := rfl
@[simp] theorem Block.relays_setTherm (k : Nat) (x : ThermS) : (s.setTherm k x).relays = s.relays := rfl
@[simp] theorem Block.chains_setTherm (k : Nat) (x : ThermS) : (s.setTherm k x).chains = s.chains := rfl
@[simp] theorem Block.fc_setTherm (k : Nat) (x : ThermS) : (s.setTherm k x).fc = s.fc := rfl
@[simp] theorem Block.slices_setTherm (k : Nat) (x : ThermS) : (s.setTherm k x).slices = s.slices := rfl
@[simp] theorem Block.sdoms_setTherm (k : Nat) (x : ThermS) : (s.setTherm k x).sdoms = s.sdoms := rfl
@[simp] theorem Block.margins_setTherm (k : Nat) (x : ThermS) : (s.setTherm k x).margins = s.margins := rfl
@[simp] theorem Block.vdoms_setTherm (k : Nat) (x : ThermS) : (s.setTherm k x).vdoms = s.vdoms := rfl
@[simp] theorem Block.vphs_setTherm (k : Nat) (x : ThermS) : (s.setTherm k x).vphs = s.vphs := rfl
@[simp] theorem Block.vslices_setTherm (k : Nat) (x : ThermS) : (s.setTherm k x).vslices = s.vslices := rfl
@[simp] theorem Block.rst_setTherm (k : Nat) (x : ThermS) : (s.setTherm k x).rst = s.rst := rfl
@[simp] theorem Block.hiu_setTherm (k : Nat) (x : ThermS) : (s.setTherm k x).hiu = s.hiu := rfl
@[simp] theorem Block.freeCounter_setTherm (k : Nat) (x : ThermS) : (s.setTherm k x).freeCounter = s.freeCounter := rfl
@[simp] theorem Block.fld_setTherm (k : Nat) (x : ThermS) (f : Fld) : (s.setTherm k x).fld f = s.fld f := rfl

@[simp] theorem Block.win_setSlice (k : Nat) (x : SliceS) : (s.setSlice k x).win = s.win := rfl
@[simp] theorem Block.time_setSlice (k : Nat) (x : SliceS) : (s.setSlice k x).time = s.time := rfl
@[simp] theorem Block.links_setSlice (k : Nat) (x : SliceS) : (s.setSlice k x).links = s.links := rfl
@[simp] theorem Block.posts_setSlice (k : Nat) (x : SliceS) : (s.setSlice k x).posts = s.posts := rfl
@[simp] theorem Block.tiles_setSlice (k : Nat) (x : SliceS) : (s.setSlice k x).tiles = s.tiles := rfl
@[simp] theorem Block.relays_setSlice (k : Nat) (x : SliceS) : (s.setSlice k x).relays = s.relays := rfl
@[simp] theorem Block.chains_setSlice (k : Nat) (x : SliceS) : (s.setSlice k x).chains = s.chains := rfl
@[simp] theorem Block.fc_setSlice (k : Nat) (x : SliceS) : (s.setSlice k x).fc = s.fc := rfl
@[simp] theorem Block.therm_setSlice (k : Nat) (x : SliceS) : (s.setSlice k x).therm = s.therm := rfl
@[simp] theorem Block.sdoms_setSlice (k : Nat) (x : SliceS) : (s.setSlice k x).sdoms = s.sdoms := rfl
@[simp] theorem Block.margins_setSlice (k : Nat) (x : SliceS) : (s.setSlice k x).margins = s.margins := rfl
@[simp] theorem Block.vdoms_setSlice (k : Nat) (x : SliceS) : (s.setSlice k x).vdoms = s.vdoms := rfl
@[simp] theorem Block.vphs_setSlice (k : Nat) (x : SliceS) : (s.setSlice k x).vphs = s.vphs := rfl
@[simp] theorem Block.vslices_setSlice (k : Nat) (x : SliceS) : (s.setSlice k x).vslices = s.vslices := rfl
@[simp] theorem Block.rst_setSlice (k : Nat) (x : SliceS) : (s.setSlice k x).rst = s.rst := rfl
@[simp] theorem Block.hiu_setSlice (k : Nat) (x : SliceS) : (s.setSlice k x).hiu = s.hiu := rfl
@[simp] theorem Block.freeCounter_setSlice (k : Nat) (x : SliceS) : (s.setSlice k x).freeCounter = s.freeCounter := rfl
@[simp] theorem Block.fld_setSlice (k : Nat) (x : SliceS) (f : Fld) : (s.setSlice k x).fld f = s.fld f := rfl

@[simp] theorem Block.win_setSdom (k : Nat) (x : SiloDom) : (s.setSdom k x).win = s.win := rfl
@[simp] theorem Block.time_setSdom (k : Nat) (x : SiloDom) : (s.setSdom k x).time = s.time := rfl
@[simp] theorem Block.links_setSdom (k : Nat) (x : SiloDom) : (s.setSdom k x).links = s.links := rfl
@[simp] theorem Block.posts_setSdom (k : Nat) (x : SiloDom) : (s.setSdom k x).posts = s.posts := rfl
@[simp] theorem Block.tiles_setSdom (k : Nat) (x : SiloDom) : (s.setSdom k x).tiles = s.tiles := rfl
@[simp] theorem Block.relays_setSdom (k : Nat) (x : SiloDom) : (s.setSdom k x).relays = s.relays := rfl
@[simp] theorem Block.chains_setSdom (k : Nat) (x : SiloDom) : (s.setSdom k x).chains = s.chains := rfl
@[simp] theorem Block.fc_setSdom (k : Nat) (x : SiloDom) : (s.setSdom k x).fc = s.fc := rfl
@[simp] theorem Block.therm_setSdom (k : Nat) (x : SiloDom) : (s.setSdom k x).therm = s.therm := rfl
@[simp] theorem Block.slices_setSdom (k : Nat) (x : SiloDom) : (s.setSdom k x).slices = s.slices := rfl
@[simp] theorem Block.margins_setSdom (k : Nat) (x : SiloDom) : (s.setSdom k x).margins = s.margins := rfl
@[simp] theorem Block.vdoms_setSdom (k : Nat) (x : SiloDom) : (s.setSdom k x).vdoms = s.vdoms := rfl
@[simp] theorem Block.vphs_setSdom (k : Nat) (x : SiloDom) : (s.setSdom k x).vphs = s.vphs := rfl
@[simp] theorem Block.vslices_setSdom (k : Nat) (x : SiloDom) : (s.setSdom k x).vslices = s.vslices := rfl
@[simp] theorem Block.rst_setSdom (k : Nat) (x : SiloDom) : (s.setSdom k x).rst = s.rst := rfl
@[simp] theorem Block.hiu_setSdom (k : Nat) (x : SiloDom) : (s.setSdom k x).hiu = s.hiu := rfl
@[simp] theorem Block.freeCounter_setSdom (k : Nat) (x : SiloDom) : (s.setSdom k x).freeCounter = s.freeCounter := rfl
@[simp] theorem Block.fld_setSdom (k : Nat) (x : SiloDom) (f : Fld) : (s.setSdom k x).fld f = s.fld f := rfl

@[simp] theorem Block.win_setMargin (k : Nat) (x : MarginS) : (s.setMargin k x).win = s.win := rfl
@[simp] theorem Block.time_setMargin (k : Nat) (x : MarginS) : (s.setMargin k x).time = s.time := rfl
@[simp] theorem Block.links_setMargin (k : Nat) (x : MarginS) : (s.setMargin k x).links = s.links := rfl
@[simp] theorem Block.posts_setMargin (k : Nat) (x : MarginS) : (s.setMargin k x).posts = s.posts := rfl
@[simp] theorem Block.tiles_setMargin (k : Nat) (x : MarginS) : (s.setMargin k x).tiles = s.tiles := rfl
@[simp] theorem Block.relays_setMargin (k : Nat) (x : MarginS) : (s.setMargin k x).relays = s.relays := rfl
@[simp] theorem Block.chains_setMargin (k : Nat) (x : MarginS) : (s.setMargin k x).chains = s.chains := rfl
@[simp] theorem Block.fc_setMargin (k : Nat) (x : MarginS) : (s.setMargin k x).fc = s.fc := rfl
@[simp] theorem Block.therm_setMargin (k : Nat) (x : MarginS) : (s.setMargin k x).therm = s.therm := rfl
@[simp] theorem Block.slices_setMargin (k : Nat) (x : MarginS) : (s.setMargin k x).slices = s.slices := rfl
@[simp] theorem Block.sdoms_setMargin (k : Nat) (x : MarginS) : (s.setMargin k x).sdoms = s.sdoms := rfl
@[simp] theorem Block.vdoms_setMargin (k : Nat) (x : MarginS) : (s.setMargin k x).vdoms = s.vdoms := rfl
@[simp] theorem Block.vphs_setMargin (k : Nat) (x : MarginS) : (s.setMargin k x).vphs = s.vphs := rfl
@[simp] theorem Block.vslices_setMargin (k : Nat) (x : MarginS) : (s.setMargin k x).vslices = s.vslices := rfl
@[simp] theorem Block.rst_setMargin (k : Nat) (x : MarginS) : (s.setMargin k x).rst = s.rst := rfl
@[simp] theorem Block.hiu_setMargin (k : Nat) (x : MarginS) : (s.setMargin k x).hiu = s.hiu := rfl
@[simp] theorem Block.freeCounter_setMargin (k : Nat) (x : MarginS) : (s.setMargin k x).freeCounter = s.freeCounter := rfl
@[simp] theorem Block.fld_setMargin (k : Nat) (x : MarginS) (f : Fld) : (s.setMargin k x).fld f = s.fld f := rfl

@[simp] theorem Block.win_setVdom (k : Nat) (x : VrcDom) : (s.setVdom k x).win = s.win := rfl
@[simp] theorem Block.time_setVdom (k : Nat) (x : VrcDom) : (s.setVdom k x).time = s.time := rfl
@[simp] theorem Block.links_setVdom (k : Nat) (x : VrcDom) : (s.setVdom k x).links = s.links := rfl
@[simp] theorem Block.posts_setVdom (k : Nat) (x : VrcDom) : (s.setVdom k x).posts = s.posts := rfl
@[simp] theorem Block.tiles_setVdom (k : Nat) (x : VrcDom) : (s.setVdom k x).tiles = s.tiles := rfl
@[simp] theorem Block.relays_setVdom (k : Nat) (x : VrcDom) : (s.setVdom k x).relays = s.relays := rfl
@[simp] theorem Block.chains_setVdom (k : Nat) (x : VrcDom) : (s.setVdom k x).chains = s.chains := rfl
@[simp] theorem Block.fc_setVdom (k : Nat) (x : VrcDom) : (s.setVdom k x).fc = s.fc := rfl
@[simp] theorem Block.therm_setVdom (k : Nat) (x : VrcDom) : (s.setVdom k x).therm = s.therm := rfl
@[simp] theorem Block.slices_setVdom (k : Nat) (x : VrcDom) : (s.setVdom k x).slices = s.slices := rfl
@[simp] theorem Block.sdoms_setVdom (k : Nat) (x : VrcDom) : (s.setVdom k x).sdoms = s.sdoms := rfl
@[simp] theorem Block.margins_setVdom (k : Nat) (x : VrcDom) : (s.setVdom k x).margins = s.margins := rfl
@[simp] theorem Block.vphs_setVdom (k : Nat) (x : VrcDom) : (s.setVdom k x).vphs = s.vphs := rfl
@[simp] theorem Block.vslices_setVdom (k : Nat) (x : VrcDom) : (s.setVdom k x).vslices = s.vslices := rfl
@[simp] theorem Block.rst_setVdom (k : Nat) (x : VrcDom) : (s.setVdom k x).rst = s.rst := rfl
@[simp] theorem Block.hiu_setVdom (k : Nat) (x : VrcDom) : (s.setVdom k x).hiu = s.hiu := rfl
@[simp] theorem Block.freeCounter_setVdom (k : Nat) (x : VrcDom) : (s.setVdom k x).freeCounter = s.freeCounter := rfl
@[simp] theorem Block.fld_setVdom (k : Nat) (x : VrcDom) (f : Fld) : (s.setVdom k x).fld f = s.fld f := rfl

@[simp] theorem Block.win_setVph (k : Nat) (x : VrcPh) : (s.setVph k x).win = s.win := rfl
@[simp] theorem Block.time_setVph (k : Nat) (x : VrcPh) : (s.setVph k x).time = s.time := rfl
@[simp] theorem Block.links_setVph (k : Nat) (x : VrcPh) : (s.setVph k x).links = s.links := rfl
@[simp] theorem Block.posts_setVph (k : Nat) (x : VrcPh) : (s.setVph k x).posts = s.posts := rfl
@[simp] theorem Block.tiles_setVph (k : Nat) (x : VrcPh) : (s.setVph k x).tiles = s.tiles := rfl
@[simp] theorem Block.relays_setVph (k : Nat) (x : VrcPh) : (s.setVph k x).relays = s.relays := rfl
@[simp] theorem Block.chains_setVph (k : Nat) (x : VrcPh) : (s.setVph k x).chains = s.chains := rfl
@[simp] theorem Block.fc_setVph (k : Nat) (x : VrcPh) : (s.setVph k x).fc = s.fc := rfl
@[simp] theorem Block.therm_setVph (k : Nat) (x : VrcPh) : (s.setVph k x).therm = s.therm := rfl
@[simp] theorem Block.slices_setVph (k : Nat) (x : VrcPh) : (s.setVph k x).slices = s.slices := rfl
@[simp] theorem Block.sdoms_setVph (k : Nat) (x : VrcPh) : (s.setVph k x).sdoms = s.sdoms := rfl
@[simp] theorem Block.margins_setVph (k : Nat) (x : VrcPh) : (s.setVph k x).margins = s.margins := rfl
@[simp] theorem Block.vdoms_setVph (k : Nat) (x : VrcPh) : (s.setVph k x).vdoms = s.vdoms := rfl
@[simp] theorem Block.vslices_setVph (k : Nat) (x : VrcPh) : (s.setVph k x).vslices = s.vslices := rfl
@[simp] theorem Block.rst_setVph (k : Nat) (x : VrcPh) : (s.setVph k x).rst = s.rst := rfl
@[simp] theorem Block.hiu_setVph (k : Nat) (x : VrcPh) : (s.setVph k x).hiu = s.hiu := rfl
@[simp] theorem Block.freeCounter_setVph (k : Nat) (x : VrcPh) : (s.setVph k x).freeCounter = s.freeCounter := rfl
@[simp] theorem Block.fld_setVph (k : Nat) (x : VrcPh) (f : Fld) : (s.setVph k x).fld f = s.fld f := rfl

@[simp] theorem Block.win_setVslice (k : Nat) (x : VrcSlice) : (s.setVslice k x).win = s.win := rfl
@[simp] theorem Block.time_setVslice (k : Nat) (x : VrcSlice) : (s.setVslice k x).time = s.time := rfl
@[simp] theorem Block.links_setVslice (k : Nat) (x : VrcSlice) : (s.setVslice k x).links = s.links := rfl
@[simp] theorem Block.posts_setVslice (k : Nat) (x : VrcSlice) : (s.setVslice k x).posts = s.posts := rfl
@[simp] theorem Block.tiles_setVslice (k : Nat) (x : VrcSlice) : (s.setVslice k x).tiles = s.tiles := rfl
@[simp] theorem Block.relays_setVslice (k : Nat) (x : VrcSlice) : (s.setVslice k x).relays = s.relays := rfl
@[simp] theorem Block.chains_setVslice (k : Nat) (x : VrcSlice) : (s.setVslice k x).chains = s.chains := rfl
@[simp] theorem Block.fc_setVslice (k : Nat) (x : VrcSlice) : (s.setVslice k x).fc = s.fc := rfl
@[simp] theorem Block.therm_setVslice (k : Nat) (x : VrcSlice) : (s.setVslice k x).therm = s.therm := rfl
@[simp] theorem Block.slices_setVslice (k : Nat) (x : VrcSlice) : (s.setVslice k x).slices = s.slices := rfl
@[simp] theorem Block.sdoms_setVslice (k : Nat) (x : VrcSlice) : (s.setVslice k x).sdoms = s.sdoms := rfl
@[simp] theorem Block.margins_setVslice (k : Nat) (x : VrcSlice) : (s.setVslice k x).margins = s.margins := rfl
@[simp] theorem Block.vdoms_setVslice (k : Nat) (x : VrcSlice) : (s.setVslice k x).vdoms = s.vdoms := rfl
@[simp] theorem Block.vphs_setVslice (k : Nat) (x : VrcSlice) : (s.setVslice k x).vphs = s.vphs := rfl
@[simp] theorem Block.rst_setVslice (k : Nat) (x : VrcSlice) : (s.setVslice k x).rst = s.rst := rfl
@[simp] theorem Block.hiu_setVslice (k : Nat) (x : VrcSlice) : (s.setVslice k x).hiu = s.hiu := rfl
@[simp] theorem Block.freeCounter_setVslice (k : Nat) (x : VrcSlice) : (s.setVslice k x).freeCounter = s.freeCounter := rfl
@[simp] theorem Block.fld_setVslice (k : Nat) (x : VrcSlice) (f : Fld) : (s.setVslice k x).fld f = s.fld f := rfl

/-! ## The outcomes of packets touch the jobs alone (R634) -/

@[simp] theorem Block.win_settle : s.settle.win = s.win := rfl
@[simp] theorem Block.time_settle : s.settle.time = s.time := rfl
@[simp] theorem Block.links_settle : s.settle.links = s.links := rfl
@[simp] theorem Block.posts_settle : s.settle.posts = s.posts := rfl
@[simp] theorem Block.tiles_settle : s.settle.tiles = s.tiles := rfl
@[simp] theorem Block.relays_settle : s.settle.relays = s.relays := rfl
@[simp] theorem Block.chains_settle : s.settle.chains = s.chains := rfl
@[simp] theorem Block.wce_settle : s.settle.wce = s.wce := rfl
@[simp] theorem Block.fc_settle : s.settle.fc = s.fc := rfl
@[simp] theorem Block.shadow_settle : s.settle.shadow = s.shadow := rfl
@[simp] theorem Block.ttu_settle : s.settle.ttu = s.ttu := rfl
@[simp] theorem Block.lg_settle : s.settle.lg = s.lg := rfl
@[simp] theorem Block.therm_settle : s.settle.therm = s.therm := rfl
@[simp] theorem Block.silo_settle : s.settle.silo = s.noteStop.silo := rfl
@[simp] theorem Block.slices_settle : s.settle.slices = s.slices := rfl
@[simp] theorem Block.sdoms_settle : s.settle.sdoms = s.sdoms := rfl
@[simp] theorem Block.margins_settle : s.settle.margins = s.margins := rfl
@[simp] theorem Block.vdoms_settle : s.settle.vdoms = s.vdoms := rfl
@[simp] theorem Block.vphs_settle : s.settle.vphs = s.vphs := rfl
@[simp] theorem Block.vslices_settle : s.settle.vslices = s.vslices := rfl
@[simp] theorem Block.ea_settle : s.settle.ea = s.ea := rfl
@[simp] theorem Block.power_settle : s.settle.power = s.power := rfl
@[simp] theorem Block.clk_settle : s.settle.clk = s.clk := rfl
@[simp] theorem Block.rst_settle : s.settle.rst = s.rst := rfl
@[simp] theorem Block.btc_settle : s.settle.btc = s.btc := rfl
@[simp] theorem Block.tme_settle : s.settle.tme = s.tme := rfl
@[simp] theorem Block.lend_settle : s.settle.lend = s.lend := rfl
@[simp] theorem Block.fwc_settle : s.settle.fwc = s.fwc := rfl
@[simp] theorem Block.mpu_settle : s.settle.mpu = s.mpu := rfl
@[simp] theorem Block.lfc_settle : s.settle.lfc = s.lfc := rfl
@[simp] theorem Block.marginCfg_settle : s.settle.marginCfg = s.marginCfg := rfl
@[simp] theorem Block.freeCounter_settle : s.settle.freeCounter = s.freeCounter := rfl
@[simp] theorem Block.fld_settle (f : Fld) : s.settle.fld f = s.fld f := rfl
@[simp] theorem Block.reg_settle (o : Nat) : s.settle.reg o = s.reg o := rfl

/-! ## Time moves the count alone (R83) -/

theorem Block.advance_eq (now : Ft) : ∃ c t u,
    s.advance now = { s with time := { s.time with count := c, timer := t, since := u } } := by
  by_cases h : (if s.inDeep then now.toNat / 8 * 8 else now.toNat) ≤ s.time.count.toNat
  · exact ⟨s.time.count, s.time.timer, s.time.since, by simp only [Block.advance, if_pos h]⟩
  · exact ⟨_, _, _, by simp only [Block.advance, if_neg h]; rfl⟩

@[simp] theorem Block.win_advance (now : Ft) : (s.advance now).win = s.win := by
  obtain ⟨c, t, u, h⟩ := s.advance_eq now; rw [h]
@[simp] theorem Block.links_advance (now : Ft) : (s.advance now).links = s.links := by
  obtain ⟨c, t, u, h⟩ := s.advance_eq now; rw [h]
@[simp] theorem Block.posts_advance (now : Ft) : (s.advance now).posts = s.posts := by
  obtain ⟨c, t, u, h⟩ := s.advance_eq now; rw [h]
@[simp] theorem Block.tiles_advance (now : Ft) : (s.advance now).tiles = s.tiles := by
  obtain ⟨c, t, u, h⟩ := s.advance_eq now; rw [h]
@[simp] theorem Block.relays_advance (now : Ft) : (s.advance now).relays = s.relays := by
  obtain ⟨c, t, u, h⟩ := s.advance_eq now; rw [h]
@[simp] theorem Block.chains_advance (now : Ft) : (s.advance now).chains = s.chains := by
  obtain ⟨c, t, u, h⟩ := s.advance_eq now; rw [h]
@[simp] theorem Block.wce_advance (now : Ft) : (s.advance now).wce = s.wce := by
  obtain ⟨c, t, u, h⟩ := s.advance_eq now; rw [h]
@[simp] theorem Block.fc_advance (now : Ft) : (s.advance now).fc = s.fc := by
  obtain ⟨c, t, u, h⟩ := s.advance_eq now; rw [h]
@[simp] theorem Block.shadow_advance (now : Ft) : (s.advance now).shadow = s.shadow := by
  obtain ⟨c, t, u, h⟩ := s.advance_eq now; rw [h]
@[simp] theorem Block.ttu_advance (now : Ft) : (s.advance now).ttu = s.ttu := by
  obtain ⟨c, t, u, h⟩ := s.advance_eq now; rw [h]
@[simp] theorem Block.lg_advance (now : Ft) : (s.advance now).lg = s.lg := by
  obtain ⟨c, t, u, h⟩ := s.advance_eq now; rw [h]
@[simp] theorem Block.therm_advance (now : Ft) : (s.advance now).therm = s.therm := by
  obtain ⟨c, t, u, h⟩ := s.advance_eq now; rw [h]
@[simp] theorem Block.silo_advance (now : Ft) : (s.advance now).silo = s.silo := by
  obtain ⟨c, t, u, h⟩ := s.advance_eq now; rw [h]
@[simp] theorem Block.slices_advance (now : Ft) : (s.advance now).slices = s.slices := by
  obtain ⟨c, t, u, h⟩ := s.advance_eq now; rw [h]
@[simp] theorem Block.sdoms_advance (now : Ft) : (s.advance now).sdoms = s.sdoms := by
  obtain ⟨c, t, u, h⟩ := s.advance_eq now; rw [h]
@[simp] theorem Block.margins_advance (now : Ft) : (s.advance now).margins = s.margins := by
  obtain ⟨c, t, u, h⟩ := s.advance_eq now; rw [h]
@[simp] theorem Block.vdoms_advance (now : Ft) : (s.advance now).vdoms = s.vdoms := by
  obtain ⟨c, t, u, h⟩ := s.advance_eq now; rw [h]
@[simp] theorem Block.vphs_advance (now : Ft) : (s.advance now).vphs = s.vphs := by
  obtain ⟨c, t, u, h⟩ := s.advance_eq now; rw [h]
@[simp] theorem Block.vslices_advance (now : Ft) : (s.advance now).vslices = s.vslices := by
  obtain ⟨c, t, u, h⟩ := s.advance_eq now; rw [h]
@[simp] theorem Block.ea_advance (now : Ft) : (s.advance now).ea = s.ea := by
  obtain ⟨c, t, u, h⟩ := s.advance_eq now; rw [h]
@[simp] theorem Block.power_advance (now : Ft) : (s.advance now).power = s.power := by
  obtain ⟨c, t, u, h⟩ := s.advance_eq now; rw [h]
@[simp] theorem Block.clk_advance (now : Ft) : (s.advance now).clk = s.clk := by
  obtain ⟨c, t, u, h⟩ := s.advance_eq now; rw [h]
@[simp] theorem Block.rst_advance (now : Ft) : (s.advance now).rst = s.rst := by
  obtain ⟨c, t, u, h⟩ := s.advance_eq now; rw [h]
@[simp] theorem Block.btc_advance (now : Ft) : (s.advance now).btc = s.btc := by
  obtain ⟨c, t, u, h⟩ := s.advance_eq now; rw [h]
@[simp] theorem Block.tme_advance (now : Ft) : (s.advance now).tme = s.tme := by
  obtain ⟨c, t, u, h⟩ := s.advance_eq now; rw [h]
@[simp] theorem Block.lend_advance (now : Ft) : (s.advance now).lend = s.lend := by
  obtain ⟨c, t, u, h⟩ := s.advance_eq now; rw [h]
@[simp] theorem Block.fwc_advance (now : Ft) : (s.advance now).fwc = s.fwc := by
  obtain ⟨c, t, u, h⟩ := s.advance_eq now; rw [h]
@[simp] theorem Block.hiu_advance (now : Ft) : (s.advance now).hiu = s.hiu := by
  obtain ⟨c, t, u, h⟩ := s.advance_eq now; rw [h]
@[simp] theorem Block.mpu_advance (now : Ft) : (s.advance now).mpu = s.mpu := by
  obtain ⟨c, t, u, h⟩ := s.advance_eq now; rw [h]
@[simp] theorem Block.lfc_advance (now : Ft) : (s.advance now).lfc = s.lfc := by
  obtain ⟨c, t, u, h⟩ := s.advance_eq now; rw [h]
@[simp] theorem Block.marginCfg_advance (now : Ft) : (s.advance now).marginCfg = s.marginCfg := by
  obtain ⟨c, t, u, h⟩ := s.advance_eq now; rw [h]
@[simp] theorem Block.freeCounter_advance (now : Ft) : (s.advance now).freeCounter = s.freeCounter := by
  obtain ⟨c, t, u, h⟩ := s.advance_eq now; rw [h]
@[simp] theorem Block.fld_advance (now : Ft) (f : Fld) : (s.advance now).fld f = s.fld f := by
  obtain ⟨c, t, u, h⟩ := s.advance_eq now; rw [h]; rfl
@[simp] theorem Block.flag_advance (now : Ft) (f : Fld) : (s.advance now).flag f = s.flag f := by
  simp [Block.flag]

end Sys2Proof.Machine
end

