-- ==== Sys2Proof/Laws/Run.lean ====
section
/-! SUPPORT. What the forms of a command answer: on a block that is out of reset and not cut, in reset, after the cut. -/
namespace Sys2Proof.Machine
open Sys2Proof

variable {s : State} {now : Ft} {b : Block} {f : Block → Block}

theorem State.live_ready (h : s.ready b) : s.live f = .next (s.put (f b)) := by
  obtain ⟨hg, _, rfl⟩ := h
  simp [State.live, State.always, State.put, hg]

theorem State.on_ready (h : s.ready b) : s.on f = .next (s.done (f b)) := by
  obtain ⟨hg, hf, rfl⟩ := h
  simp [State.on, State.live, State.always, State.done, hg, hf]

/-- A stamped command: its effect starts with the count at the stamp. -/
theorem State.on_readyAt (g : Block → Block) (h : s.readyAt now b) (hg : ∀ x, g x = f (x.advance now)) :
    s.on g = .next (s.done (f b)) := by
  obtain ⟨h1, h2, rfl⟩ := h
  rw [State.on_ready ⟨h1, h2, rfl⟩, hg]

theorem State.live_readyAt (g : Block → Block) (h : s.readyAt now b) (hg : ∀ x, g x = f (x.advance now)) :
    s.live g = .next (s.put (f b)) := by
  obtain ⟨h1, h2, rfl⟩ := h
  rw [State.live_ready ⟨h1, h2, rfl⟩, hg]

theorem State.mgmt_ready (h : s.mgmtReady now b) : s.mgmt now f = .next (s.done (f b)) := by
  obtain ⟨⟨h1, h2, rfl⟩, ha⟩ := h
  have hb : s.block.accepts = true := by
    simpa [Block.accepts, Block.flag, Block.fld_advance, Block.rst_advance] using ha
  unfold State.mgmt
  rw [State.on_ready ⟨h1, h2, rfl⟩]
  simp [Block.when, hb]

/-- After the cut of a global stop a command of a frozen part changes nothing (Table 16-15). -/
theorem State.on_frozen (h : s.block.frozen = true) : s.on f = .next s := by
  by_cases hg : s.block.rst.groups = true <;> simp [State.on, State.live, State.always, h, hg]

/-- While the reset groups are asserted no unit acts (R714). -/
theorem State.on_groups (h : s.block.rst.groups = true) : s.on f = .next s := by
  simp [State.on, State.live, State.always, h]
theorem State.live_groups (h : s.block.rst.groups = true) : s.live f = .next s := by
  simp [State.live, State.always, h]

/-- Everything outside the block stays. -/
theorem State.always_eq : s.always f = .next { s with block := f s.block } := rfl
theorem State.live_mem {t : State} (h : s.live f = .next t) : t.mem = s.mem ∧ t.pending = s.pending := by
  cases h; exact ⟨rfl, rfl⟩
theorem State.on_mem {t : State} (h : s.on f = .next t) : t.mem = s.mem ∧ t.pending = s.pending := State.live_mem h

/-- The packet a home core carries out next. -/
theorem State.packet_serves {op : Nat} {p : Pkt} {g : Block → Pkt → Block} (h : s.serves now op p b) :
    s.packet now op g = .next (s.served (g b p)) := by
  obtain ⟨h1, h2, h3, h4, h5, h6, h7, h8, rfl⟩ := h
  unfold State.packet
  rw [State.on_ready ⟨h1, h2, rfl⟩]
  have h9 : ¬ p.length < max ((minLen op).getD 0) (if p.flags = 0 then 0 else 0x30) := Nat.not_lt.mpr h6
  have h10 : ¬ (p.hasBuf = true ∧ p.payload.isNone = true) := by
    rintro ⟨ha, hb⟩
    have := h8 ha
    cases hp : p.payload <;> simp [hp] at hb this
  simp only [Block.opcode, Block.serve, h3, h4, h5, and_self, if_true, Block.checked, h9, if_false, h7, h10, State.served,
    State.done, Bool.not_true, Bool.false_eq_true]

theorem State.packetIf_serves {op : Nat} {p : Pkt} {r : Block → Pkt → Option Nat} {g : Block → Pkt → Block}
    (h : s.serves now op p b) (hr : r b p = none) : s.packetIf now op r g = .next (s.served (g b p)) := by
  obtain ⟨h1, h2, h3, h4, h5, h6, h7, h8, rfl⟩ := h
  unfold State.packetIf
  rw [State.on_ready ⟨h1, h2, rfl⟩]
  have h9 : ¬ p.length < max ((minLen op).getD 0) (if p.flags = 0 then 0 else 0x30) := Nat.not_lt.mpr h6
  have h10 : ¬ (p.hasBuf = true ∧ p.payload.isNone = true) := by
    rintro ⟨ha, hb⟩
    have := h8 ha
    cases hp : p.payload <;> simp [hp] at hb this
  simp only [Block.serve, h3, h4, h5, and_self, if_true, hr, Block.checked, h9, if_false, h7, h10, State.served,
    State.done, Bool.not_true, Bool.false_eq_true]

end Sys2Proof.Machine
end

