-- ==== Sys2Proof/WellFormed.lean ====
section
/-! DEFINITION. Well-formed commands: lists hold as many entries as the spec's records and sensors have. Every other
operand is bounded by its type. -/
namespace Sys2Proof

/-- 32 counters of a Post (R112) and six digest streams (R117). -/
def Activity.ok (a : Activity) : Bool := a.counts.length == 32 && a.streams.length == 6

/-- What the spec fixes of the lists of a command. -/
def Instr.wellFormed : Instr → Bool
  -- four dies of 64 bonded-memory sensors (R442)
  | .tickBoundary bmem => bmem.length == 4 && bmem.all fun l => l.length == 64
  -- four links (R63)
  | .epochBoundary lanes => lanes.length == 4
  -- 24 stacks (R445)
  | .thermalStepBoundary polls => polls.length == 24
  | .postTickLatch _ act _ => act.ok
  | .commandLaunch _ _ act _ _ => act.ok
  | .commandCompletion _ act _ _ => act.ok
  | .lowWordRead _ _ edge => edge.act.ok
  | .regRead _ _ _ _ _ edge => edge.act.ok
  | .regAccess _ _ _ _ _ edge => edge.act.ok
  -- 32 weights (R124)
  | .weightPublication _ flip _ => flip.length == 32
  -- one current sample per phase (Table 00-2)
  | .pwmPeriod dom _ isns _ => isns.length == numPhases dom.val
  -- five partitions of Hub logic BIST (R746)
  | .bistComplete misr _ _ _ => misr.length == 5
  -- 64-byte entries (R586)
  | .packetFetch _ entry _ _ => entry.all fun l => l.length == 64
  | .packet _ _ entry _ _ => entry.length == 64
  -- eight board converters (R817)
  | .pmbusPoll reads _ => reads.length == 8
  | .pmbAlert status _ => status.length == 8
  | _ => true

end Sys2Proof
end

