-- ==== Sys2Proof/Tests/Slice0.lean ====
section
/-! SUPPORT. The model's own tests: an ill-formed command for each check of WellFormed, states that meet the hypotheses of
each statement, and small figures of the spec. -/
namespace Sys2Proof.Tests
set_option Elab.async false
open Sys2Proof Sys2Proof.Machine

/-! ## Small states -/

/-- The block after reset, and a state of a block with nothing else. -/
def R : Block := Block.reset
def S (b : Block) : State := ⟨b, [], []⟩
/-- LOCKED, with the count at `n`. -/
def T (n : Nat) (b : Block) : Block :=
  ({ b with time := { b.time with count := BitVec.ofNat 64 n, loaded := true, ticking := true } }).setFld
    F.CTU_FT_STATUS_state 1
/-- The firmware cores run. -/
def CO (b : Block) : Block :=
  (b.forAll (List.range 5) fun (b : Block) c => b.setFld ⟨0x3000, 3 * c, 3⟩ 0).setFld F.FWC_STATUS_rom_wait 0
/-- The links are up. -/
def U (b : Block) : Block := b.forAll (List.range 4) fun (b : Block) d => (b.setLink d { LinkS.reset with
  state := .up, up := LinkS.reset.up.trained, down := LinkS.reset.down.trained }).setFld (F.HUB_SB_STATUS_link_up d) 1
/-- Accesses are accepted; an endpoint identifier is set. -/
def A : Block := R.setFld F.BTC_STATUS_bist_done 1
def E (b : Block) : Block := b.setFld F.MPU_STATUS_eid_set 1
/-- A powered Post. -/
def on : PostS := { PostS.reset with powered := true }
/-- Tile 0 in ACTIVE context 1 with credit. -/
def SG : Block := (R.setSlice 0 { SliceS.reset with tiles := [(0, 1)], cfg := [(1, 65536)] }).setCredit 0 1 1000
/-- Phase 0 in a state. -/
def PH (st : Nat) (x : VrcPh) : Block := (R.setFld (F.VRC_PH_STATUS_state 0) st).setVph 0 x
/-- A reference at the VID that reset leaves in force. -/
def VQ (d : Nat) : VrcDom := { VrcDom.reset d with refQ := R.fld (F.VRC_DOM_VID_vid_in_force d) * 4096 }
/-- Member 0 of a lending group of two, and a message of member 1 in interval 1. -/
def LE (n : Nat) (l : LendS) : Block := CO (T n { R with lend := { l with cfg := ⟨7, 0, 2, 0, [], []⟩ } })
def MSG (type dst : Nat) : List Byte :=
  (T 134217728 { R with lend := { LendS.reset with cfg := ⟨7, 1, 2, 0, [], []⟩ } }).lendMsg type dst 5000 0
/-- Tile 0 in a step of its readmission. -/
def RA (step good ticks : Nat) : Block :=
  { R with fc := { FcS.reset with readmits := [⟨0, none, step, good, ticks, 0, false⟩] } }
/-- An active region that matches the boot record. -/
def GO (b : Block) : Block :=
  CO { b with fwc := { FwcS.reset with boot := { BootRec.reset with hash := Config.sha384 [] } } }
/-- The cores parked before adoption. -/
def PA (f : FwcS) : Block :=
  ((CO { R with fwc := f }).forAll (List.range 4) fun (b : Block) c => b.setFld ⟨0x3000, 3 * c, 3⟩ 5).setFld
    F.FWC_UPD_STATUS_state 6
/-- A ring that is on, of 64 entries. -/
def RI (b : Block) (r : Nat) : Block := (b.setFld (F.HIU_RING_CFG_log2_size r) 6).setFld (F.HIU_RING_CFG_en r) 1
/-- A Reflection record of one section, which the image of no bytes adopts. -/
def refl : List Byte :=
  leBytes 64 (0x4C465251 + 256 ^ 8 * 64)
def TR : TraceRec := ⟨0, 0, 0, 0, 0, 0, 0, false, false, 0, 0, 0⟩
/-- Packets: the payload as a number; with a result buffer of 128 KiB at 0; with a command buffer. -/
def pk (op flags n : Nat) (pay : Option (List Byte)) : Pkt :=
  ⟨0, u8 op ++ u8 flags ++ u16 0 ++ u8 0 ++ u8 0 ++ u16 48 ++ u64 0 ++ leBytes 48 n, 0, pay, 0, 0⟩
def P (op n : Nat) : Pkt := pk op 0 n none
def PR (op n : Nat) : Pkt := pk op 2 (n + 256 ^ 0x2C * 131072) none
def PB (op n : Nat) (l : List Byte) : Pkt := pk op 1 (n + 256 ^ 0x24 * l.length) (some l)
/-- The block with one accepted packet. -/
def W (b : Block) (p : Pkt) : Block := { b with hiu := { b.hiu with accepted := [p] } }

theorem rdy (b : Block) (h : (b.rst.groups || b.frozen) = false) : (S b).ready b := by
  simp only [Bool.or_eq_false_iff] at h
  exact ⟨h.1, h.2, rfl⟩

theorem advance_zero (b : Block) : b.advance 0 = b := by
  unfold Block.advance
  split <;> exact if_pos (by simp)

theorem got {α : Type} {o : Option α} (h : o.isSome = true) : o = some (o.get h) := (Option.some_get h).symm
theorem got3 {α β γ : Type} {o : Option (α × β × γ)} (h : o.isSome = true) :
    o = some ((o.get h).1, (o.get h).2.1, (o.get h).2.2) := (Option.some_get h).symm

theorem rdyAt (b : Block) (h : (b.rst.groups || b.frozen) = false) : (S b).readyAt 0 b := by
  simp only [Bool.or_eq_false_iff] at h
  exact ⟨h.1, h.2, (advance_zero b).symm⟩

theorem mgmt (b : Block) (h : ((b.rst.groups || b.frozen) = false) ∧ b.accepts = true) : (S b).mgmtReady 0 b :=
  ⟨rdyAt b h.1, h.2⟩

/-- What a packet of home core `homeOf op` needs, as one check. -/
def fit (b : Block) (op : Nat) (p : Pkt) : Bool :=
  !(b.rst.groups || (W b p).frozen) && p.opcode == op && (W b p).homeRuns (homeOf op) &&
    decide (max ((minLen op).getD 0) (if p.flags = 0 then 0 else 0x30) ≤ p.length) &&
    ({ W b p with hiu := { b.hiu with accepted := [] } } : Block).descriptorOk p && (!p.hasBuf || p.payload.isSome)

theorem srv (b : Block) (op : Nat) (p : Pkt) (h : fit b op p = true) :
    (S (W b p)).serves 0 op p { W b p with hiu := { b.hiu with accepted := [] } } := by
  simp only [fit, Bool.and_eq_true, Bool.not_eq_true', Bool.or_eq_false_iff, beq_iff_eq, decide_eq_true_eq,
    Bool.or_eq_true] at h
  obtain ⟨⟨⟨⟨⟨⟨h1, h2⟩, h3⟩, h4⟩, h5⟩, h6⟩, h7⟩ := h
  have ha : (S (W b p)).block.advance 0 = W b p := advance_zero _
  refine ⟨h1, h2, ?_, h3, ?_, h5, h6, ?_, ?_⟩
  · rw [ha]; simp [W, h3]
  · rw [ha]; exact h4
  · intro hb
    rcases h7 with h7 | h7
    · simp [hb] at h7
    · exact h7
  · rw [ha]; simp [W]

/-! ## The hypotheses of the statements are met

A clause whose only hypothesis is that the block is out of reset and not cut is met by `ready_somewhere`. -/

theorem ready_somewhere : (S R).ready R ∧ (S R).readyAt 0 R ∧ (S A).mgmtReady 0 A :=
  ⟨rdy _ (by decide +kernel), rdyAt _ (by decide +kernel), mgmt _ (by decide +kernel)⟩

theorem wit_ResetsComplete :
  (∃ (s : State) (now : Ft) (b : Block),
    s.readyAt now b ∧ b.rst.warm = false) ∧
  (∃ (s : State) (now : Ft) (b : Block),
    s.readyAt now b ∧ b.rst.warm = false) ∧
  (∃ (s : State) (b : Block),
    s.ready b ∧ b.rst.warm = true ∧ b.railsDown = true) ∧
  (∃ s : State, s.block.rst.groups = true) ∧
  (∃ (s : State) (now : Ft) (b : Block),
    s.readyAt now b ∧ b.rst.warm = false) ∧
  (∃ (s : State) (b : Block) (_bad : List FuseWord),
    s.ready b ∧ b.flag F.HUB_BOOT_STATUS_fuses_loaded = false) ∧
  (∃ (s : State) (b : Block) (_misr : List DWord) (_unrep : BitVec 16) (_rows _cols : Nat),
    s.ready b ∧ b.flag F.BTC_STATUS_bist_done = false ∧ b.flag F.HUB_BOOT_STATUS_fuses_loaded = true) :=
  ⟨⟨S (R), 0, _, rdyAt _ (by decide +kernel), by decide +kernel⟩,
   ⟨S (R), 0, _, rdyAt _ (by decide +kernel), by decide +kernel⟩,
   ⟨S ({ R with rst := ⟨true, false⟩ }), _, rdy _ (by decide +kernel), by decide +kernel⟩,
   ⟨S { R with rst := ⟨false, true⟩ }, rfl⟩,
   ⟨S (R), 0, _, rdyAt _ (by decide +kernel), by decide +kernel⟩,
   ⟨S (R), _, [], rdy _ (by decide +kernel), by decide +kernel⟩,
   ⟨S (R.setFld F.HUB_BOOT_STATUS_fuses_loaded 1), _, [], 0, 0, 0, rdy _ (by decide +kernel), by decide +kernel⟩⟩

theorem wit_TimeCommandsComplete :
  (∃ (s : State) (now marker : Ft) (_gap : Nat) (b : Block),
    s.readyAt now b ∧ b.timeState = 0 ∧ b.time.loaded = false ∧ marker.toNat % 65536 = 0 ∧ b.time.strobed = false) ∧
  (∃ (s : State) (now marker : Ft) (gap : Nat) (b : Block),
    s.readyAt now b ∧ (b.timeState ≠ 0 ∨ b.time.loaded = true) ∧ marker.toNat % 65536 = 0 ∧
      (b.time.strobed = false ∨ 1024 < gap)) ∧
  (∃ (s : State) (now : Ft) (b : Block), s.readyAt now b ∧ b.timeState ≠ 1 ∧ markerLimit ≤ b.time.timer) ∧
  (∃ (s : State) (b : Block), s.ready b ∧ b.timeState = 0 ∧ b.time.loaded = false ∧ 10000000 ≤
      b.time.count.toNat) ∧
  (∃ (s : State) (b : Block) (_bmem : List (List (Option Int))),
    s.ready b ∧ b.time.ticking = true ∧ (∀ o, b.time.corr ≠ .step o)) ∧
  (∃ (s : State) (b : Block) (_lanes : List Bool),
    s.ready b ∧ b.time.epoch < b.tick / 16) ∧
  (∃ (s : State) (b : Block) (_polls : List (Option Int × Option (BitVec 16))),
    s.ready b ∧ b.time.step < b.tick / 128) :=
  ⟨⟨S (R), 0, 65536, 0, _, rdyAt _ (by decide +kernel), by decide +kernel⟩,
   ⟨S (T 1024 R), 0, 65536, 0, _, rdyAt _ (by decide +kernel), by decide +kernel⟩,
   ⟨S ({ R with time := { TimeS.reset with timer := markerLimit } }), 0, _, rdyAt _ (by decide +kernel),
      by decide +kernel⟩,
   ⟨S ({ R with time := { TimeS.reset with count := 10000000 } }), _, rdy _ (by decide +kernel),
      by decide +kernel⟩,
   ⟨S (T 1024 R), _, [], rdy _ (by decide +kernel), by refine ⟨by decide +kernel, fun o h => by cases h⟩⟩,
   ⟨S (T 16384 R), _, [], rdy _ (by decide +kernel), by decide +kernel⟩,
   ⟨S (T 131072 R), _, [], rdy _ (by decide +kernel), by decide +kernel⟩⟩

theorem wit_LinkCommandsComplete :
  (∃ (s : State) (b : Block) (die : Die), s.ready b ∧ (b.link die.val).state = .up) ∧
  (∃ (s : State) (b : Block) (die : Die) (lanes8 : Bool), s.ready b ∧ (b.link die.val).takes lanes8 = true) ∧
  (∃ (s : State) (b : Block) (die : Die), s.ready b ∧ (b.link die.val).state ≠ .down) ∧
  (∃ (s : State) (now : Ft) (b : Block) (die : Die) (_up : Bool), s.readyAt now b ∧ (b.link die.val).state = .up) ∧
  (∃ (x back : SbDir) (vc type source : Nat) (body : DWord) (f : SbFlit) (y z : SbDir), vc < 4 ∧ x.flow.credits.length
      = 4 ∧ x.flow.owed.length = 4 ∧ back.flow.credits.length = 4 ∧ back.flow.owed.length = 4 ∧ source < 2048 ∧ x.send
      back vc type source body = some (f, y, z)) :=
  ⟨⟨S (R.setLink 3 { LinkS.reset with state := .up }), _, 3, rdy _ (by decide +kernel), by decide +kernel⟩,
   ⟨S R, _, 3, true, rdy _ (by decide +kernel), by decide +kernel⟩,
   ⟨S (R.setLink 0 { LinkS.reset with state := .training }), _, 0, rdy _ (by decide +kernel), by decide +kernel⟩,
   ⟨S (R.setLink 0 { LinkS.reset with state := .up }), 0, _, 0, true, rdyAt _ (by decide +kernel), by decide +kernel⟩,
   ⟨LinkS.reset.up.trained, LinkS.reset.down.trained, 3, 0x30, 2047, 0, _, _, _, by decide +kernel, by decide +kernel,
      by decide +kernel, by decide +kernel, by decide +kernel, by decide +kernel, got (by decide +kernel)⟩⟩

theorem wit_WindowAccessesComplete :
  (∃ (s : State) (now : Ft) (b c : Block) (port : Fin 3) (off : Fin 16777216) (act : Activity) (r : Except Nat Nat),
      s.readyAt now b ∧ b.accepts = true ∧ off.val % 4 = 0 ∧ ((findReg off.val).any fun h => h.row.wide && !h.high) =
      true ∧ (b.sampleFor off.val act).busRead port.val off.val false 0 = some (r, c)) ∧
  (∃ (s : State) (now : Ft) (b c : Block) (req : Fin 4) (off : Fin 16777216) (value : Word) (r : Option Nat),
      s.readyAt now b ∧ b.takesWrite req.val = true ∧ off.val % 4 = 0 ∧ ((findReg off.val).any fun h => h.row.wide &&
      !h.high) = true ∧ b.busWrite req.val off.val false value.toNat 0 = some (r, c)) ∧
  (∃ (s : State) (now : Ft) (b c : Block) (req : Fin 4) (off : Fin 16777216) (value : Word) (r : Option Nat),
      s.readyAt now b ∧ b.takesWrite req.val = true ∧ off.val % 4 = 0 ∧ ((findReg off.val).any fun h => h.row.wide &&
      h.high) = true ∧ b.busWrite req.val off.val false value.toNat 0 = some (r, c)) ∧
  (∃ (s : State) (now : Ft) (b c : Block) (req : Fin 4) (off : Fin 16777216) (wide : Bool) (value : DWord) (r : Option
      Nat), s.readyAt now b ∧ b.takesWrite req.val = true ∧ off.val % (if wide then 8 else 4) = 0 ∧ b.busWrite req.val
      off.val wide value.toNat 0 = some (r, c)) ∧
  (∃ (_b : Block) (_req off _v _syn : Nat) (wide : Bool), viaDie off = none ∧ (wide = true → viaDie (off + 4) = none))
      ∧
  (∃ (s : State) (now : Ft) (b : Block) (_port : Fin 3) (_off : Fin 16777216) (_write : Bool) (len : Nat) (_syn :
      Byte), s.readyAt now b ∧ b.accepts = true ∧ (len ≠ 4 ∧ len ≠ 8)) :=
  ⟨⟨S A, 0, _, _, 0, 0x2000, ⟨[], [], []⟩, _, rdyAt _ (by decide +kernel), ⟨by decide +kernel, by decide +kernel,
      by decide +kernel, rfl⟩⟩,
   ⟨S A, 0, _, _, 3, 0x2000, 7, _, rdyAt _ (by decide +kernel), ⟨by decide +kernel, by decide +kernel,
      by decide +kernel, rfl⟩⟩,
   ⟨S A, 0, _, _, 0, 0x2004, 7, _, rdyAt _ (by decide +kernel), ⟨by decide +kernel, by decide +kernel,
      by decide +kernel, rfl⟩⟩,
   ⟨S A, 0, _, _, 0, 0xFFFFF8, true, 7, _, rdyAt _ (by decide +kernel), ⟨by decide +kernel, by decide +kernel, rfl⟩⟩,
   ⟨R, 0, 0x2000, 0, 0, true, rfl, fun _ => rfl⟩,
   ⟨S (A), 0, _, 2, 3, false, 3, 0, rdyAt _ (by decide +kernel), by decide +kernel⟩⟩

theorem wit_PostCommandsComplete :
  (∃ (s : State) (b : Block) (tile : Tile) (_act : Activity) (_reading : Option Int), s.ready b ∧ (b.post
      tile.val).runs = true ∧ (b.post tile.val).closing = true) ∧
  (∃ (s : State) (now : Ft) (b : Block) (tile : Tile) (tag : Half) (_act : Activity) (g : PGrant), s.readyAt now b ∧
      (b.post tile.val).runs = true ∧ (b.post tile.val).gate = true ∧ ((b.post tile.val).grants.find? fun g =>
      g.released && g.tag == tag.toNat && decide (b.now / 32 < g.win + 3)) = some g) ∧
  (∃ (s : State) (now : Ft) (b : Block) (tile : Tile) (_act : Activity), s.readyAt now b ∧ (b.post tile.val).runs =
      true ∧ (b.post tile.val).running = 1) ∧
  (∃ (s : State) (now : Ft) (b : Block) (tile : Tile) (_act : Activity) (_atLatch : Bool), s.readyAt now b ∧ (b.post
      tile.val).runs = true ∧ 1 < (b.post tile.val).running) ∧
  (∃ (s : State) (b : Block) (tile : Tile), s.ready b ∧ (b.post tile.val).runs = true) ∧
  (∃ (s : State) (b : Block) (tile : Tile), s.ready b ∧ b.flag (F.POST_CTRL_snap_hold tile.val) = true ∧ 1024 ≤
      (b.post tile.val).holdTicks) ∧
  (∃ (s : State) (now : Ft) (b c : Block) (tile : Tile) (_flip : List Half) (pub : Pub) (rest : List Pub), s.readyAt
      now b ∧ (b.post tile.val).runs = true ∧ (b.post tile.val).pubs = pub :: rest ∧ b.carryPub tile.val pub = some c)
      ∧
  (∃ (s : State) (b : Block) (tile : Tile), s.ready b ∧ b.mayPower tile.val = true) :=
  ⟨⟨S (R.setPost 1023 { on with closing := true }), _, 1023, ⟨[], [], []⟩, none, rdy _ (by decide +kernel),
      by decide +kernel⟩,
   ⟨S (R.setPost 0 { on with gate := true, grants := [⟨7, 1, 2, 3, false, true, false⟩] }), 0, _, 0, 7, ⟨[], [], []⟩,
      _, rdyAt _ (by decide +kernel), ⟨by decide +kernel, by decide +kernel, rfl⟩⟩,
   ⟨S (R.setPost 0 { on with running := 1 }), 0, _, 0, ⟨[], [], []⟩, rdyAt _ (by decide +kernel), by decide +kernel⟩,
   ⟨S (R.setPost 0 { on with running := 2 }), 0, _, 0, ⟨[], [], []⟩, false, rdyAt _ (by decide +kernel),
      by decide +kernel⟩,
   ⟨S (R.setPost 0 on), _, 0, rdy _ (by decide +kernel), by decide +kernel⟩,
   ⟨S ((R.setPost 0 { on with holdTicks := 1024 }).setFld (F.POST_CTRL_snap_hold 0) 1), _, 0,
      rdy _ (by decide +kernel), by decide +kernel⟩,
   ⟨S ((U R).setPost 0 { on with pubs := [⟨some true, [], 0, false, false⟩] }), 0, _, _, 0, [], _, _,
      rdyAt _ (by decide +kernel), ⟨by decide +kernel, rfl, got (by decide +kernel)⟩⟩,
   ⟨S ((R.setPost 0 { PostS.reset with open_ := false }).setFld (F.VRC_DOM_STATUS_state 0) Vs.run), _, 0,
      rdy _ (by decide +kernel), by decide +kernel⟩⟩

theorem wit_ChainCommandsComplete :
  (∃ (s : State) (now : Ft) (b d : Block) (tile : Tile) (_flip : DWord) (x : WSheaf) (rest : List WSheaf), s.readyAt
      now b ∧ (b.post tile.val).runs = true ∧ b.sheafRoom tile.val = true ∧ (b.post tile.val).sheafs = x :: rest ∧
      b.pnClear tile.val 2 = true ∧ b.upFlit tile.val 2 1 (sheafWord tile.val x) = some d) ∧
  (∃ (b : Block) (tile : Tile) (_w : DWord), b.hopDrops tile.val = true) ∧
  (∃ (b : Block) (tile : Tile) (_w : DWord), b.hopDrops tile.val = false ∧ (b.relay (dieOfTile tile.val)).parked = []
      ∧ ((b.relay (dieOfTile tile.val)).merging = true ∨ (b.relay (dieOfTile tile.val)).fifo.length < 512)) ∧
  (∃ (b : Block) (tile : Tile) (_w : DWord), b.hopDrops tile.val = false ∧ (b.relay (dieOfTile tile.val)).merging =
      false ∧ 512 ≤ (b.relay (dieOfTile tile.val)).fifo.length) ∧
  (∃ (b : Block) (tile : Tile) (_pn _type : Nat) (_body : DWord), b.hopDrops tile.val = true) ∧
  (∃ (s : State) (now : Ft) (b c : Block) (dom : CoreDom) (down : Bool) (hop : Fin 16) (channel : Fin 5) (body :
      DWord), s.readyAt now b ∧ (down = true → channel.val ≠ 4) ∧ b.chLost dom.val ⟨down, hop.val, channel.val, body,
      true⟩ = some c) ∧
  (∃ (s : State) (b : Block) (dom : CoreDom) (down : Bool) (hop : Fin 16) (_channel : Fin 5), s.ready b ∧ (b.chain
      dom.val).nak.contains (down, hop.val) = true) ∧
  (∃ (s : State) (b : Block) (tile : Tile), s.ready b ∧ 64 ≤ (b.tile tile.val).silent ∧ (b.post tile.val).open_ =
      false) ∧
  (∃ (s : State) (b : Block) (dom : CoreDom), s.ready b ∧ 16 ≤ (b.chain dom.val).quiet ∧ ((tilesOf dom.val).any fun t
      => (b.post t).powered) = true) ∧
  (∃ (s : State) (now : Ft) (b : Block) (tile : Tile) (_x : FaultIn), s.readyAt now b ∧ (b.post tile.val).runs = true)
      ∧
  (∃ (s : State) (now : Ft) (b : Block) (tile : Tile), s.readyAt now b ∧ (b.post tile.val).runs = true) ∧
  (∃ (s : State) (b d : Block) (tile : Tile) (ep : Nat) (prob up : Bool), s.ready b ∧ (b.post tile.val).runs = true ∧
      (b.post tile.val).sheafs = [] ∧ b.pnClear tile.val 2 = true ∧ 512 ≤ b.now % 1024 ∧ b.now % 1024 ≤ 895 ∧ (b.post
      tile.val).reg = some (ep, prob, up) ∧ (b.chain (domOfTile tile.val)).due.isSome = true ∧ (b.chain (domOfTile
      tile.val)).regEpoch = ep ∧ b.tick < 16 * (ep + 1) + 4 ∧ b.upFlits tile.val 2 (postRegFlits tile.val ep prob up
      ((List.range 32).map fun i => regK ((b.post tile.val).kcap.getD i 0))) = some d) ∧
  (∃ (s : State) (b d : Block) (dom : CoreDom) (r : DomRec), s.ready b ∧ (b.chain dom.val).ready = some r ∧ 16 *
      (r.epoch + 1) + 4 + dom.val % 16 ≤ b.tick ∧ b.sbLows (dom.val / 16) 2 (srcRelay (dom.val / 16)) (r.flits
      dom.val) = some d) :=
  ⟨⟨S (R.setPost 0 { on with sheafs := [⟨0, 0, 0, 0, 1, 0, 0, false, false, false, false, false⟩] }), 0, _, _, 0, 0,
      _, _, rdyAt _ (by decide +kernel), ⟨by decide +kernel, by decide +kernel, rfl, by decide +kernel, got
      (by decide +kernel)⟩⟩,
   ⟨R.setTile 0 { RelTile.reset with isolated := true }, 0, 0, by decide +kernel⟩,
   ⟨R, 0, 0, by decide +kernel, rfl, .inr (by decide +kernel)⟩,
   ⟨R.setRelay 0 { RelayS.reset with merging := false, fifo := List.replicate 512 ⟨0, 0, 0, 1, 0, 0⟩ }, 0, 0, by decide +kernel, rfl,
      by decide +kernel⟩,
   ⟨R.setTile 0 { RelTile.reset with isolated := true }, 0, 0, 0, 0, by decide +kernel⟩,
   ⟨S R, 0, _, _, 63, false, 15, 4, 0, rdyAt _ (by decide +kernel), ⟨by decide +kernel, got (by decide +kernel)⟩⟩,
   ⟨S (R.setChain 63 { ChainS.reset with nak := [(true, 15)] }), _, 63, true, 15, 3, rdy _ (by decide +kernel),
      by decide +kernel⟩,
   ⟨S ((R.setTile 0 { RelTile.reset with silent := 64 }).setPost 0 { on with open_ := false }), _, 0,
      rdy _ (by decide +kernel), by decide +kernel⟩,
   ⟨S ((R.setChain 0 { ChainS.reset with quiet := 16 }).setPost 0 on), _, 0, rdy _ (by decide +kernel),
      by decide +kernel⟩,
   ⟨S (R.setPost 0 on), 0, _, 0, ⟨9, 0, 0, false, false⟩, rdyAt _ (by decide +kernel), by decide +kernel⟩,
   ⟨S (R.setPost 0 on), 0, _, 0, rdyAt _ (by decide +kernel), by decide +kernel⟩,
   ⟨S (T 600 ((R.setPost 0 { on with reg := some (0, false, true) }).setChain 0 { ChainS.reset with due := some 0 })),
      _, _, 0, 0, false, true, rdy _ (by decide +kernel), ⟨by decide +kernel, rfl, by decide +kernel,
      by decide +kernel, by decide +kernel, rfl, by decide +kernel, by decide +kernel, by decide +kernel, got
      (by decide +kernel)⟩⟩,
   ⟨S ((U (T 20480 R)).setChain 0 { ChainS.reset with ready := some ⟨0, [], 0, false, false, false⟩ }), _, _, 0, _,
      rdy _ (by decide +kernel), ⟨rfl, by decide +kernel, got (by decide +kernel)⟩⟩⟩

theorem wit_AttributionCommandsComplete :
  (∃ (s : State) (now : Ft) (b c : Block) (die : Die) (e : FifoE) (rest : List FifoE), s.readyAt now b ∧ (b.relay
      die.val).fifo = e :: rest ∧ b.sbLow die.val 1 0x01 e.tile e.word = some c) ∧
  (∃ (s : State) (now : Ft) (b : Block) (die : Die) (record : DWord), s.readyAt now b ∧ (b.relay die.val).inHeld = []
      ∧ (b.link die.val).inputSent = false ∧ (b.sbUp die.val 0 0x10 (srcRelay die.val) record).isSome = true ∧ b.now ≤
      (expandStamp 8 b.tick (getBits record.toNat 56 8) + 2) * 1024) ∧
  (∃ (s : State) (now : Ft) (b c : Block) (dom : Dom) (m : Meas) (rest : List Meas), s.readyAt now b ∧ (b.vdom
      dom.val).out = m :: rest ∧ b.sbLow (dieOfDom dom.val) 2 0x16 (srcRelay (dieOfDom dom.val)) (m.word dom.val) =
      some c ∧ b.now ≤ ((measOfWord b.tick (m.word dom.val)).tick + 2) * 1024) ∧
  (∃ (s : State) (now : Ft) (b : Block), s.readyAt now b ∧ 2 ≤ b.tick ∧ b.ea.evalTick ≠ some (b.tick - 2) ∧ b.inDeep =
      false) ∧
  (∃ (s : State) (now : Ft) (b : Block) (r : EaRes), s.readyAt now b ∧ b.ea.staged = some r ∧ (r.tick + 3) * 1024 ≤
      b.now) :=
  ⟨⟨S ((U R).setRelay 0 { RelayS.reset with fifo := [⟨0, 0, 0, 1, 0, 0⟩] }), 0, _, _, 0, _, _,
      rdyAt _ (by decide +kernel), ⟨rfl, got (by decide +kernel)⟩⟩,
   ⟨S (U (T 2048 R)), 0, _, 0, 0, rdyAt _ (by decide +kernel), by decide +kernel⟩,
   ⟨S ((U R).setVdom 64 { VrcDom.reset 64 with out := [⟨0, 0, 0, 0, 0, true, false, false, false⟩] }), 0, _, _, 64, _,
      _, rdyAt _ (by decide +kernel), ⟨rfl, got (by decide +kernel), by decide +kernel⟩⟩,
   ⟨S (T 2048 R), 0, _, rdyAt _ (by decide +kernel), by decide +kernel⟩,
   ⟨S (T 3072 { R with ea := { EaS.reset with staged := some ⟨0, []⟩ } }), 0, _, _, rdyAt _ (by decide +kernel), ⟨rfl,
      by decide +kernel⟩⟩⟩

theorem wit_WinnowCommandsComplete :
  (∃ (s : State) (b : Block),
    s.ready b ∧ 0 < b.dueEpoch ∧ 40 ≤ b.tick ∧ b.wce.updated ≠ b.dueEpoch ∧ b.power.hold = false) ∧
  (∃ (s : State) (b : Block), s.ready b ∧ b.wce.results.isEmpty = false ∧ b.wce.resultEpoch + 32768 ≤ b.tick * 1024 ∧
      b.time.epoch = b.tick / 16) ∧
  (∃ (s : State) (b c : Block), s.ready b ∧ b.wce.pubSeen ≠ b.tick / 1024 ∧ b.time.epoch = b.tick / 16 ∧ c = (({ b
      with wce := { b.wce with pubSeen := b.tick / 1024, delay := b.fld F.WCE_PUB_CFG_swap_delay } } :
      Block).commitSet).showResults ∧ c.flag F.WCE_CTRL_pub_en = true ∧ c.wce.factory.isSome = true ∧
      (c.wce.formed.any (·.at_ == b.tick / 1024 * 1024)) = false) ∧
  (∃ b : Block, b.wce.released = none) ∧
  (∃ b : Block, b.wce.released.isSome = true) ∧
  (∃ (s : State) (b c : Block) (x : Formed), s.ready b ∧ (b.wce.formed.find? fun x => decide (x.at_ + 4 ≤ b.tick) &&
      decide (b.tick + 16 < x.swap)) = some x ∧ b.coreRuns 2 = true ∧ b.wce.released = none ∧ c = (if (x.factory &&
      b.wce.setDue) = true then b.publishSet else b)) ∧
  (∃ (s : State) (b : Block) (x : Formed), s.ready b ∧ (b.wce.formed.find? fun x => decide (x.swap ≤ b.tick + 16)) =
      some x) ∧
  (∃ (s : State) (b : Block) (l : List WFactory) (flag : Bool) (dig ep : Nat),
    s.ready b ∧ b.wce.pendingSet = some (l, flag, dig, ep) ∧ ep < b.time.epoch) :=
  ⟨⟨S (T 40960 R), _, rdy _ (by decide +kernel), by decide +kernel⟩,
   ⟨S (T 32768 { R with time := { TimeS.reset with epoch := 2 }, wce := { WceS.reset with results := [(0, WInst.reset,
      0)] } }), _, rdy _ (by decide +kernel), by decide +kernel⟩,
   ⟨S (T 1048576 { R with time := { TimeS.reset with epoch := 64 }, wce := { WceS.reset with factory := some [] } }),
      _, _, rdy _ (by decide +kernel), ⟨by decide +kernel, by decide +kernel, rfl, by decide +kernel⟩⟩,
   ⟨R, rfl⟩,
   ⟨{ R with wce := { WceS.reset with released := some ([], 0) } }, rfl⟩,
   ⟨S (CO (T 1052672 { R with wce := { WceS.reset with formed := [⟨[], 1024, 1100, false⟩] } })), _, _, _,
      rdy _ (by decide +kernel), ⟨got (by decide +kernel), by decide +kernel, by decide +kernel, rfl⟩⟩,
   ⟨S (T 1097728 { R with wce := { WceS.reset with formed := [⟨[], 1024, 1088, false⟩] } }), _, _,
      rdy _ (by decide +kernel), got (by decide +kernel)⟩,
   ⟨S ({ R with time := { TimeS.reset with epoch := 1 }, wce := { WceS.reset with pendingSet := some ([], false, 0,
      0) } }), _, _, _, _, _, rdy _ (by decide +kernel), ⟨rfl, by decide +kernel⟩⟩⟩

theorem wit_GuardCommandsComplete :
  (∃ (s : State) (now : Ft) (b : Block), s.readyAt now b ∧ 2 ≤ b.tick ∧ b.lg.evalTick ≠ some (b.tick - 2)) ∧
  (∃ (s : State) (b : Block), s.ready b ∧ b.fld F.LG_CTRL_hold_ticks ≤ b.lg.under ∧ 0 < b.fld F.LG_STATUS_level ∧
      b.fld F.LG_STATUS_level < 5) ∧
  (∃ (s : State) (b : Block), s.ready b ∧ b.fld F.LG_CTRL_hold_ticks ≤ b.lg.under ∧ b.fld F.LG_STATUS_level = 5) ∧
  (∃ (s : State) (b : Block), s.ready b ∧ b.fld F.LG_STATUS_level = 5 ∧ b.lg.restoring = true ∧ (∀ d < 4, b.flag
      (F.HUB_SB_STATUS_link_up d) = true → (b.relay d).act.restoring = true) ∧ (List.range 64).all b.vidRestored =
      true) ∧
  (∃ (s : State) (b : Block) (n : CoreDom), s.ready b ∧ (b.thermS (n.val / 16)).restoring.getD (n.val % 16) false =
      true ∧ b.vidRestored n.val = true) ∧
  (∃ (s : State) (b : Block), s.ready b ∧ b.lg.lowRun = 64) ∧
  (∃ (s : State) (now : Ft) (b : Block), s.readyAt now b ∧ 0 < b.lg.adj ∧ b.fld F.LG_L5_EXPIRY_tick ≤ b.tick ∧
      b.lg.adjWrite = none) ∧
  (∃ (s : State) (now : Ft) (b : Block), s.readyAt now b ∧ b.lg.adj < 0 ∧ b.timeState = 1 ∧ b.fld F.LG_L5_EXPIRY_tick
      + 1 ≤ b.tick ∧ b.lg.adjWrite = none) ∧
  (∃ (s : State) (b c : Block) (die : Die) (f : SbFlit) (a : LgAct) (rest : List LgAct), s.ready b ∧ (b.relay
      die.val).lgActs = a :: rest ∧ b.takeDown die.val 0x20 a.word = some (f, c)) ∧
  (∃ (s : State) (b : Block) (die : Die) (dom : Fin 16), s.ready b ∧ b.fld F.LG_CTRL_hold_ticks ≤ ((b.thermS
      die.val).tile.getD dom.val Row.reset).cool ∧ 0 < ((b.thermS die.val).tile.getD dom.val Row.reset).level ∧
      ((b.thermS die.val).tile.getD dom.val Row.reset).level ≠ 5) ∧
  (∃ (s : State) (now : Ft) (b c : Block) (die : Die) (f : SbFlit) (bmem : Bool), s.readyAt now b ∧ b.flag
      (F.HUB_SB_STATUS_link_up die.val) = true ∧ b.nextOff die.val 0x11 8 = some (f, bmem, c)) :=
  ⟨⟨S (T 2048 R), 0, _, rdyAt _ (by decide +kernel), by decide +kernel⟩,
   ⟨S (({ R with lg := { LgS.reset with under := 65535 } } : Block).setFld F.LG_STATUS_level 4), _,
      rdy _ (by decide +kernel), by decide +kernel⟩,
   ⟨S (({ R with lg := { LgS.reset with under := 65535 } } : Block).setFld F.LG_STATUS_level 5), _,
      rdy _ (by decide +kernel), by decide +kernel⟩,
   ⟨S (({ R with lg := { LgS.reset with restoring := true } } : Block).setFld F.LG_STATUS_level 5), _,
      rdy _ (by decide +kernel), by decide +kernel⟩,
   ⟨S (R.setTherm 0 { ThermS.reset with restoring := List.replicate 16 true }), _, 0, rdy _ (by decide +kernel),
      by decide +kernel⟩,
   ⟨S ({ R with lg := { LgS.reset with lowRun := 64 } }), _, rdy _ (by decide +kernel), by decide +kernel⟩,
   ⟨S ({ R with lg := { LgS.reset with adj := 1 } }), 0, _, rdyAt _ (by decide +kernel), by decide +kernel⟩,
   ⟨S (T 1024 { R with lg := { LgS.reset with adj := -1 } }), 0, _, rdyAt _ (by decide +kernel), by decide +kernel⟩,
   ⟨S ((U R).setRelay 0 { RelayS.reset with lgActs := [⟨1, 0, false⟩] }), _, _, 0, _, _, _, rdy _ (by decide +kernel),
      ⟨rfl, got (by decide +kernel)⟩⟩,
   ⟨S (R.setTherm 3 { ThermS.reset with tile := List.replicate 16 ⟨4, 65535⟩ }), _, 3, 15, rdy _ (by decide +kernel),
      by decide +kernel⟩,
   ⟨S ((U R).setRelay 0 { RelayS.reset with thermalDue := some ⟨[], 0, none⟩ }), 0, _, _, 0, _, _,
      rdyAt _ (by decide +kernel), ⟨by decide +kernel, got3 (by decide +kernel)⟩⟩⟩

theorem wit_PostRequestsComplete :
  (∃ (s : State) (now : Ft) (b c : Block) (tile : Tile) (tag ctx win src debit : Nat) (dflt : Bool) (r : Req),
    s.readyAt now b ∧ (b.post tile.val).runs = true ∧
      b.popReply tile.val = some (.grant tile.val tag ctx win src debit dflt, c) ∧
      (b.post tile.val).reqs.find? (·.tag == tag) = some r ∧
      (c.endReq tile.val tag).window < expandWin b.window win + 3) ∧
  (∃ (s : State) (now : Ft) (b c : Block) (tile : Tile) (tag ctx reason retry : Nat),
    s.readyAt now b ∧ (b.post tile.val).runs = true ∧
      b.popReply tile.val = some (.wait tile.val tag ctx reason retry, c)) ∧
  (∃ (s : State) (now : Ft) (b c : Block) (tile : Tile) (tag ctx win : Nat) (g : PGrant),
    s.readyAt now b ∧ (b.post tile.val).runs = true ∧ b.popReply tile.val = some (.revoke tile.val tag ctx win,
      c) ∧ ((c.post tile.val).grants.find? fun g => g.tag == tag && !g.released && g.win % 256 == win % 256 && decide
      (c.now < g.win * 32)) = some g ∧ b.now = c.now ∧ g.void = false) ∧
  (∃ (s : State) (now : Ft) (b c : Block) (tile : Tile) (tag ctx reason : Nat),
    s.readyAt now b ∧ (b.post tile.val).runs = true ∧ b.popReply tile.val = some (.refuse tile.val tag ctx reason,
      c) ∧ ((c.post tile.val).reqs.any (·.tag == tag)) = true) ∧
  (∃ (s : State) (b : Block) (tile : Tile) (tag : Half) (r : Req),
    s.ready b ∧ (b.post tile.val).runs = true ∧
      ((b.post tile.val).reqs.find? fun r => r.tag == tag.toNat && r.retry == some 0) = some r) ∧
  (∃ (s : State) (b : Block) (tile : Tile) (tag : Half) (r : Req),
    s.ready b ∧ (b.post tile.val).runs = true ∧
      ((b.post tile.val).reqs.find? fun r => r.tag == tag.toNat && r.retry.isNone && decide (64 ≤ r.age)) = some r) ∧
  (∃ (s : State) (now : Ft) (b : Block) (tile : Tile) (tag : Half) (r : Req),
    s.readyAt now b ∧ (b.post tile.val).runs = true ∧ (b.post tile.val).reqs.find? (·.tag == tag.toNat) = some r) ∧
  (∃ (s : State) (now : Ft) (b : Block) (tile : Tile),
    s.readyAt now b ∧ (b.post tile.val).runs = true ∧ (b.post tile.val).cal ≠ .running) ∧
  (∃ (s : State) (now : Ft) (b : Block) (tile : Tile) (g : PGrant),
    s.readyAt now b ∧ (b.post tile.val).runs = true ∧
      ((b.post tile.val).grants.find? fun g => decide (g.win + 3 ≤ b.window)) = some g) :=
  ⟨⟨S ((R.setPost 0 { on with reqs := [⟨5, 1, 2, 0, 0, 0,
      none⟩] }).setSlice 0 { SliceS.reset with replies := [.grant 0 5 1 80 1 0 false] }), 0, _, _, 0, 5, 1, 80, 1,
      0, false, _, rdyAt _ (by decide +kernel), ⟨by decide +kernel, rfl, rfl, by decide +kernel⟩⟩,
   ⟨S ((R.setPost 0 on).setSlice 0 { SliceS.reset with replies := [.wait 0 5 1 2 3] }), 0, _, _, 0, 5, 1, 2, 3,
      rdyAt _ (by decide +kernel), ⟨by decide +kernel, rfl⟩⟩,
   ⟨S ((R.setPost 0 { on with grants := [⟨5, 1, 2, 80, false, false,
      false⟩] }).setSlice 0 { SliceS.reset with replies := [.revoke 0 5 1 80] }), 0, _, _, 0, 5, 1, 80, _,
      rdyAt _ (by decide +kernel), ⟨by decide +kernel, rfl, rfl, rfl, rfl⟩⟩,
   ⟨S ((R.setPost 0 { on with reqs := [⟨5, 1, 2, 0, 0, 0,
      none⟩] }).setSlice 0 { SliceS.reset with replies := [.refuse 0 5 1 4] }), 0, _, _, 0, 5, 1, 4,
      rdyAt _ (by decide +kernel), ⟨by decide +kernel, rfl, by decide +kernel⟩⟩,
   ⟨S (R.setPost 0 { on with reqs := [⟨5, 1, 2, 0, 0, 0, some 0⟩] }), _, 0, 5, _, rdy _ (by decide +kernel),
      ⟨by decide +kernel, rfl⟩⟩,
   ⟨S (R.setPost 0 { on with reqs := [⟨5, 1, 2, 0, 64, 0, none⟩] }), _, 0, 5, _, rdy _ (by decide +kernel),
      ⟨by decide +kernel, rfl⟩⟩,
   ⟨S (R.setPost 0 { on with reqs := [⟨5, 1, 2, 0, 0, 0, none⟩] }), 0, _, 0, 5, _, rdyAt _ (by decide +kernel),
      ⟨by decide +kernel, rfl⟩⟩,
   ⟨S (R.setPost 0 on), 0, _, 0, rdyAt _ (by decide +kernel), by decide +kernel⟩,
   ⟨S (T 96 (R.setPost 0 { on with grants := [⟨5, 1, 2, 0, false, false, false⟩] })), 0, _, 0, _,
      rdyAt _ (by decide +kernel), ⟨by decide +kernel, rfl⟩⟩⟩

theorem wit_SiloCommandsComplete :
  (∃ (s : State) (now : Ft) (b c : Block) (tile : Tile) (_flip : DWord) (f : UpFlit), s.readyAt now b ∧ b.lowerFirst
      (domOfTile tile.val) = false ∧ b.popUp tile.val 1 = some (f, c)) ∧
  (∃ (b : Block) (tile : Tile) (ctx _tag cls _lead : Nat), (b.slice (dieOfTile tile.val)).badCls.contains cls = false
      ∧ (ctx ≠ b.tileCtx tile.val ∨ ctx = 0 ∨ b.ctxState (dieOfTile tile.val) ctx = 0)) ∧
  (∃ (b : Block) (tile : Tile) (_tag cls lead d n lim w : Nat) (x : SiloDom) (ent : ClassE × Bool) (st : List Nat), d
      = dieOfTile tile.val ∧ n = domOfTile tile.val ∧ x = b.sdom n ∧ ent = b.classFor d (b.tileCtx tile.val) cls ∧
      (b.slice d).badCls.contains cls = false ∧ b.tileCtx tile.val ≠ 0 ∧ b.ctxState d (b.tileCtx tile.val) = 1 ∧
      (b.tile tile.val).isolated = false ∧ ent.1.defined = true ∧ (b.slice d).stopped = false ∧ (b.slice d).gs = false
      ∧ b.lg.tripped = false ∧ b.fld (F.SILO_DOM_LIM_level n) < 2 ∧ 0 < b.credit d (b.tileCtx tile.val) ∧ st =
      ent.1.ramp.map (fun r => r * x.kf / 16384) ∧ lim = max 8 ((if b.fld (F.SILO_DOM_LIM_level n) = 1 then x.step / 2
      else x.step) * 8) ∧ (((List.range 16).map (b.window + max 2 lead + ·)).find? fun w => !(decide (b.fld
      (F.SILO_DOM_LIM_level n) = 1) && decide (w % 2 = 1)) && (x.fits w lim st || x.fitsEmpty w lim st)) = some w) ∧
  (∃ (s : State) (now : Ft) (b c : Block) (tile : Tile) (f : UpFlit), s.readyAt now b ∧ b.popUp tile.val 2 = some (f,
      c)) ∧
  (∃ (s : State) (b c : Block) (tile : Tile) (f : UpFlit), s.ready b ∧ b.popUp tile.val 3 = some (f, c)) ∧
  (∃ (s : State) (now : Ft) (b : Block), s.readyAt now b ∧ b.silo.lastWin < b.window) ∧
  (∃ (s : State) (b c : Block), s.ready b ∧ b.silo.loading = true ∧ c = b.setFld F.SILO_STATUS_inactive_valid 1) ∧
  (∃ (s : State) (now : Ft) (b : Block), s.readyAt now b ∧ b.coreRuns 1 = true) ∧
  (∃ (s : State) (b c : Block) (die : Die) (deb waited busy : List Nat) (k : Nat) (w : DWord), s.ready b ∧ (b.slice
      die.val).report = some (deb, waited, busy) ∧ k = (b.slice die.val).sent ∧ w = pairBody (reportEntry (2 * k)
      (deb.getD (2 * k) 0) (waited.getD (2 * k) 0)) (reportEntry (2 * k + 1) (deb.getD (2 * k + 1) 0) (waited.getD (2
      * k + 1) 0)) ∧ b.time.epoch * 16384 + k / 4 * 1024 ≤ b.now ∧ b.sbLow die.val 2 0x14 (srcRelay die.val) w = some
      c) ∧
  (∃ (s : State) (now : Ft) (b c : Block) (n : Nat) (res : List Nat) (pool : Nat), s.readyAt now b ∧ b.silo.divided ≠
      some b.epoch ∧ 10240 ≤ b.now % 16384 ∧ b.inDeep = false ∧ c = (({ b with silo := { b.silo with
      divided := some b.epoch,
      cfgNext := some b.regCfg } }) : Block).forAll (List.range 4) (fun c d => c.setSlice d { c.slice d with
      half := none }) ∧ n = sumN ((List.range 4).map b.securingTiles) ∧ res = (List.range 4).map (fun d => if n = 0
      then 0 else b.fld F.SILO_RESERVE_reserve_mw * 16384 / 1000 * b.securingTiles d / n) ∧ c.poolFor (c.epoch + 1) =
      some pool ∧ c.flag F.SILO_CTRL_ration_force = false) ∧
  (∃ (s : State) (b c : Block) (die : Die) (l : List Nat) (h : Nat) (bodies : List DWord), s.ready b ∧ b.silo.out.getD
      die.val none = some l ∧ h = (if (b.slice die.val).half.isSome = true then 1 else 0) ∧ (b.silo.divided = some
      b.epoch → 12288 + 1024 * h ≤ b.now % 16384) ∧ bodies = (List.range 16).map (fun k => pairBody (delegEntry (32 *
      h + 2 * k) (l.getD (32 * h + 2 * k) 0)) (delegEntry (32 * h + 2 * k + 1) (l.getD (32 * h + 2 * k + 1) 0))) ∧
      b.sendDown die.val (bodies.map fun w => (0x15, w)) = some c) ∧
  (∃ (s : State) (now : Ft) (b c : Block) (n : Nat) (res : List Nat), s.readyAt now b ∧ b.silo.divided ≠ some b.epoch
      ∧ 10240 ≤ b.now % 16384 ∧ b.inDeep = false ∧ c = (({ b with silo := { b.silo with
      divided := some b.epoch,
      cfgNext := some b.regCfg } }) : Block).forAll (List.range 4) (fun c d => c.setSlice d { c.slice d with half :=
      none }) ∧ n = sumN ((List.range 4).map b.securingTiles) ∧ res = (List.range 4).map (fun d => if n = 0 then 0
      else b.fld F.SILO_RESERVE_reserve_mw * 16384 / 1000 * b.securingTiles d / n) ∧ (c.poolFor (c.epoch + 1) = none ∨
      c.flag F.SILO_CTRL_ration_force = true) ∧ c.silo.normal = true) ∧
  (∃ (s : State) (now : Ft) (b c : Block) (n : Nat) (res : List Nat), s.readyAt now b ∧ b.silo.divided ≠ some b.epoch
      ∧ 10240 ≤ b.now % 16384 ∧ b.inDeep = false ∧ c = (({ b with silo := { b.silo with
      divided := some b.epoch,
      cfgNext := some b.regCfg } }) : Block).forAll (List.range 4) (fun c d => c.setSlice d { c.slice d with half :=
      none }) ∧ n = sumN ((List.range 4).map b.securingTiles) ∧ res = (List.range 4).map (fun d => if n = 0 then 0
      else b.fld F.SILO_RESERVE_reserve_mw * 16384 / 1000 * b.securingTiles d / n) ∧ (c.poolFor (c.epoch + 1) = none ∨
      c.flag F.SILO_CTRL_ration_force = true) ∧ c.silo.normal = false) :=
  ⟨⟨S (R.setChain 0 { ChainS.reset with up := [(⟨1, 0, 1, 5, 2, 0⟩, 0)] }), 0, _, _, 0, 0, _,
      rdyAt _ (by decide +kernel), ⟨by decide +kernel, rfl⟩⟩,
   ⟨R, 0, 5, 0, 0, 0, by decide +kernel, .inl (by decide +kernel)⟩,
   ⟨SG, 0, 0, 0, 0, _, _, _, 2, _, _, _, rfl, rfl, rfl, rfl, by decide +kernel, by decide +kernel, by decide +kernel,
      by decide +kernel, by decide +kernel, by decide +kernel, by decide +kernel, by decide +kernel,
      by decide +kernel, by decide +kernel, rfl, rfl, by decide +kernel⟩,
   ⟨S (R.setChain 0 { ChainS.reset with up := [(⟨2, 0, 1, 5, 2, 0⟩, 0)] }), 0, _, _, 0, _,
      rdyAt _ (by decide +kernel), rfl⟩,
   ⟨S (R.setChain 0 { ChainS.reset with up := [(⟨3, 0, 1, 0, 0, 0⟩, 0)] }), _, _, 0, _, rdy _ (by decide +kernel),
      rfl⟩,
   ⟨S (T 32 R), 0, _, rdyAt _ (by decide +kernel), by decide +kernel⟩,
   ⟨S ({ R with silo := { SiloHub.reset with loading := true } }), _, _, rdy _ (by decide +kernel), by decide +kernel,
      rfl⟩,
   ⟨S (CO R), 0, _, rdyAt _ (by decide +kernel), by decide +kernel⟩,
   ⟨S ((U R).setSlice 0 { SliceS.reset with report := some ([], [], []) }), _, _, 0, _, _, _, _, _,
      rdy _ (by decide +kernel), ⟨rfl, rfl, rfl, by decide +kernel, got (by decide +kernel)⟩⟩,
   ⟨S (T 10240 { R with silo := { SiloHub.reset with posted := [(1, 5000)] } }), 0, _, _, _, _, 5000,
      rdyAt _ (by decide +kernel), ⟨by decide +kernel, by decide +kernel, by decide +kernel, rfl, rfl, rfl, by decide +kernel,
      by decide +kernel⟩⟩,
   ⟨S (U { R with silo := { SiloHub.reset with out := [some []] } }), _, _, 0, _, _, _, rdy _ (by decide +kernel),
      ⟨rfl, rfl, by decide +kernel, rfl, got (by decide +kernel)⟩⟩,
   ⟨S (T 10240 { R with silo := { SiloHub.reset with normal := true } }), 0, _, _, _, _, rdyAt _ (by decide +kernel),
      ⟨by decide +kernel, by decide +kernel, by decide +kernel, rfl, rfl, rfl, .inl (by decide +kernel),
      by decide +kernel⟩⟩,
   ⟨S (T 10240 { R with silo := { SiloHub.reset with normal := false } }), 0, _, _, _, _, rdyAt _ (by decide +kernel),
      ⟨by decide +kernel, by decide +kernel, by decide +kernel, rfl, rfl, rfl, .inl (by decide +kernel),
      by decide +kernel⟩⟩⟩

theorem wit_MarginCommandsComplete :
  (∃ (s : State) (now : Ft) (b : Block) (tile : Tile) (mv : Fin 2048) (_again : Bool), s.readyAt now b ∧ mv.val <
      (b.chain (domOfTile tile.val)).levels.1) ∧
  (∃ (s : State) (b : Block) (tile : Tile) (mv : Fin 2048) (edges : Nat), s.ready b ∧ (b.post tile.val).powered = true
      ∧ ((b.post tile.val).primary = true ∨ (b.post tile.val).deepReq = true) ∧ (((b.post tile.val).after4 = true ∧
      (b.post tile.val).deepReq = false) ∨ b.releaseLevel tile.val + 5 ≤ mv.val) ∧ (b.post tile.val).strHold ≤ edges ∧
      (∀ m, b.stim 0 tile.val = some m → m.2 ≤ b.now)) ∧
  (∃ (s : State) (b : Block) (tile : Tile), s.ready b ∧ (b.post tile.val).powered = true ∧ 256 ≤ (b.post
      tile.val).stuck) ∧
  (∃ (s : State) (b c : Block) (tile : Tile) (l : Nat), s.ready b ∧ (b.post tile.val).powered = true ∧ b.replyWaits
      (domOfTile tile.val) = false ∧ l = (if (b.post tile.val).opening = true then 2 else levelStretch (b.sdom
      (domOfTile tile.val)).nextLevel.value) ∧ b.postDownFlit tile.val 1 1 (withParity (packBits [(62, 2, l)])) = some
      c) ∧
  (∃ (s : State) (now : Ft) (b c : Block) (tile : Tile) (k count a : Nat) (deep : Bool), s.readyAt now b ∧ (b.post
      tile.val).summary = some (k, count, a, deep) ∧ b.upFlit tile.val 1 1 (glintSummaryWord tile.val k count a deep)
      = some c) ∧
  (∃ (s : State) (now : Ft) (b x y c : Block) (dom : CoreDom) (mine : SbFlit → Bool) (f : SbFlit) (m : Bool),
      s.readyAt now b ∧ b.flag (F.HUB_SB_STATUS_link_up (dom.val / 16)) = true ∧ mine = (fun f => f.type == 3 &&
      getBits f.body.toNat 12 4 == dom.val % 16) ∧ x = (if (b.chain dom.val).glintDue.isEmpty = true then
      b.closeGlints dom.val else b) ∧ y = (if (x.offWire (dom.val / 16) mine).isSome = true then x else (x.putGlint
      dom.val).getD x) ∧ y.offWire (dom.val / 16) mine = some (f, m, c)) ∧
  (∃ (s : State) (b c : Block) (tile : Tile), s.ready b ∧ (b.post tile.val).powered = true ∧ b.carryOrder (domOfTile
      tile.val) = some c) ∧
  (∃ (s : State) (now : Ft) (b : Block) (dom : CoreDom), s.readyAt now b ∧ b.fld (F.LG_MARGIN_MODE_trans dom.val) = 1
      ∧ (b.margin dom.val).waitSlew = true ∧ (b.margin dom.val).orderAt.toNat + 256 ≤ b.now) ∧
  (∃ (s : State) (b : Block) (dom : CoreDom), s.ready b ∧ b.flag (F.LG_MARGIN_MODE_held dom.val) = true ∧ (b.margin
      dom.val).hold = 0 ∧ (b.margin dom.val).holdNext = 0 ∧ b.fld (F.LG_MARGIN_MODE_trans dom.val) = 0) ∧
  (∃ (s : State) (now : Ft) (b : Block) (dom : CoreDom) (f : Nat), s.readyAt now b ∧ (b.margin dom.val).pll = .locking
      f) ∧
  (∃ (s : State) (b : Block) (tile : Tile), s.ready b ∧ b.linkUp (dieOfTile tile.val) = true ∧ (b.post
      tile.val).powered = true ∧ (b.post tile.val).cal = .idle) ∧
  (∃ (s : State) (b : Block) (tile : Tile), s.ready b ∧ (b.post tile.val).runs = true ∧ (b.post tile.val).cal =
      .pending ∧ (b.post tile.val).running = 0) ∧
  (∃ (s : State) (b : Block) (tile : Tile) (level : Fin 2048), s.ready b ∧ (b.post tile.val).runs = true ∧ (b.post
      tile.val).cal = .running ∧ ((level.val : Int) - b.fld (F.VRC_DOM_REF_vmean_mv (domOfTile tile.val))).natAbs ≤
      31) :=
  ⟨⟨S (R.setChain 0 { ChainS.reset with levels := (1000, 900) }), 0, _, 0, 999, true, rdyAt _ (by decide +kernel),
      by decide +kernel⟩,
   ⟨S (R.setPost 0 { on with primary := true }), _, 0, 5, 512, rdy _ (by decide +kernel), ⟨by decide +kernel,
      by decide +kernel, by decide +kernel, by decide +kernel, fun m h => by revert m; decide +kernel⟩⟩,
   ⟨S (R.setPost 0 { on with stuck := 256 }), _, 0, rdy _ (by decide +kernel), by decide +kernel⟩,
   ⟨S (R.setPost 0 on), _, _, 0, _, rdy _ (by decide +kernel), ⟨by decide +kernel, by decide +kernel, rfl, got
      (by decide +kernel)⟩⟩,
   ⟨S (T 16384 (R.setPost 0 { on with summary := some (15, 1, 0, false) })), 0, _, _, 0, 15, 1, 0, false,
      rdyAt _ (by decide +kernel), ⟨rfl, got (by decide +kernel)⟩⟩,
   ⟨S ((U R).setChain 63 { ChainS.reset with glints := [1] }), 0, _, _, _, _, 63, _, _, _,
      rdyAt _ (by decide +kernel), ⟨by decide +kernel, rfl, rfl, rfl, got3 (by decide +kernel)⟩⟩,
   ⟨S (R.setPost 0 on), _, _, 0, rdy _ (by decide +kernel), ⟨by decide +kernel, got (by decide +kernel)⟩⟩,
   ⟨S (T 256 ((R.setFld (F.LG_MARGIN_MODE_trans 0) 1).setMargin 0 { MarginS.reset with waitSlew := true })), 0, _, 0,
      rdyAt _ (by decide +kernel), by decide +kernel⟩,
   ⟨S (R.setFld (F.LG_MARGIN_MODE_held 0) 1), _, 0, rdy _ (by decide +kernel), by decide +kernel⟩,
   ⟨S (R.setMargin 0 { MarginS.reset with pll := .locking 1000 }), 0, _, 0, _, rdyAt _ (by decide +kernel), rfl⟩,
   ⟨S ((U R).setPost 0 on), _, 0, rdy _ (by decide +kernel), by decide +kernel⟩,
   ⟨S (R.setPost 0 { on with cal := .pending }), _, 0, rdy _ (by decide +kernel), by decide +kernel⟩,
   ⟨S ((R.setPost 0 { on with cal := .running }).setFld (F.VRC_DOM_REF_vmean_mv 0) 750), _, 0, 781,
      rdy _ (by decide +kernel), by decide +kernel⟩⟩

theorem wit_RegulatorCommandsComplete :
  (∃ (s : State) (b : Block) (phase : Phase) (x : VrcPh), s.ready b ∧ b.phState phase.val = 1 ∧ (b.vph
      phase.val).limit (b.stepOf (domOfPhase phase.val)) = some x) ∧
  (∃ (s : State) (b : Block) (phase : Phase), s.ready b ∧ b.phState phase.val = 1 ∧ (b.vph phase.val).trips.length <
      3) ∧
  (∃ (s : State) (b : Block) (phase : Phase), s.ready b ∧ b.phState phase.val = 3 ∧ (b.vph phase.val).wait = 0 ∧
      b.vstate (domOfPhase phase.val) = Vs.run ∧ b.flag (F.VRC_DOM_CTRL_shed_en (domOfPhase phase.val)) = false) ∧
  (∃ (s : State) (b : Block) (phase : Phase), s.ready b ∧ b.flag (F.VRC_DOM_STATUS_de_active (domOfPhase phase.val)) =
      true ∧ b.phState phase.val = 1 ∧ (b.vdom (domOfPhase phase.val)).crowbar = false) ∧
  (∃ (s : State) (b : Block) (phase : Phase), s.ready b ∧ (160 : Int) < ((b.vph phase.val).iAcc).fdiv 131072 ∧ (b.vdom
      (domOfPhase phase.val)).overRun < 131072) ∧
  (∃ (s : State) (b : Block) (dom : Dom), s.ready b ∧ b.mayStart dom.val = true) ∧
  (∃ (s : State) (b : Block) (dom : Dom), s.ready b ∧ b.vstate dom.val = Vs.prebias ∧ (b.vdom dom.val).mean16 ≤ 16 *
      b.targetOf dom.val) ∧
  (∃ (s : State) (b : Block) (dom : Dom), s.ready b ∧ 64 ≤ dom.val ∧ b.vstate dom.val = Vs.soft ∧ (b.vdom
      dom.val).refQ = b.fld (F.VRC_DOM_VID_vid_in_force dom.val) * 4096) ∧
  (∃ (s : State) (b : Block) (dom : Dom), s.ready b ∧ 64 ≤ dom.val ∧ b.vstate dom.val = Vs.run ∧ b.cmdReached dom.val
      = true) ∧
  (∃ (s : State) (b : Block) (dom : Dom), s.ready b ∧ b.vstate dom.val = Vs.hiccup ∧ (b.vdom dom.val).hiccup = 0) ∧
  (∃ (s : State) (b : Block) (dom : Dom), s.ready b ∧ b.vstate dom.val = Vs.run ∧ 125000 ≤ (b.vdom dom.val).runRun) ∧
  (∃ (s : State) (b : Block) (dom : Dom), s.ready b ∧ b.linkUp (dieOfDom dom.val) = true ∧ b.vstate dom.val =
      Vs.failed) ∧
  (∃ (s : State) (b : Block) (dom : Dom), s.ready b ∧ b.linkUp (dieOfDom dom.val) = true ∧ 64 ≤ dom.val ∧ b.vstate
      dom.val = Vs.run) ∧
  (∃ (s : State) (b : Block) (dom : Dom), s.ready b ∧ b.vstate dom.val = Vs.stopping ∧ (b.vdom dom.val).refQ ≤ 100 *
      4096) ∧
  (∃ (x y : VrcPh) (w o dtLh dtHl : Nat) (_t : Int), y = x.drive w o dtLh dtHl ∧ 0 < w ∧ x.ls = true ∧ x.pulse = none
      ∧ x.zero = []) ∧
  (∃ (x y : VrcPh) (p : Pulse) (t u : Int), x.tail = none ∧ x.pulse = some p ∧ p.rise ≤ t ∧ x.limit t = some y ∧ t +
      16 ≤ u) ∧
  (∃ (x : VrcPh) (t u : Int), t + 16 ≤ u ∧ (∀ p, x.pulse = some p → t < p.rise → u < p.rise)) :=
  ⟨⟨S (PH 1 { VrcPh.reset with pulse := some ⟨0, 200, 2, 2⟩ }), _, 0, _, rdy _ (by decide +kernel), ⟨by decide +kernel, got (by decide +kernel)⟩⟩,
   ⟨S (PH 1 { VrcPh.reset with trips := [0, 0] }), _, 0, rdy _ (by decide +kernel), by decide +kernel⟩,
   ⟨S (((PH 3 { VrcPh.reset with wait := 0 }).setFld (F.VRC_DOM_STATUS_state 0) Vs.run).setFld (F.VRC_DOM_CTRL_shed_en
      0) 0), _, 0, rdy _ (by decide +kernel), by decide +kernel⟩,
   ⟨S ((PH 1 VrcPh.reset).setFld (F.VRC_DOM_STATUS_de_active 0) 1), _, 0, rdy _ (by decide +kernel),
      by decide +kernel⟩,
   ⟨S (R.setVph 0 { VrcPh.reset with iAcc := 161 * 131072 }), _, 0, rdy _ (by decide +kernel), by decide +kernel⟩,
   ⟨S ((R.setFld (F.VRC_DOM_CTRL_en 71) 1)), _, 71, rdy _ (by decide +kernel), by decide +kernel⟩,
   ⟨S (R.setFld (F.VRC_DOM_STATUS_state 0) Vs.prebias), _, 0, rdy _ (by decide +kernel), by decide +kernel⟩,
   ⟨S ((R.setFld (F.VRC_DOM_STATUS_state 64) Vs.soft).setVdom 64 (VQ 64)), _, 64, rdy _ (by decide +kernel),
      by decide +kernel⟩,
   ⟨S (((R.setFld (F.VRC_DOM_STATUS_state 64) Vs.run).setFld (F.VRC_DOM_CMD_cur 64) 0).setVdom 64 (VQ 64)), _, 64, rdy
      _ (by decide +kernel), by decide +kernel⟩,
   ⟨S (R.setFld (F.VRC_DOM_STATUS_state 0) Vs.hiccup), _, 0, rdy _ (by decide +kernel), by decide +kernel⟩,
   ⟨S ((R.setFld (F.VRC_DOM_STATUS_state 0) Vs.run).setVdom 0 { VrcDom.reset 0 with runRun := 125000 }), _, 0, rdy _
      (by decide +kernel), by decide +kernel⟩,
   ⟨S ((U R).setFld (F.VRC_DOM_STATUS_state 0) Vs.failed), _, 0, rdy _ (by decide +kernel), by decide +kernel⟩,
   ⟨S ((U R).setFld (F.VRC_DOM_STATUS_state 64) Vs.run), _, 64, rdy _ (by decide +kernel), by decide +kernel⟩,
   ⟨S (R.setFld (F.VRC_DOM_STATUS_state 0) Vs.stopping), _, 0, rdy _ (by decide +kernel), by decide +kernel⟩,
   ⟨{ VrcPh.reset with ls := true }, _, 20, 10, 2, 2, 0, rfl, by decide +kernel, rfl, rfl, rfl⟩,
   ⟨{ VrcPh.reset with pulse := some ⟨10, 20, 2, 2⟩ }, _, ⟨10, 20, 2, 2⟩, 10, 26, rfl, rfl, by decide +kernel, got
      (by decide +kernel), by decide +kernel⟩,
   ⟨{ VrcPh.reset with pulse := some ⟨40, 20, 2, 2⟩ }, 10, 26, by decide +kernel, by intro p h _; cases h; decide⟩⟩

theorem wit_RegulatorProtectionCompletes :
  (∃ (s : State) (b : Block) (dom : Dom), s.ready b ∧ b.shorted dom.val = true) ∧
  (∃ (s : State) (b : Block) (dom : Dom), s.ready b ∧ 4 ≤ (b.vdom dom.val).ovpRun ∧ b.vstate dom.val ≠ Vs.off ∧
      (b.vdom dom.val).crowbar = false) ∧
  (∃ (s : State) (b : Block) (dom : Dom), s.ready b ∧ (b.vdom dom.val).crowbar = true ∧ ((b.vdom dom.val).adcA +
      (b.vdom dom.val).adcB) * 5 / 2 < 16 * b.fld (F.VRC_DOM_VID_vid_in_force dom.val)) ∧
  (∃ (s : State) (b : Block) (dom : Dom), s.ready b ∧ (b.vstate dom.val = Vs.run ∨ (b.vdom dom.val).shortNow = true) ∧
      64 ≤ (b.vdom dom.val).uvpRun ∧ 64 ≤ (b.vdom dom.val).stillRun ∧ b.flag (F.VRC_DOM_CTRL_uvp_en dom.val) = true) ∧
  (∃ (s : State) (b : Block) (dom : Dom), s.ready b ∧ 64 ≤ (b.vdom dom.val).stuckRun ∧ (b.vstate dom.val = Vs.soft ∨
      b.vstate dom.val = Vs.run)) ∧
  (∃ (s : State) (b : Block) (_dom : Dom) (p : Phase), s.ready b ∧ 64 ≤ (b.vph p.val).stuckRun ∧ b.phState p.val = 1)
      ∧
  (∃ (s : State) (b : Block) (dom : Dom), s.ready b ∧ b.linkUp (dieOfDom dom.val) = true) ∧
  (∃ (s : State) (b : Block) (phase : Phase), s.ready b ∧ b.linkUp (dieOfDom (domOfPhase phase.val)) = true ∧
      b.phState phase.val = 4) ∧
  (∃ (s : State) (b : Block) (die : Die) (_ppm : Int), s.ready b ∧ b.fld (F.VRC_SLICE_SYNC_sync_state die.val) = 1 ∧
      256 ≤ (b.vslice die.val).moved) ∧
  (∃ (s : State) (b : Block) (die : Die) (_ppm : Int), s.ready b ∧ b.fld (F.VRC_SLICE_SYNC_sync_state die.val) = 3 ∧
      256 ≤ (b.vslice die.val).moved ∧ (b.vslice die.val).phase ≤ 1 ∧ b.flag (F.VRC_SLICE_SYNC_track_en die.val) =
      true) ∧
  (∃ (s : State) (b : Block) (die : Die), s.ready b ∧ b.fld F.CTU_CLK_STATUS_root_src = 0 ∧ b.timeState = 1 ∧ b.flag
      (F.VRC_SLICE_SYNC_track_en die.val) = true ∧ b.fld (F.VRC_SLICE_SYNC_sync_state die.val) = 2) ∧
  (∃ (b : Block) (die st : Nat), b.fld (F.VRC_SLICE_SYNC_sync_state die) ≠ st ∧ (st = 1 ∨ st = 3)) ∧
  (∃ (s : State) (b : Block) (die : Die), s.ready b ∧ 1048576 ≤ (b.vslice die.val).track) :=
  ⟨⟨S ((((R.setFld (F.VRC_DOM_STATUS_state 0) Vs.run).setFld (F.VRC_PH_STATUS_state 0) 1).setVph 0
      { VrcPh.reset with lim := true }).setVdom 0 { VrcDom.reset 0 with refQ := 750 * 4096, limRun := 7 }), _, 0,
      rdy _ (by decide +kernel), by decide +kernel⟩,
   ⟨S ((R.setFld (F.VRC_DOM_STATUS_state 0) Vs.run).setVdom 0 { VrcDom.reset 0 with ovpRun := 4 }), _, 0, rdy _
      (by decide +kernel), by decide +kernel⟩,
   ⟨S ((R.setFld (F.VRC_DOM_VID_vid_in_force 0) 750).setVdom 0 { VrcDom.reset 0 with crowbar := true }), _, 0, rdy _
      (by decide +kernel), by decide +kernel⟩,
   ⟨S (((R.setFld (F.VRC_DOM_STATUS_state 0) Vs.run).setFld (F.VRC_DOM_CTRL_uvp_en 0) 1).setVdom 0
      { VrcDom.reset 0 with uvpRun := 64, stillRun := 64 }), _, 0, rdy _ (by decide +kernel), by decide +kernel⟩,
   ⟨S ((R.setFld (F.VRC_DOM_STATUS_state 0) Vs.run).setVdom 0 { VrcDom.reset 0 with stuckRun := 64 }), _, 0, rdy _
      (by decide +kernel), by decide +kernel⟩,
   ⟨S (PH 1 { VrcPh.reset with stuckRun := 64 }), _, 0, 0, rdy _ (by decide +kernel), by decide +kernel⟩,
   ⟨S (U R), _, 71, rdy _ (by decide +kernel), by decide +kernel⟩,
   ⟨S (U (PH 4 VrcPh.reset)), _, 0, rdy _ (by decide +kernel), by decide +kernel⟩,
   ⟨S ((R.setFld (F.VRC_SLICE_SYNC_sync_state 0) 1).setVslice 0 { VrcSlice.reset with moved := 256 }), _, 0, 0, rdy _
      (by decide +kernel), by decide +kernel⟩,
   ⟨S (((R.setFld (F.VRC_SLICE_SYNC_sync_state 0) 3).setFld (F.VRC_SLICE_SYNC_track_en 0) 1).setVslice 0
      { VrcSlice.reset with moved := 256, phase := 1 }), _, 0, 0, rdy _ (by decide +kernel), by decide +kernel⟩,
   ⟨S (((T 0 (R.setFld F.CTU_CLK_STATUS_root_src 0)).setFld (F.VRC_SLICE_SYNC_track_en 0) 1).setFld
      (F.VRC_SLICE_SYNC_sync_state 0) 2), _, 0, rdy _ (by decide +kernel), by decide +kernel⟩,
   ⟨R.setFld (F.VRC_SLICE_SYNC_sync_state 3) 2, 3, 1, by decide +kernel, .inl rfl⟩,
   ⟨S (R.setVslice 0 { VrcSlice.reset with track := 1048576 }), _, 0, rdy _ (by decide +kernel), by decide +kernel⟩⟩

theorem wit_ThermalCommandsComplete :
  (∃ (s : State) (now : Ft) (b c : Block) (die : Die) (flit : Fin 16) (w : DWord), s.readyAt now b ∧ flit.val / 4 ≤
      b.tick % 128 ∧ b.time.ticking = true ∧ w = sensorBody (b.relay die.val).bmem flit.val ∧ b.sbLow die.val 2 0x17
      (srcRelay die.val) w = some c) ∧
  (∃ (l : List (Option Int)) (f q : Nat), q < 4 ∧ ∀ v, l.getD (4 * f + q) none = some v → -32767 ≤ v ∧ v ≤ 32767) ∧
  (∃ (s : State) (now : Ft) (b : Block), s.readyAt now b ∧ b.time.ticking = true ∧ 4 ≤ b.tick % 128 ∧ b.tme.seen <
      b.tick / 128) ∧
  (∃ (s : State) (now : Ft) (b : Block) (r : TmeOut), s.readyAt now b ∧ b.tme.next = some r ∧ 128 * r.step + 64 ≤
      b.tick ∧ r.step % 128 ≠ 0 ∧ r.ecc = false ∧ r.clr = false ∧ r.sus = [] ∧ b.tick < b.tme.first + 1048576) ∧
  (∃ (s : State) (now : Ft) (b : Block), s.readyAt now b ∧ b.flag F.TME_AMB_amb_default = false ∧ b.tme.ambAt.toNat +
      b.fld F.TME_AMB_amb_age * 1000000000 < b.now) ∧
  (∃ (s : State) (now : Ft) (b : Block), s.readyAt now b ∧ b.coreRuns 2 = true ∧ (∃ x, b.tme.fcIn = some x ∧ x.1 =
      b.tick / 16384) ∧ b.tme.formed ≠ some (b.tick / 16384)) ∧
  (∃ (s : State) (now : Ft) (b : Block), s.readyAt now b ∧ b.coreRuns 2 = true ∧ (∀ p, b.tme.formed = some p → b.tick
      / 16384 ≤ p)) ∧
  (∃ (s : State) (now : Ft) (b : Block), s.readyAt now b ∧ 4 ≤ b.fld F.TME_STATUS_fc_missed ∧ b.fc.active.contains (3,
      1, 0) = false) :=
  ⟨⟨S (U (T (3072 + 131072) R)), 0, _, _, 3, 15, _, rdyAt _ (by decide +kernel), ⟨by decide +kernel,
      by decide +kernel, rfl, got (by decide +kernel)⟩⟩,
   ⟨[some (-32767)], 0, 0, by decide, fun v h => by cases h; decide⟩,
   ⟨S (T (4096 + 131072) R), 0, _, rdyAt _ (by decide +kernel), by decide +kernel⟩,
   ⟨S (T (192 * 1024) { R with tme := { TmeS.reset with next := some ⟨1, [], 0, [], false, false⟩ } }), 0, _, _,
      rdyAt _ (by decide +kernel), ⟨rfl, by decide +kernel⟩⟩,
   ⟨S ((T 70000000000000 R).setFld F.TME_AMB_amb_default 0), 0, _, rdyAt _ (by decide +kernel), by decide +kernel⟩,
   ⟨S (CO { R with tme := { TmeS.reset with fcIn := some (0, [], []) } }), 0, _, rdyAt _ (by decide +kernel),
      ⟨by decide +kernel, ⟨_, rfl, by decide +kernel⟩, by decide +kernel⟩⟩,
   ⟨S (CO R), 0, _, rdyAt _ (by decide +kernel), by decide +kernel, fun p h => by cases h⟩,
   ⟨S (R.setFld F.TME_STATUS_fc_missed 4), 0, _, rdyAt _ (by decide +kernel), by decide +kernel⟩⟩

theorem wit_LendingCommandsComplete :
  (∃ (s : State) (now : Ft) (b : Block), s.readyAt now b ∧ b.flag F.HIU_LEND_STATUS_pending = true ∧ b.fld
      F.HIU_LEND_X_ft ≤ b.now ∧ (b.lend.leases.any fun x => !x.lent) = false ∧ b.lendRegs.n = 0) ∧
  (∃ (s : State) (now : Ft) (b : Block), s.readyAt now b ∧ b.lending = true ∧ b.lend.interval < b.interval) ∧
  (∃ (s : State) (now : Ft) (b : Block), s.readyAt now b ∧ b.inInterval = true ∧ b.lend.offered = false ∧ b.intervalAt
      + b.lend.cfg.self * 1048576 ≤ b.now) ∧
  (∃ (s : State) (now : Ft) (b : Block) (bytes : List Byte), s.readyAt now b ∧ b.lendDropped.1 = false ∧ 2 ≤
      b.lend.cfg.n ∧ b.coreRuns 1 = true ∧ b.lend.adopt = false ∧ b.lendOk bytes = true ∧ rdAt bytes 0 1 = 1 ∧
      b.lend.claimed = false ∧ b.now ≤ b.intervalAt + 16777216 ∧ rdAt bytes 4 1 ≠ b.lend.cfg.self) ∧
  (∃ (s : State) (now : Ft) (b : Block), s.readyAt now b ∧ b.inInterval = true ∧ b.lend.claimed = false ∧ b.intervalAt
      + 16777216 ≤ b.now ∧ b.lend.want = 0) ∧
  (∃ (s : State) (now : Ft) (b : Block) (bytes : List Byte), s.readyAt now b ∧ b.lendDropped.1 = false ∧ 2 ≤
      b.lend.cfg.n ∧ b.coreRuns 1 = true ∧ b.lend.adopt = false ∧ b.lendOk bytes = true ∧ rdAt bytes 0 1 = 2 ∧
      b.lend.decided = false ∧ b.now ≤ b.intervalAt + 33554432) ∧
  (∃ (s : State) (now : Ft) (b : Block), s.readyAt now b ∧ b.inInterval = true ∧ b.intervalAt + 33554432 ≤ b.now ∧
      b.lend.decided = false ∧ b.lend.rx = []) ∧
  (∃ (s : State) (now : Ft) (b : Block) (bytes : List Byte), s.readyAt now b ∧ b.lendDropped.1 = false ∧ 2 ≤
      b.lend.cfg.n ∧ b.coreRuns 1 = true ∧ b.lend.adopt = false ∧ b.lendOk bytes = true ∧ rdAt bytes 0 1 = 3 ∧ b.now ≤
      b.intervalAt + 67108864 ∧ 0 < rdAt bytes 20 4) ∧
  (∃ (s : State) (now : Ft) (b : Block), s.readyAt now b ∧ b.lending = true ∧ (b.tick + 1) % 131072 = 0 ∧
      (b.lend.leases.any fun x => !x.lent) = true) ∧
  (∃ (s : State) (now : Ft) (b : Block), s.readyAt now b ∧ b.coreRuns 1 = true ∧ b.timeState = 1 ∧ (b.lend.leases.any
      fun x => x.lent && decide (x.stop ≤ b.tick)) = true) :=
  ⟨⟨S (R.setFld F.HIU_LEND_STATUS_pending 1), 0, _, rdyAt _ (by decide +kernel), by decide +kernel⟩,
   ⟨S (LE (134217728 * 2) LendS.reset), 0, _, rdyAt _ (by decide +kernel), by decide +kernel⟩,
   ⟨S (LE 134217728 { LendS.reset with interval := 1 }), 0, _, rdyAt _ (by decide +kernel), by decide +kernel⟩,
   ⟨S (LE 134217728 { LendS.reset with interval := 1 }), 0, _, MSG 1 255, rdyAt _ (by decide +kernel),
      by decide +kernel⟩,
   ⟨S (LE (134217728 + 16777216) { LendS.reset with interval := 1 }), 0, _, rdyAt _ (by decide +kernel),
      by decide +kernel⟩,
   ⟨S (LE 134217728 { LendS.reset with interval := 1 }), 0, _, MSG 2 0, rdyAt _ (by decide +kernel),
      by decide +kernel⟩,
   ⟨S (LE (134217728 + 33554432) { LendS.reset with interval := 1 }), 0, _, rdyAt _ (by decide +kernel),
      by decide +kernel⟩,
   ⟨S (LE 134217728 { LendS.reset with interval := 1, claims := [(1, 5000)] }), 0, _, MSG 3 0, rdyAt _
      (by decide +kernel), by decide +kernel⟩,
   ⟨S (LE (131071 * 1024) { LendS.reset with leases := [⟨false, 1, 5000, 0, 200000⟩] }), 0, _, rdyAt _
      (by decide +kernel), by decide +kernel⟩,
   ⟨S (LE 134217728 { LendS.reset with leases := [⟨true, 1, 5000, 0, 1⟩] }), 0, _, rdyAt _ (by decide +kernel),
      by decide +kernel⟩⟩

theorem wit_FaultCommandsComplete :
  (∃ (s : State) (now : Ft) (b : Block) (f : FaultIn), s.readyAt now b ∧ sourceExists f.group.val f.source.val = true)
      ∧
  (∃ (s : State) (b c : Block) (die : Die) (f : SbFlit) (m : Bool) (r : FaultRec), s.ready b ∧ b.flag
      (F.HUB_SB_STATUS_link_up die.val) = true ∧ b.nextOff die.val 0x20 8 = some (f, m, c) ∧ r = faultOfWord c.now
      f.body ∧ r.group < 26 ∧ sourceExists r.group r.source = true) ∧
  (∃ (b : Block) (g src : Nat), b.faultNow g src = true) ∧
  (∃ (s : State) (b : Block), s.ready b ∧ b.injAllowed (b.fld F.FC_INJ_CTRL_det) = true ∧ b.fc.armed = none) ∧
  (∃ (s : State) (b : Block), s.ready b ∧ b.injAllowed (b.fld F.FC_INJ_CTRL_det) = false) ∧
  (∃ (s : State) (now : Ft) (b : Block) (det mode inst param : Nat), s.readyAt now b ∧ b.fc.armed = some (det, mode,
      inst, param)) ∧
  (∃ (s : State) (b : Block), s.ready b ∧ b.fc.riskSeen < b.tick / 1048576 ∧ 4 ≤ b.tick % 1048576) :=
  ⟨⟨S (R), 0, _, ⟨25, 0, 0, false, false⟩, rdyAt _ (by decide +kernel), by decide +kernel⟩,
   ⟨S ((U R).setRelay 0 { RelayS.reset with faults := [⟨9, 0, 0, 0, 0, false, false⟩] }), _, _, 0, _, _, _, rdy _
      (by decide +kernel), ⟨by decide +kernel, got (by decide +kernel), rfl, by decide +kernel⟩⟩,
   ⟨{ R with fc := { FcS.reset with recent := [⟨0, 25, 0, 0, false, false⟩] } }, 25, 0, by decide +kernel⟩,
   ⟨S ((R.setFld F.LFC_LC_state 1).setFld F.LFC_ACCESS_access 255), _, rdy _ (by decide +kernel), by decide +kernel⟩,
   ⟨S (R), _, rdy _ (by decide +kernel), by decide +kernel⟩,
   ⟨S ({ R with fc := { FcS.reset with armed := some (0, 1, 2, 3) } }), 0, _, 0, 1, 2, 3, rdyAt _ (by decide +kernel),
      by decide +kernel⟩,
   ⟨S (T (4096 + 1073741824) R), _, rdy _ (by decide +kernel), by decide +kernel⟩⟩

theorem wit_IsolationCommandsComplete :
  (∃ (s : State) (now : Ft) (b c : Block) (tile : Tile), s.readyAt now b ∧ b.flag F.FC_ISO_STATUS_busy = false ∧ c =
      b.isoBegin 0 tile.val) ∧
  (∃ (s : State) (now : Ft) (b c : Block) (dom : CoreDom), s.readyAt now b ∧ b.flag F.FC_ISO_STATUS_busy = false ∧ c =
      b.isoBegin 1 dom.val) ∧
  (∃ (s : State) (b c : Block) (tile : Tile), s.ready b ∧ b.flag F.FC_ISO_STATUS_busy = false ∧ c = b.isoBegin 2
      tile.val) ∧
  (∃ (s : State) (b c : Block) (dom : CoreDom), s.ready b ∧ b.flag F.FC_ISO_STATUS_busy = false ∧ c = b.isoBegin 3
      dom.val) ∧
  (∃ (s : State) (b : Block), s.ready b ∧ b.flag F.FC_ISO_STATUS_busy = true) ∧
  (∃ (s : State) (now : Ft) (b c : Block) (domain : Bool) (index : Tile) (o : Bool × Nat × Ft) (f : SbFlit), s.readyAt
      now b ∧ (b.fc.orders.find? fun (o : Bool × Nat × Ft) => o.1 == domain && o.2.1 == index.val) = some o ∧
      b.takeDown (if domain = true then index.val / 16 else dieOfTile index.val) 0x21 (orderWord (domain, index.val))
      = some (f, c)) ∧
  (∃ (s : State) (now : Ft) (b : Block) (tile : Tile), s.readyAt now b ∧ (b.post tile.val).open_ = false ∧ (b.post
      tile.val).opening = true ∧ (b.post tile.val).openAt + 1125 ≤ b.now) ∧
  (∃ (s : State) (b : Block) (tile : Tile), s.ready b ∧ b.readmitAt tile.val 1 = true) ∧
  (∃ (s : State) (b : Block) (tile : Tile), s.ready b ∧ b.readmitAt tile.val 2 = true ∧ b.vstate (domOfTile tile.val)
      = Vs.run ∧ b.vidSettled (domOfTile tile.val) = true) ∧
  (∃ (s : State) (now : Ft) (b : Block) (tile : Tile) (_signature : DWord) (r : Readmit), s.readyAt now b ∧
      (b.fc.readmits.find? fun r => r.tile == tile.val && r.step == 4) = some r ∧ (b.post tile.val).lbist = true) ∧
  (∃ (s : State) (b : Block) (tile : Tile), s.ready b ∧ (b.fc.readmits.any fun r => r.tile == tile.val && r.step == 7
      && decide (16 ≤ r.good)) = true) ∧
  (∃ (s : State) (now : Ft) (b : Block) (tile : Tile), s.readyAt now b ∧ (b.fc.readmits.any fun r => r.tile ==
      tile.val && r.step == 7 && decide (64 ≤ r.ticks)) = true) ∧
  (∃ (b : Block) (t : Nat), (b.post t).open_ = false ∧ (b.post t).opening = false) :=
  ⟨⟨S R, 0, _, _, 1023, rdyAt _ (by decide +kernel), by decide +kernel, rfl⟩,
   ⟨S R, 0, _, _, 63, rdyAt _ (by decide +kernel), by decide +kernel, rfl⟩,
   ⟨S (R.setFld (F.FC_ISO_TILE_map 0) 1), _, _, 0, rdy _ (by decide +kernel), by decide +kernel, rfl⟩,
   ⟨S (R.setFld (F.FC_ISO_DOM_map 0) 1), _, _, 0, rdy _ (by decide +kernel), by decide +kernel, rfl⟩,
   ⟨S (R.setFld F.FC_ISO_STATUS_busy 1), _, rdy _ (by decide +kernel), by decide +kernel⟩,
   ⟨S (U { R with fc := { FcS.reset with orders := [(false, 0, 0)] } }), 0, _, _, false, 0, _, _, rdyAt _
      (by decide +kernel), ⟨rfl, got (by decide +kernel)⟩⟩,
   ⟨S (T 1125 (R.setPost 0 { on with opening := true, open_ := false })), 0, _, 0, rdyAt _ (by decide +kernel),
      by decide +kernel⟩,
   ⟨S (RA 1 0 0), _, 0, rdy _ (by decide +kernel), by decide +kernel⟩,
   ⟨S ((((RA 2 0 0).setFld (F.VRC_DOM_STATUS_state 0) Vs.run).setFld (F.VRC_DOM_VID_vid_req 0) (R.fld
      (F.VRC_DOM_VID_vid_in_force 0))).setVdom 0 (VQ 0)), _, 0, rdy _ (by decide +kernel), by decide +kernel⟩,
   ⟨S ((RA 4 0 0).setPost 0 { on with lbist := true }), 0, _, 0, 0, _, rdyAt _ (by decide +kernel), ⟨rfl,
      by decide +kernel⟩⟩,
   ⟨S (RA 7 16 0), _, 0, rdy _ (by decide +kernel), by decide +kernel⟩,
   ⟨S (RA 7 0 64), 0, _, 0, rdyAt _ (by decide +kernel), by decide +kernel⟩,
   ⟨R.setPost 1023 { on with open_ := false }, 1023, by decide +kernel⟩⟩

theorem wit_CoreCommandsComplete :
  (∃ (s : State) (now : Ft) (b : Block) (core : CoreId), s.readyAt now b ∧ b.coreState core.val = 0 ∧ b.stim 5
      core.val = none) ∧
  (∃ (s : State) (now : Ft) (b : Block) (core : Fin 4), s.readyAt now b ∧ b.wdOver core.val = true ∧ b.stim 5 core.val
      = none) ∧
  (∃ (s : State) (now : Ft) (b : Block) (core : Fin 4) (_cause : Fin 3), s.readyAt now b ∧ (b.coreState core.val = 0 ∨
      b.coreState core.val = 5)) ∧
  (∃ (s : State) (now : Ft) (b : Block) (core : Fin 4) (_cause : Fin 3), s.readyAt now b ∧ b.coreState core.val = 1 ∧
      b.fwc.since.getD core.val 0 = b.now) ∧
  (∃ (s : State) (b : Block) (core : Fin 4), s.ready b ∧ b.supRuns = true ∧ b.fwc.due.contains core.val = true) ∧
  (∃ (s : State) (b : Block) (x : Frozen) (rest : List Frozen), s.ready b ∧ b.fwc.dumping = x :: rest) ∧
  (∃ (s : State) (now : Ft) (b : Block) (core : Fin 4), s.readyAt now b ∧ b.coreState core.val = 3 ∧ b.activeGood =
      true) ∧
  (∃ (s : State) (now : Ft) (b : Block) (core : Fin 4), s.readyAt now b ∧ (b.fwc.returning.any fun (x : Nat × Nat) =>
      x.1 == core.val && decide (x.2 < b.tick / 16)) = true) ∧
  (∃ (s : State) (now : Ft) (b : Block), s.readyAt now b ∧ b.wdOver 4 = true ∧ b.stim 5 4 = none) ∧
  (∃ (s : State) (now : Ft) (b : Block), s.readyAt now b ∧ b.coreState 4 = 3) ∧
  (∃ (s : State) (now : Ft) (b : Block) (core : CoreId), s.readyAt now b ∧ b.access 4 = true ∧ b.updState = 0 ∧
      b.coreState core.val = 0) ∧
  (∃ (s : State) (now : Ft) (b : Block) (core : Fin 4), s.readyAt now b ∧ b.access 4 = true ∧ b.coreState core.val =
      1) ∧
  (∃ (s : State) (now : Ft) (b : Block) (core : CoreId) (k : Fin 4), s.readyAt now b ∧ b.access 4 = true ∧ b.updState
      = 0 ∧ b.coreState core.val = 0 ∧ b.fld (F.FWC_BP_kind core.val k.val) ≠ 0) ∧
  (∃ (b : Block) (core place : Nat), place = b.fwc.elogAt % 4096 ∧ core < 256) :=
  ⟨⟨S (CO R), 0, _, 0, rdyAt _ (by decide +kernel), by decide +kernel⟩,
   ⟨S (CO (T 10000000 R)), 0, _, 0, rdyAt _ (by decide +kernel), by decide +kernel⟩,
   ⟨S (CO R), 0, _, 3, 2, rdyAt _ (by decide +kernel), by decide +kernel⟩,
   ⟨S ((CO R).setFld ⟨0x3000, 0, 3⟩ 1), 0, _, 0, 2, rdyAt _ (by decide +kernel), by decide +kernel⟩,
   ⟨S (CO { R with fwc := { FwcS.reset with due := [3] } }), _, 3, rdy _ (by decide +kernel), by decide +kernel⟩,
   ⟨S ({ R with fwc := { FwcS.reset with dumping := [⟨0, 1, 0, []⟩] } }), _, _, _, rdy _ (by decide +kernel), rfl⟩,
   ⟨S ((GO R).setFld ⟨0x3000, 9, 3⟩ 3), 0, _, 3, rdyAt _ (by decide +kernel), ⟨by decide +kernel, by simp [Block.activeGood]; rfl⟩⟩,
   ⟨S (T 16384 { R with fwc := { FwcS.reset with returning := [(0, 0)] } }), 0, _, 0, rdyAt _ (by decide +kernel),
      by decide +kernel⟩,
   ⟨S (CO (T 100000000 R)), 0, _, rdyAt _ (by decide +kernel), by decide +kernel⟩,
   ⟨S ((GO R).setFld ⟨0x3000, 12, 3⟩ 3), 0, _, rdyAt _ (by decide +kernel), by decide +kernel⟩,
   ⟨S ((CO R).setFld F.LFC_ACCESS_access 255), 0, _, 4, rdyAt _ (by decide +kernel), by decide +kernel⟩,
   ⟨S (((CO R).setFld F.LFC_ACCESS_access 255).setFld ⟨0x3000, 0, 3⟩ 1), 0, _, 0, rdyAt _ (by decide +kernel),
      by decide +kernel⟩,
   ⟨S (((CO R).setFld F.LFC_ACCESS_access 255).setFld (F.FWC_BP_kind 0 3) 1), 0, _, 0, 3, rdyAt _ (by decide +kernel),
      by decide +kernel⟩,
   ⟨R, 255, _, rfl, by decide⟩⟩

theorem wit_UpdateCommandsComplete :
  (∃ (s : State) (b : Block), s.ready b ∧ b.flag F.FWC_STATUS_rom_wait = true ∧ b.fwc.bootPend = false ∧ b.flag
      F.MPU_STATUS_boot_busy = false ∧ b.flag F.HIU_CTRL_region_lock = true) ∧
  (∃ (s : State) (now : Ft) (b : Block) (_l : List Byte), s.readyAt now b ∧ b.fwc.bootPend = true ∧ b.flag
      F.FWC_STATUS_rom_wait = true ∧ b.flag F.MPU_STATUS_boot_busy = false) ∧
  (∃ (s : State) (b : Block), s.ready b ∧ b.updState = 3 ∧ b.supRuns = true ∧ b.updCrash = false ∧ b.fwc.supFail =
      false) ∧
  (∃ (s : State) (b : Block), s.ready b ∧ b.updState = 4 ∧ b.supRuns = true ∧ b.updCrash = false ∧ b.fwc.supFail =
      false) ∧
  (∃ (s : State) (b : Block), s.ready b ∧ b.updState = 5 ∧ b.supRuns = true ∧ (∀ c < 4, b.coreState c = 5)) ∧
  (∃ (s : State) (now : Ft) (b : Block) (r : Bool) (h : List Byte), s.readyAt now b ∧ b.updState = 6 ∧ b.supRuns =
      true ∧ b.now ≤ b.fwc.updAt + 12000000 ∧ (∀ c < 4, b.coreState c = 5) ∧ b.fwc.boot.pending = some (r, h) ∧
      reflAdopts ⟨b.region b.shadowReg⟩ b.fwc.refl = true) ∧
  (∃ (s : State) (now : Ft) (b : Block), s.readyAt now b ∧ b.updState = 6 ∧ b.supRuns = true ∧ b.fwc.supFail = false)
      :=
  ⟨⟨S ((R.setFld F.FWC_STATUS_rom_wait 1).setFld F.HIU_CTRL_region_lock 1), _, rdy _ (by decide +kernel),
      by decide +kernel⟩,
   ⟨S ({ R with fwc := { FwcS.reset with bootPend := true } }), 0, _, [], rdyAt _ (by decide +kernel),
      by decide +kernel⟩,
   ⟨S ((CO R).setFld F.FWC_UPD_STATUS_state 3), _, rdy _ (by decide +kernel), by decide +kernel⟩,
   ⟨S ((CO R).setFld F.FWC_UPD_STATUS_state 4), _, rdy _ (by decide +kernel), by decide +kernel⟩,
   ⟨S ((PA FwcS.reset).setFld F.FWC_UPD_STATUS_state 5), _, rdy _ (by decide +kernel), by decide +kernel⟩,
   ⟨S (PA { FwcS.reset with boot := { BootRec.reset with pending := some (true, []) }, imgB := [], refl := refl }), 0,
      _, _, _, rdyAt _ (by decide +kernel), ⟨by decide +kernel, by decide +kernel, by decide +kernel,
      by decide +kernel, rfl, by decide +kernel⟩⟩,
   ⟨S (PA FwcS.reset), 0, _, rdyAt _ (by decide +kernel), by decide +kernel⟩⟩

theorem wit_RingCommandsComplete :
  (∃ (s : State) (b : Block) (ring : Ring),
    s.ready b ∧ b.flag (F.HIU_RING_CFG_en ring.val) = false ∧ b.ringOk ring.val = true) ∧
  (∃ (s : State) (b : Block) (ring : Ring),
    s.ready b ∧ b.flag (F.HIU_RING_CFG_en ring.val) = false ∧ b.ringOk ring.val = false) ∧
  (∃ (s : State) (now : Ft) (b c : Block) (ring : Ring) (value : Word),
    s.readyAt now b ∧ b.ringOn ring.val = true ∧
      c = b.setFld (if ring.val < 64 then F.HIU_RING_PROD_pos ring.val else F.HIU_RING_CONS_pos ring.val) value.toNat
      ∧ (value.toNat + 4294967296 - b.fld (if ring.val < 64 then F.HIU_RING_PROD_pos ring.val else
      F.HIU_RING_CONS_pos ring.val)) % 4294967296 < 2147483648 ∧ c.held ring.val ≤ b.ringEntries ring.val) ∧
  (∃ (s : State) (now : Ft) (b : Block) (ring : Ctx) (_e : List Byte) (_payload : Option (List Byte)),
    s.readyAt now b ∧ b.coreRuns 0 = true ∧ b.ringOn ring.val = true ∧ b.ringOn (ring.val + 64) = true ∧
      b.held ring.val ≠ 0 ∧
      b.held (ring.val + 64) + (b.outstandingOf ring.val).length < b.ringEntries (ring.val + 64) ∧
      b.stim 8 ring.val = none) ∧
  (∃ (s : State) (now : Ft) (b : Block),
    s.readyAt now b ∧ b.fld F.HIU_SESSION_state = 2 ∧ b.coreRuns 0 = true ∧
      max (b.fld F.HIU_HB_LAST_ft) b.hiu.commitAt.toNat + b.fld F.HIU_HB_CFG_timeout_ms * 1000000 ≤ b.now) :=
  ⟨⟨S (R.setFld (F.HIU_RING_CFG_log2_size 64) 16), _, 64, rdy _ (by decide +kernel), by decide +kernel⟩,
   ⟨S (R.setFld (F.HIU_RING_CFG_log2_size 64) 17), _, 64, rdy _ (by decide +kernel), by decide +kernel⟩,
   ⟨S ((RI R 0).setFld (F.HIU_RING_PROD_pos 0) 0), 0, _, _, 0, 64, rdyAt _ (by decide +kernel), ⟨by decide +kernel,
      rfl, by decide +kernel⟩⟩,
   ⟨S ((RI (RI (CO R) 0) 64).setFld (F.HIU_RING_PROD_pos 0) 1), 0, _, 0, [], none, rdyAt _ (by decide +kernel),
      by decide +kernel⟩,
   ⟨S ((CO (T 4000000000000 R)).setFld F.HIU_SESSION_state 2), 0, _, rdyAt _ (by decide +kernel), by decide +kernel⟩⟩

theorem wit_CompletionWritesComplete :
  (∃ (s : State) (now : Ft) (b : Block),
    s.block.rst.groups = false ∧ b = s.block.advance now ∧ b.fld F.TTU_STOP_STATUS_state = 2) :=
  ⟨S (R.setFld F.TTU_STOP_STATUS_state 2), 0, _, rfl, rfl, by decide +kernel⟩

theorem wit_SessionPacketsComplete :
  (∃ (s : State) (now : Ft) (b : Block) (p : Pkt),
    s.serves now 0x00 p b) ∧
  (∃ (s : State) (now : Ft) (b : Block) (p : Pkt),
    s.serves now 0x01 p b ∧ p.onP4 = false ∧ p.arg 0 1 = 1) ∧
  (∃ (s : State) (now : Ft) (b : Block) (p : Pkt) (n : Neg),
    s.serves now 0x02 p b ∧ p.onP4 = false ∧ b.negOf p.src = some n ∧ p.arg 0 32 &&& n.feats = p.arg 0 32 ∧
      bit (p.arg 0 32) 0 = true ∧ p.arg 0x20 2 ≠ 0 ∧ b.profiles.contains (p.arg 0x20 2) = true ∧
      p.arg 0x20 2 = b.fld F.HIU_PROFILE_selected) ∧
  (∃ (s : State) (now : Ft) (b : Block) (p : Pkt),
    s.serves now 0x03 p b ∧ p.onP4 = false ∧ 2 ≤ b.sessionOf p.src) ∧
  (∃ (s : State) (now : Ft) (b : Block) (p : Pkt),
    s.serves now 0x04 p b) :=
  ⟨⟨S (W (CO R) (P 0x00 0)), 0, _, (P 0x00 0), srv _ _ _ (by decide +kernel)⟩,
   ⟨S (W (CO R) (P 0x01 1)), 0, _, (P 0x01 1), srv _ _ _ (by decide +kernel), by decide +kernel⟩,
   ⟨S (W (({ CO R with hiu := { HiuS.reset with neg := some ⟨3, 1,
      0⟩ } } : Block).setFld F.HIU_SESSION_state 1) (P 0x02 (1 + 256 ^ 32 * 768))), 0, _,
      (P 0x02 (1 + 256 ^ 32 * 768)), _, srv _ _ _ (by decide +kernel), ⟨by decide +kernel, rfl, by decide +kernel⟩⟩,
   ⟨S (W ((CO R).setFld F.HIU_SESSION_state 2) (P 0x03 0)), 0, _, (P 0x03 0), srv _ _ _ (by decide +kernel),
      by decide +kernel⟩,
   ⟨S (W (CO R) (P 0x04 0)), 0, _, (P 0x04 0), srv _ _ _ (by decide +kernel)⟩⟩

theorem wit_ContextPacketsComplete :
  (∃ (s : State) (now : Ft) (b : Block) (p : Pkt) (c : Nat), s.serves now 0x10 p b ∧ b.fld F.HIU_SESSION_state ≠ 3 ∧
      p.arg 0 1 = c ∧ 1 ≤ c ∧ c ≤ 63 ∧ p.arg 1 1 < 4 ∧ b.fld (F.SILO_CTX_CFG_state c) = 0 ∧ b.overPool true c
      (b.budgetOf p).1.1 = false) ∧
  (∃ (s : State) (now : Ft) (b : Block) (p : Pkt), s.serves now 0x11 p b ∧ 1 ≤ p.arg 0 1 ∧ p.arg 0 1 ≤ 63 ∧ p.arg 4 4
      ≤ p.arg 8 4 ∧ p.arg 1 1 < 4 ∧ b.overPool false (p.arg 0 1) (b.budgetOf p).1.1 = false) ∧
  (∃ (s : State) (now : Ft) (b : Block) (p : Pkt) (l : List Nat), s.serves now 0x12 p b ∧ 1 ≤ p.arg 0 1 ∧ p.arg 0 1 ≤
      63 ∧ p.arg 1 1 = 0 ∧ p.tiles = some l ∧ (∀ t ∈ l, b.tileCtxReg t = 0)) ∧
  (∃ (s : State) (now : Ft) (b : Block) (p : Pkt), s.serves now 0x13 p b ∧ 1 ≤ p.arg 0 1 ∧ p.arg 0 1 ≤ 63) ∧
  (∃ (s : State) (now : Ft) (b : Block) (p : Pkt), s.serves now 0x14 p b ∧ 1 ≤ p.arg 0 1 ∧ p.arg 0 1 ≤ 63) ∧
  (∃ (s : State) (now : Ft) (b : Block) (p : Pkt), s.serves now 0x15 p b ∧ 1 ≤ p.arg 0 1 ∧ p.arg 0 1 ≤ 63 ∧ b.fld
      F.HIU_SESSION_state ≠ 3 ∧ b.fld (F.SILO_CTX_CFG_state (p.arg 0 1)) = 2) ∧
  (∃ (s : State) (now : Ft) (b : Block) (p : Pkt), s.serves now 0x16 p b ∧ 1 ≤ p.arg 0 1 ∧ p.arg 0 1 ≤ 63) :=
  ⟨⟨S (W (CO R) (P 0x10 63)), 0, _, P 0x10 63, 63, srv _ _ _ (by decide +kernel), by decide +kernel⟩,
   ⟨S (W (CO R) (P 0x11 63)), 0, _, P 0x11 63, srv _ _ _ (by decide +kernel), by decide +kernel⟩,
   ⟨S (W (CO R) (P 0x12 (63 + 256 ^ 2 * 1020 + 256 ^ 4 * 4))), 0, _, (P 0x12 (63 + 256 ^ 2 * 1020 + 256 ^ 4 * 4)), _,
      srv _ _ _ (by decide +kernel), ⟨by decide +kernel, by decide +kernel, by decide +kernel, rfl,
      by decide +kernel⟩⟩,
   ⟨S (W (CO R) (P 0x13 63)), 0, _, (P 0x13 63), srv _ _ _ (by decide +kernel), by decide +kernel⟩,
   ⟨S (W (CO R) (P 0x14 1)), 0, _, (P 0x14 1), srv _ _ _ (by decide +kernel), by decide +kernel⟩,
   ⟨S (W ((CO R).setFld (F.SILO_CTX_CFG_state 63) 2) (P 0x15 63)), 0, _, (P 0x15 63), srv _ _ _ (by decide +kernel),
      by decide +kernel⟩,
   ⟨S (W (CO R) (P 0x16 63)), 0, _, (P 0x16 63), srv _ _ _ (by decide +kernel), by decide +kernel⟩⟩

theorem wit_LimitPacketsComplete :
  (∃ (s : State) (now : Ft) (b : Block) (p : Pkt) (v : Nat), s.serves now 0x20 p b ∧ ¬ (p.onP4 = true ∧ p.arg 0 1 = 4
      ∧ 2 ≤ b.lend.cfg.n) ∧ 1 ≤ p.arg 0 1 ∧ p.arg 0 1 ≤ 4 ∧ v = clampN (if p.arg 0 1 = 1 then 1600 else 300000)
      (b.limTop (p.arg 0 1 - 1)) (p.arg 0x10 4)) ∧
  (∃ (s : State) (now : Ft) (b : Block) (p : Pkt) (v : Int), s.serves now 0x21 p b ∧ p.arg 0 1 ≤ 4 ∧ v = clampI
      (b.thermRange (p.arg 0 1)).1 (b.thermRange (p.arg 0 1)).2 (p.argI 0x10 2)) ∧
  (∃ (s : State) (now : Ft) (b : Block) (p : Pkt), s.serves now 0x22 p b) ∧
  (∃ (s : State) (now : Ft) (b c : Block) (p : Pkt), s.serves now 0x23 p b ∧ p.arg 0 1 ≠ 2 ∧ b.ceilingRequest (p.arg 0
      1) (p.arg 4 4) (b.requesterOf p.src) = (stOk, c)) ∧
  (∃ (s : State) (now : Ft) (b : Block) (p : Pkt), s.serves now 0x24 p b) ∧
  (∃ (s : State) (now : Ft) (b : Block) (p : Pkt) (n : Nat), s.serves now 0x30 p b ∧ p.arg 0 1 = n ∧ n < 64 ∧ p.arg 1
      1 ≤ 2) ∧
  (∃ (s : State) (now : Ft) (b : Block) (p : Pkt) (n v : Nat), s.serves now 0x31 p b ∧ p.arg 0 1 = n ∧ n < 64 ∧ v =
      clampN 800000 2200000 (p.arg 4 4)) ∧
  (∃ (s : State) (now : Ft) (b d : Block) (p : Pkt) (cl : Bool), s.serves now 0x32 p b ∧ b.writeParams p (p.arg 0x1C
      4) = some (d, cl) ∧ d.marginOk = true) ∧
  (∃ (s : State) (now : Ft) (b : Block) (p : Pkt), s.serves now 0x33 p b ∧ p.arg 0 1 < 64) ∧
  (∃ (s : State) (now : Ft) (b : Block) (p : Pkt), s.serves now 0x34 p b ∧ p.arg 0 2 ≤ 1023 ∧ b.isoTile (p.arg 0 2) =
      false ∧ (b.post (p.arg 0 2)).powered = true) :=
  ⟨⟨S (W (CO R) (P 0x20 (4 + 256 ^ 16 * 400000))), 0, _, P 0x20 (4 + 256 ^ 16 * 400000), _, srv _ _ _
      (by decide +kernel), ⟨by decide +kernel, by decide +kernel, by decide +kernel, rfl⟩⟩,
   ⟨S (W (CO R) (P 0x21 (4 + 256 ^ 16 * 1200))), 0, _, (P 0x21 (4 + 256 ^ 16 * 1200)), _, srv _ _ _
      (by decide +kernel), ⟨by decide +kernel, rfl⟩⟩,
   ⟨S (W (CO R) (P 0x22 0)), 0, _, (P 0x22 0), srv _ _ _ (by decide +kernel)⟩,
   ⟨S (W ((CO R).setFld F.LFC_LC_state 1) (P 0x23 (256 ^ 4 * 1600000))), 0, _, _, (P 0x23 (256 ^ 4 * 1600000)), srv _
      _ _ (by decide +kernel), ⟨by decide +kernel, Prod.ext (by decide +kernel) rfl⟩⟩,
   ⟨S (W (CO R) (P 0x24 0)), 0, _, (P 0x24 0), srv _ _ _ (by decide +kernel)⟩,
   ⟨S (W (CO R) (P 0x30 (63 + 256 * 2))), 0, _, (P 0x30 (63 + 256 * 2)), 63, srv _ _ _ (by decide +kernel),
      by decide +kernel⟩,
   ⟨S (W (CO R) (P 0x31 (63 + 256 ^ 4 * 3000000))), 0, _, (P 0x31 (63 + 256 ^ 4 * 3000000)), 63, _, srv _ _ _
      (by decide +kernel), ⟨by decide +kernel, by decide +kernel, rfl⟩⟩,
   ⟨S (W (CO R) (P 0x32 0)), 0, _, _, P 0x32 0, _, srv _ _ _ (by decide +kernel), ⟨rfl, by decide +kernel⟩⟩,
   ⟨S (W (CO R) (P 0x33 63)), 0, _, (P 0x33 63), srv _ _ _ (by decide +kernel), by decide +kernel⟩,
   ⟨S (W ((CO R).setPost 1023 on) (P 0x34 1023)), 0, _, (P 0x34 1023), srv _ _ _ (by decide +kernel),
      by decide +kernel⟩⟩

theorem wit_CalibrationPacketsComplete :
  (∃ (s : State) (b : Block) (e : TmeBank), s.ready b ∧ b.hiu.loading = some (.tme e)) ∧
  (∃ (s : State) (now : Ft) (b : Block) (p : Pkt), s.serves now 0x41 p b ∧ p.arg 0 1 ≤ 2 ∧ b.silo.loading = false ∧
      b.swapReady (p.arg 0 1) = true ∧ b.tick + 8 ≤ p.arg 8 8) ∧
  (∃ (s : State) (now : Ft) (b : Block) (p : Pkt), s.serves now 0x42 p b ∧ (winnowDoms (p.arg 0 1)).isEmpty = false ∧
      p.arg 1 1 = 0) ∧
  (∃ (s : State) (now : Ft) (b : Block) (p : Pkt) (k : Nat), s.serves now 0x43 p b ∧ k = (if bit (p.arg 0x1C 4) 5 then
      b.nextPublication else b.nextCycle0)) ∧
  (∃ (s : State) (now : Ft) (b : Block) (p : Pkt), s.serves now 0x44 p b ∧ p.arg 0 1 ≤ 71 ∧ p.hasRes = true) ∧
  (∃ (s : State) (now : Ft) (b : Block) (p : Pkt), s.serves now 0x45 p b ∧ p.arg 0 1 ≤ 1 ∧ p.arg 2 1 = 0 ∧ p.hasRes =
      true) ∧
  (∃ (s : State) (now : Ft) (b : Block) (p : Pkt) (v : Int), s.serves now 0x46 p b ∧ p.arg 0x1C 4 = 2 ∧ v = clampI 0
      960 (p.argI 2 2)) ∧
  (∃ (s : State) (now : Ft) (b : Block) (p : Pkt) (n : Nat), s.serves now 0x47 p b ∧ n = clampN 1 1120 (p.arg 2 2) ∧
      p.arg 0 2 + n ≤ 1120) :=
  ⟨⟨S ({ R with hiu := { HiuS.reset with loading := some (.tme ⟨0, 0, 0, 0, 0, []⟩) } }), _, _, rdy _
      (by decide +kernel), rfl⟩,
   ⟨S (W ((CO R).setFld F.TME_STATUS_inactive_valid 1) (P 0x41 (2 + 256 ^ 8 * 8))), 0, _, (P 0x41 (2 + 256 ^ 8 * 8)),
      srv _ _ _ (by decide +kernel), by decide +kernel⟩,
   ⟨S (W (CO R) (P 0x42 71)), 0, _, (P 0x42 71), srv _ _ _ (by decide +kernel), by decide +kernel⟩,
   ⟨S (W (CO R) (P 0x43 0)), 0, _, (P 0x43 0), _, srv _ _ _ (by decide +kernel), rfl⟩,
   ⟨S (W (CO R) (PR 0x44 71)), 0, _, (PR 0x44 71), srv _ _ _ (by decide +kernel), by decide +kernel⟩,
   ⟨S (W (CO R) (PR 0x45 1)), 0, _, (PR 0x45 1), srv _ _ _ (by decide +kernel), by decide +kernel⟩,
   ⟨S (W (CO R) (P 0x46 (256 ^ 0x1C * 2))), 0, _, (P 0x46 (256 ^ 0x1C * 2)), _, srv _ _ _ (by decide +kernel),
      ⟨by decide +kernel, rfl⟩⟩,
   ⟨S (W (CO R) (P 0x47 1119)), 0, _, P 0x47 1119, _, srv _ _ _ (by decide +kernel), ⟨rfl, by decide +kernel⟩⟩⟩

theorem wit_TelemetryPacketsComplete :
  (∃ (s : State) (now : Ft) (b : Block) (p : Pkt) (k v : Nat), s.serves now 0x50 p b ∧ p.arg 0 1 ≤ 3 ∧ p.arg 4 4 % 16
      = 0 ∧ p.arg 8 8 < 512 ∧ k = b.time.epoch + 1 ∧ v = clampN 16 1048576 (p.arg 4 4)) ∧
  (∃ (s : State) (now : Ft) (b : Block) (p : Pkt) (l : List Nat) (k : Nat), s.serves now 0x51 p b ∧ p.tiles = some l ∧
      p.arg 0 1 ≤ 1 ∧ k = b.time.epoch + 1) ∧
  (∃ (s : State) (now : Ft) (b : Block) (p : Pkt) (l : List Nat) (w k : Nat) (cl : Bool), s.serves now 0x52 p b ∧
      p.tiles = some l ∧ widthCode (p.arg 8 1) = some w ∧ p.arg 6 1 ≤ 1 ∧ p.arg 7 1 ≤ 5 ∧ p.arg 9 1 ≤ 1 ∧ cl = (decide
      (7 < p.arg 0xA 1) || p.tilesCl) ∧ k = b.time.epoch + 1) ∧
  (∃ (s : State) (now : Ft) (b : Block) (p : Pkt) (l : List Nat), s.serves now 0x53 p b ∧ p.arg 0 1 ≤ 4 ∧ p.hasRes =
      true ∧ l = b.ttu.sample.set (p.arg 0 1)) :=
  ⟨⟨S (W (CO R) (P 0x50 (3 + 256 ^ 4 * 32 + 256 ^ 8 * 511))), 0, _, (P 0x50 (3 + 256 ^ 4 * 32 + 256 ^ 8 * 511)), _, _,
      srv _ _ _ (by decide +kernel), ⟨by decide +kernel, by decide +kernel, by decide +kernel, rfl, rfl⟩⟩,
   ⟨S (W (CO R) (P 0x51 (1 + 256 ^ 2 * 1023 + 256 ^ 4 * 1))), 0, _, (P 0x51 (1 + 256 ^ 2 * 1023 + 256 ^ 4 * 1)), _, _,
      srv _ _ _ (by decide +kernel), ⟨rfl, by decide +kernel, rfl⟩⟩,
   ⟨S (W (CO R) (P 0x52 (256 ^ 2 * 1023 + 256 ^ 4 * 1 + 256 ^ 8 * 32 + 256 ^ 7 * 5 + 256 ^ 10 * 8))), 0, _, P 0x52
      (256 ^ 2 * 1023 + 256 ^ 4 * 1 + 256 ^ 8 * 32 + 256 ^ 7 * 5 + 256 ^ 10 * 8), _, _, _, _, srv _ _ _
      (by decide +kernel), ⟨rfl, rfl, by decide +kernel, by decide +kernel, by decide +kernel, rfl, rfl⟩⟩,
   ⟨S (W (CO R) (PR 0x53 4)), 0, _, (PR 0x53 4), _, srv _ _ _ (by decide +kernel), ⟨by decide +kernel,
      by decide +kernel, rfl⟩⟩⟩

theorem wit_FaultPacketsComplete :
  (∃ (s : State) (now : Ft) (b : Block) (p : Pkt), s.serves now 0x60 p b) ∧
  (∃ (s : State) (now : Ft) (b : Block) (p : Pkt) (c : Block), s.serves now 0x61 p b ∧ p.arg 0 1 < 26 ∧ p.arg 2 1 = 0
      ∧ p.arg 3 1 = 0 ∧ c = b.grpClr (p.arg 0 1) (p.arg 1 1)) ∧
  (∃ (s : State) (now : Ft) (b : Block) (p : Pkt) (c : Block), s.serves now 0x62 p b ∧ p.arg 0 1 < 26 ∧ sourceExists
      (p.arg 0 1) (p.arg 1 1) = true ∧ p.arg 2 1 < 5 ∧ sevFixed (p.arg 0 1) (p.arg 1 1) = false ∧ c = (b.setSev (p.arg
      0 1) (p.arg 1 1) (p.arg 2 1)).showFc) ∧
  (∃ (s : State) (now : Ft) (b : Block) (p : Pkt), s.serves now 0x63 p b ∧ p.arg 0x1C 4 = 1 ∧ p.arg 0 1 ≤ 4) ∧
  (∃ (s : State) (now : Ft) (b : Block) (p : Pkt) (u : Bool × Nat), s.serves now 0x64 p b ∧ b.flag
      F.FC_ISO_STATUS_busy = false ∧ p.unit = some u) ∧
  (∃ (s : State) (now : Ft) (b : Block) (p : Pkt) (t : Nat), s.serves now 0x65 p b ∧ b.flag F.FC_ISO_STATUS_busy =
      false ∧ p.unit = some (false, t)) ∧
  (∃ (s : State) (now : Ft) (b : Block) (p : Pkt), s.serves now 0x66 p b ∧ p.arg 0 1 < 26 ∧ sourceExists (p.arg 0 1)
      (p.arg 1 1) = true ∧ p.arg 2 2 < 4096 ∧ p.arg 4 1 ≤ 1) ∧
  (∃ (s : State) (now : Ft) (b : Block) (p : Pkt) (c : Block), s.serves now 0x67 p b ∧ b.fc.armed = none ∧ injNames
      (p.arg 0 1) (p.arg 1 1) (p.arg 2 2) = true ∧ c = ((((b.setFld F.FC_INJ_CTRL_det (p.arg 0 1)).setFld
      F.FC_INJ_CTRL_mode (p.arg 1 1)).setFld F.FC_INJ_CTRL_instance (p.arg 2 2)).setFld F.FC_INJ_CTRL_param (if p.arg
      0 1 = 1 ∧ p.arg 4 1 = 0 then 1 else p.arg 4 1)).injGo) ∧
  (∃ (s : State) (now : Ft) (b : Block) (p : Pkt) (c : Block), s.serves now 0x68 p b ∧ c = (b.writeMasked p
      riskParams).1) ∧
  (∃ (s : State) (now : Ft) (b : Block) (p : Pkt), s.serves now 0x69 p b) :=
  ⟨⟨S (W (CO R) (P 0x60 0)), 0, _, (P 0x60 0), srv _ _ _ (by decide +kernel)⟩,
   ⟨S (W (CO R) (P 0x61 25)), 0, _, (P 0x61 25), _, srv _ _ _ (by decide +kernel), ⟨by decide +kernel,
      by decide +kernel, by decide +kernel, rfl⟩⟩,
   ⟨S (W (CO R) (P 0x62 (9 + 256 ^ 2 * 4))), 0, _, (P 0x62 (9 + 256 ^ 2 * 4)), _, srv _ _ _ (by decide +kernel),
      ⟨by decide +kernel, by decide +kernel, by decide +kernel, by decide +kernel, rfl⟩⟩,
   ⟨S (W (CO R) (P 0x63 (4 + 256 ^ 0x1C))), 0, _, (P 0x63 (4 + 256 ^ 0x1C)), srv _ _ _ (by decide +kernel),
      by decide +kernel⟩,
   ⟨S (W (CO R) (P 0x64 (1 + 256 ^ 2 * 63))), 0, _, (P 0x64 (1 + 256 ^ 2 * 63)), _, srv _ _ _ (by decide +kernel),
      ⟨by decide +kernel, rfl⟩⟩,
   ⟨S (W (CO R) (P 0x65 (256 ^ 2 * 1023))), 0, _, (P 0x65 (256 ^ 2 * 1023)), 1023, srv _ _ _ (by decide +kernel),
      by decide +kernel⟩,
   ⟨S (W (CO R) (P 0x66 (9 + 256 ^ 2 * 4095 + 256 ^ 4))), 0, _, (P 0x66 (9 + 256 ^ 2 * 4095 + 256 ^ 4)), srv _ _ _
      (by decide +kernel), by decide +kernel⟩,
   ⟨S (W (CO R) (P 0x67 (9 + 256 * 2 + 256 ^ 2 * 4095))), 0, _, P 0x67 (9 + 256 * 2 + 256 ^ 2 * 4095), _, srv _ _ _
      (by decide +kernel), ⟨rfl, by decide +kernel, rfl⟩⟩,
   ⟨S (W (CO R) (P 0x68 0)), 0, _, (P 0x68 0), _, srv _ _ _ (by decide +kernel), rfl⟩,
   ⟨S (W (CO R) (P 0x69 0)), 0, _, (P 0x69 0), srv _ _ _ (by decide +kernel)⟩⟩

theorem wit_UpdatePacketsComplete :
  (∃ (s : State) (now : Ft) (b : Block) (p : Pkt),
    s.serves now 0x70 p b ∧ b.updState < 3 ∧ p.hasBuf = true ∧ p.arg 0 4 = 0 ∧ p.arg 4 1 ≤ 1 ∧ p.bufLen ≤ 524288) ∧
  (∃ (s : State) (now : Ft) (b : Block) (p : Pkt),
    s.serves now 0x71 p b ∧ activateRefused b p = none ∧
      (⟨b.region b.shadowReg⟩ : Image).reflMin ≤ b.fld F.FWC_IMAGE_INFO_refl_max ∧
      b.fld F.FWC_IMAGE_INFO_refl_max ≤ (⟨b.region b.shadowReg⟩ : Image).reflMax) ∧
  (∃ (s : State) (now : Ft) (b : Block) (p : Pkt),
    s.serves now 0x72 p b ∧ b.updState < 3) ∧
  (∃ (s : State) (now : Ft) (b : Block) (p : Pkt),
    s.serves now 0x73 p b ∧ b.flag F.FWC_IMAGE_INFO_shadow_valid = false) ∧
  (∃ (s : State) (now : Ft) (b : Block) (p : Pkt) (cl : Bool),
    s.serves now 0x80 p b ∧ b.groupBad p = false ∧ cl = (p.arg 2 1 != 0 && p.arg 0 2 == 0)) ∧
  (∃ (s : State) (now : Ft) (b : Block) (p : Pkt),
    s.serves now 0x81 p b ∧ p.arg 0x1C 4 = 3 ∧ p.arg 0 1 ≤ 1 ∧ p.arg 1 1 ≤ 1) ∧
  (∃ (s : State) (now : Ft) (b : Block) (p : Pkt),
    s.serves now 0x82 p b) :=
  ⟨⟨S (W (CO R) (PB 0x70 0 (List.replicate 64 0))), 0, _, (PB 0x70 0 (List.replicate 64 0)),
      srv _ _ _ (by decide +kernel), by decide +kernel⟩,
   ⟨S (W ((CO R).setFld F.FWC_UPD_STATUS_state 2) (P 0x71 0)), 0, _, (P 0x71 0), srv _ _ _ (by decide +kernel),
      by decide +kernel⟩,
   ⟨S (W (CO R) (P 0x72 0)), 0, _, (P 0x72 0), srv _ _ _ (by decide +kernel), by decide +kernel⟩,
   ⟨S (W ((CO R).setFld F.FWC_IMAGE_INFO_shadow_valid 0) (P 0x73 0)), 0, _, (P 0x73 0), srv _ _ _ (by decide +kernel),
      by decide +kernel⟩,
   ⟨S (W (CO R) (P 0x80 (256 ^ 8 * 268435456))), 0, _, (P 0x80 (256 ^ 8 * 268435456)), _,
      srv _ _ _ (by decide +kernel), ⟨by decide +kernel, rfl⟩⟩,
   ⟨S (W (CO R) (P 0x81 (1 + 256 + 256 ^ 0x1C * 3))), 0, _, (P 0x81 (1 + 256 + 256 ^ 0x1C * 3)),
      srv _ _ _ (by decide +kernel), by decide +kernel⟩,
   ⟨S (W (CO R) (P 0x82 0)), 0, _, (P 0x82 0), srv _ _ _ (by decide +kernel)⟩⟩

theorem wit_DiagnosisPacketsComplete :
  (∃ (s : State) (now : Ft) (b : Block) (p : Pkt) (d : Dump),
    s.serves now 0x90 p b ∧ p.arg 0 1 ≤ 1 ∧ b.fwc.dumps.getD (p.arg 0 1) none = some d) ∧
  (∃ (s : State) (now : Ft) (b : Block) (p : Pkt) (c : Block),
    s.serves now 0x91 p b ∧ c = b.granaryClr (p.arg 0 1 % 4)) ∧
  (∃ (s : State) (now : Ft) (b : Block) (p : Pkt),
    s.serves now 0x92 p b ∧ p.arg 0 1 ≤ 3 ∧ b.coreState (p.arg 0 1) = 0) ∧
  (∃ (s : State) (now : Ft) (b : Block) (p : Pkt),
    s.serves now 0x93 p b ∧ b.flag F.FC_ISO_STATUS_busy = false ∧ p.arg 0 2 ≤ 1023 ∧ b.mayReadmit (p.arg 0 2) = true) ∧
  (∃ (s : State) (now : Ft) (b : Block) (p : Pkt),
    s.serves now 0x94 p b ∧ b.now + 8192 ≤ p.arg 0 8 ∧ b.fld F.TTU_STOP_STATUS_state = 0 ∧ b.updState = 0) ∧
  (∃ (s : State) (now : Ft) (b : Block) (p : Pkt),
    s.serves now 0x95 p b ∧ p.hasRes = true ∧ (p.onP4 = true ∨ 81984 ≤ p.resLen)) ∧
  (∃ (s : State) (now : Ft) (b : Block) (p : Pkt),
    s.serves now 0xA0 p b) :=
  ⟨⟨S (W (CO { R with fwc := { FwcS.reset with dumps := [none, some ⟨0, 0, 0, 0, 1, 0, []⟩] } }) (P 0x90 1)), 0, _,
      (P 0x90 1), _, srv _ _ _ (by decide +kernel), ⟨by decide +kernel, rfl⟩⟩,
   ⟨S (W (CO R) (P 0x91 3)), 0, _, (P 0x91 3), _, srv _ _ _ (by decide +kernel), rfl⟩,
   ⟨S (W (CO R) (P 0x92 3)), 0, _, (P 0x92 3), srv _ _ _ (by decide +kernel), by decide +kernel⟩,
   ⟨S (W ((CO R).setFld (F.FC_ISO_TILE_map 31) (2 ^ 31)) (P 0x93 1023)), 0, _, (P 0x93 1023),
      srv _ _ _ (by decide +kernel), by decide +kernel⟩,
   ⟨S (W (CO R) (P 0x94 8192)), 0, _, (P 0x94 8192), srv _ _ _ (by decide +kernel), by decide +kernel⟩,
   ⟨S (W (CO R) (PR 0x95 0)), 0, _, (PR 0x95 0), srv _ _ _ (by decide +kernel), by decide +kernel⟩,
   ⟨S (W (CO R) (P 0xA0 0)), 0, _, (P 0xA0 0), srv _ _ _ (by decide +kernel)⟩⟩

theorem wit_TelemetryCommandsComplete :
  (∃ (s : State) (now : Ft) (b c : Block) (ring : Fin 4) (i : Nat), s.readyAt now b ∧ c = (if b.telDue ring.val (b.now
      / 1024) = true then b.telSwitch ring.val else b) ∧ c.telEnded ring.val c.tick = some i ∧ i * 1024 + 2048 ≤
      c.now) ∧
  (∃ (s : State) (b c : Block) (_die : Die) (t : Tile) (r : TraceRec) (rest : List TraceRec), s.ready b ∧ (b.post
      t.val).powered = true ∧ (b.post t.val).trace = r :: rest ∧ b.pnClear t.val 4 = true ∧ (b.post t.val).digs.any
      (fun x => decide (x.ft ≤ r.ft)) = false ∧ b.upFlits t.val 4 r.flits = some c) ∧
  (∃ (s : State) (b c : Block) (die : Die) (r : TraceRec) (rest : List Vc3), s.ready b ∧ (b.relay die.val).vc3 =
      .boundary r :: rest ∧ b.sbLows die.val 3 r.tile r.flits = some c) ∧
  (∃ (s : State) (b c : Block) (die : Die) (r : DigestRec) (rest : List Vc3), s.ready b ∧ (b.relay die.val).vc3 =
      .digest r :: rest ∧ b.sbLows die.val 3 r.tile r.flits = some c) ∧
  (∃ (s : State) (b : Block), s.ready b ∧ b.coreRuns 3 = true ∧ b.time.ticking = true ∧ b.now % 16777216 = 0) ∧
  (∃ (s : State) (b : Block), s.ready b ∧ b.fld F.TTU_STOP_STATUS_state = 0) ∧
  (∃ (s : State) (now : Ft) (b : Block) (_items : List CapItem), s.readyAt now b ∧ b.fld F.TTU_STOP_STATUS_state = 1 ∧
      b.fld F.TTU_STOP_FT_stop_ft ≤ b.now) :=
  ⟨⟨S (T 34816 { R with ttu := { TtuS.reset with tel := [(0, ⟨1, 16, 0, 0, [], [], [], none, none⟩)] } }), 0, _, _, 0,
      _, rdyAt _ (by decide +kernel), ⟨rfl, rfl, by decide +kernel⟩⟩,
   ⟨S (R.setPost 0 { on with trace := [TR] }), _, _, 0, 0, _, _, rdy _ (by decide +kernel), ⟨by decide +kernel, rfl,
      by decide +kernel, by decide +kernel, got (by decide +kernel)⟩⟩,
   ⟨S ((U R).setRelay 0 { RelayS.reset with vc3 := [.boundary TR] }), _, _, 0, _, _, rdy _ (by decide +kernel), ⟨rfl,
      got (by decide +kernel)⟩⟩,
   ⟨S ((U R).setRelay 0 { RelayS.reset with vc3 := [.digest ⟨0, 0, 0, 0, 0, 0, []⟩] }), _, _, 0, _, _, rdy _
      (by decide +kernel), ⟨rfl, got (by decide +kernel)⟩⟩,
   ⟨S (CO (T 16777216 R)), _, rdy _ (by decide +kernel), by decide +kernel⟩,
   ⟨S (R), _, rdy _ (by decide +kernel), by decide +kernel⟩,
   ⟨S (R.setFld F.TTU_STOP_STATUS_state 1), 0, _, [], rdyAt _ (by decide +kernel), by decide +kernel⟩⟩

theorem wit_ClockCommandsComplete :
  (∃ (s : State) (now : Ft) (b c d : Block) (m : Fin 3) (count : Nat), s.readyAt now b ∧ b.stim 6 m.val = none ∧ c =
      (b.setFldS (F.CTU_MON_dev m.val) ((count : Int) - 65536)).setFld (F.CTU_MON_stopped m.val) 0 ∧ d = (if m.val = 2
      then c.showAlt.setSat F.CTU_RING_ring_khz (count * 4000000 /
      65536) else c)) ∧
  (∃ (s : State) (now : Ft) (b : Block) (src : Fin 3), s.readyAt now b ∧ b.flag (F.CTU_MON_stopped src.val) = false) ∧
  (∃ (s : State) (now : Ft) (b : Block) (r : Nat), s.readyAt now b ∧ b.clk.ref = some r ∧ b.qualified r = true ∧
      b.srcEnabled r = true ∧ b.flag F.CTU_CLK_STATUS_pll_lock = false ∧ b.flag F.HUB_BOOT_STATUS_root_pll = false ∧
      b.rootCmd.1 = 2) ∧
  (∃ (s : State) (b : Block) (r : Nat), s.ready b ∧ b.bestRef = some r ∧ b.clk.ref = none) ∧
  (∃ (s : State) (b : Block) (island : Fin 14), s.ready b ∧ b.clk.stopped.contains island.val = true ∧ island.val ≠ 1
      ∧ island.val ≠ 2 ∧ (b.clk.stopped.filter (· != island.val)).isEmpty = false) ∧
  (∃ (s : State) (now : Ft) (b : Block) (node : Fin 13) (_die : Die), s.readyAt now b ∧ node.val ≠ 6 ∧ b.gateEn
      node.val = true ∧ b.gateInUse node.val = false) ∧
  (∃ (s : State) (now : Ft) (b : Block) (node : Fin 13) (_die : Die), s.readyAt now b ∧ node.val ≠ 6 ∧ b.gateInUse
      node.val = true) ∧
  (∃ (s : State) (now : Ft) (b : Block) (crossing : Fin 2048), s.readyAt now b ∧ cdcValid crossing.val 1 = true ∧
      cdcDest crossing.val = none ∧ b.stim 7 crossing.val = none) ∧
  (∃ (s : State) (now : Ft) (b : Block) (crossing : Fin 2048), s.readyAt now b ∧ cdcValid crossing.val 3 = true) :=
  ⟨⟨S R, 0, _, _, _, 2, 65536, rdyAt _ (by decide +kernel), by decide +kernel, rfl, rfl⟩,
   ⟨S (R), 0, _, 2, rdyAt _ (by decide +kernel), by decide +kernel⟩,
   ⟨S (({ R with clk := { ClkS.reset with ref := some 1 } } : Block).setFld F.CTU_CLK_STATUS_qualified 7), 0, _, _,
      rdyAt _ (by decide +kernel), ⟨rfl, by decide +kernel⟩⟩,
   ⟨S (R.setFld F.CTU_CLK_STATUS_qualified 7), _, 0, rdy _ (by decide +kernel), by decide +kernel⟩,
   ⟨S ({ R with clk := { ClkS.reset with stopped := [13, 0] } }), _, 13, rdy _ (by decide +kernel),
      by decide +kernel⟩,
   ⟨S (R.setFld F.CTU_GATE_EN_leaf_en 255), 0, _, 0, 0, rdyAt _ (by decide +kernel), by decide +kernel⟩,
   ⟨S (R), 0, _, 12, 0, rdyAt _ (by decide +kernel), by decide +kernel⟩,
   ⟨S (R), 0, _, 0x401, rdyAt _ (by decide +kernel), by decide +kernel⟩,
   ⟨S (R), 0, _, 0x04B, rdyAt _ (by decide +kernel), by decide +kernel⟩⟩

theorem wit_PowerCommandsComplete :
  (∃ (s : State) (now : Ft) (b : Block) (_by_ : Fin 3) (value : Fin 4), s.readyAt now b ∧ value.val ≠ 3 ∧ b.hiu.claims
      = [] ∧ b.power.phase = .rest) ∧
  (∃ (s : State) (now : Ft) (b : Block), s.readyAt now b ∧ b.power.phase = .drain ∧ ((List.range 63).any fun c =>
      decide (0 < sumN ((List.range 4).map fun d => b.busyTiles d (c + 1)))) = false ∧ ((List.range 4).any fun d =>
      !(b.slice d).gs || (b.slice d).grants.any b.outstanding) = false) ∧
  (∃ (s : State) (now : Ft) (b : Block), s.readyAt now b ∧ b.power.phase = .lower ∧ (List.range 64).all b.coreAtRest =
      true) ∧
  (∃ (s : State) (now : Ft) (b : Block), s.readyAt now b ∧ b.power.phase = .deep ∧ ((List.range 64).all fun n =>
      b.vstate n == Vs.off || b.vstate n == Vs.failed) = true) ∧
  (∃ (s : State) (now : Ft) (b : Block) (dom : CoreDom), s.readyAt now b ∧ b.power.toStart.contains dom.val = true ∧
      b.power.x.toNat + 1024 + dom.val * (b.fld F.HUB_PSTATE_CFG_stagger * 64) ≤ b.now ∧ b.vstate dom.val = Vs.off ∧
      b.isoDom dom.val = false ∧ b.linkUp (dieOfDom dom.val) = true ∧ b.fld F.LFC_LC_state ≠ 5) ∧
  (∃ (s : State) (now : Ft) (b : Block), s.readyAt now b ∧ b.power.phase = .wake ∧ b.power.toStart.isEmpty = true ∧
      (b.power.waking.all fun n => b.vstate n == Vs.run || b.vstate n == Vs.failed) = true) ∧
  (∃ (s : State) (now : Ft) (t : Nat) (b : Block), s.readyAt now b ∧ b.power.uncoreAt = some t ∧ b.timeState = 1 ∧
      b.flag F.HUB_BOOT_STATUS_image_started = true ∧ b.flag F.HUB_BOOT_STATUS_core_up = false ∧ b.power.phase = .rest
      ∧ b.fld F.HUB_PSTATE_STATUS_state = 0 ∧ b.power.toStart.isEmpty = true) :=
  ⟨⟨S (R), 0, _, 2, 2, rdyAt _ (by decide +kernel), by decide +kernel⟩,
   ⟨S (({ R with power := { PowerS.reset with phase := .drain } } : Block).forAll (List.range 4) fun b d => b.setSlice
      d { SliceS.reset with gs := true }), 0, _, rdyAt _ (by decide +kernel), by decide +kernel⟩,
   ⟨S ({ R with power := { PowerS.reset with phase := .lower } }), 0, _, rdyAt _ (by decide +kernel),
      by decide +kernel⟩,
   ⟨S ({ R with power := { PowerS.reset with phase := .deep } }), 0, _, rdyAt _ (by decide +kernel),
      by decide +kernel⟩,
   ⟨S (U (T 100000000 { R with power := { PowerS.reset with phase := .wake, toStart := [63] } })), 0, _, 63, rdyAt _
      (by decide +kernel), by decide +kernel⟩,
   ⟨S ({ R with power := { PowerS.reset with phase := .wake } }), 0, _, rdyAt _ (by decide +kernel),
      by decide +kernel⟩,
   ⟨S ((T 1024 { R with power := { PowerS.reset with uncoreAt := some 0 } }).setFld F.HUB_BOOT_STATUS_image_started
      1), 0, 0, _, rdyAt _ (by decide +kernel), by decide +kernel⟩⟩

theorem wit_MemoryAndFuseCommandsComplete :
  (∃ (s : State) (now : Ft) (b : Block) (sram : Fin 24) (addr : Nat) (_syn : Byte) (_copy : Bool), s.readyAt now b ∧
      addr < sramSize sram.val ∧ b.eccStim sram.val 0 = false) ∧
  (∃ (s : State) (now : Ft) (b c d : Block) (sram : Fin 24) (addr : Nat) (syn : Byte) (copy : Bool) (_who : Fin 4)
      (part : Nat), s.readyAt now b ∧ addr < sramSize sram.val ∧ c = b.eccFound sram.val addr syn.toNat (if copy then
      2 else 0) ∧ d = c.eccEngine sram.val part) ∧
  (∃ (s : State) (now : Ft) (b : Block) (sram : Fin 24) (addr : Nat) (_syn : Byte) (_part : Nat), s.readyAt now b ∧
      b.flag F.BTC_ECC_CFG_scrub_en = true ∧ addr < sramSize sram.val) ∧
  (∃ (s : State) (b : Block) (sram : Fin 4096) (page : Fin 512) (k : Nat), s.ready b ∧ b.flag F.BTC_RETIRE_STATUS_busy
      = false ∧ 4096 * page.val < sramSize sram.val ∧ (spares sram.val).any (fun k => b.flag (F.BTC_RETIRE_valid k) &&
      b.fld (F.BTC_RETIRE_page k) == page.val) = false ∧ (spares sram.val).find? (fun k => !b.flag (F.BTC_RETIRE_valid
      k)) = some k) ∧
  (∃ (s : State) (now : Ft) (b : Block) (sram page k : Nat), s.readyAt now b ∧ b.btc.copy = some (sram, page, k)) ∧
  (∃ (s : State) (now : Ft) (b : Block) (op : FuseOp) (c value : Nat) (_ok : Bool), s.readyAt now b ∧ b.lfc.op = some
      op ∧ op.kind = .ceiling c value) ∧
  (∃ (s : State) (now : Ft) (b : Block) (op : FuseOp) (_ok : Bool) (_readback : Fin 64), s.readyAt now b ∧ b.lfc.op =
      some op) ∧
  (∃ (s : State) (b : Block) (op : FuseOp) (target at_ : Nat) (ok : Bool), s.ready b ∧ b.lfc.due = some (op, ok, at_)
      ∧ op.kind = .transition target ∧ at_ < b.tick) :=
  ⟨⟨S (R), 0, _, 0, 8, 0, true, rdyAt _ (by decide +kernel), by decide +kernel⟩,
   ⟨S R, 0, _, _, _, 0, 8, 0, true, 0, 0, rdyAt _ (by decide +kernel), by decide +kernel, rfl, rfl⟩,
   ⟨S (R.setFld F.BTC_ECC_CFG_scrub_en 1), 0, _, 0, 8, 0, 0, rdyAt _ (by decide +kernel), by decide +kernel⟩,
   ⟨S (R), _, 0, 511, 0, rdy _ (by decide +kernel), by decide +kernel⟩,
   ⟨S ({ R with btc := { BtcS.reset with copy := some (0, 1, 2) } }), 0, _, 0, 1, 2, rdyAt _ (by decide +kernel),
      by decide +kernel⟩,
   ⟨S ({ R with lfc := { LfcS.reset with op := some ⟨.ceiling 0 5, 0, 0⟩ } }), 0, _, _, 0, 5, true, rdyAt _
      (by decide +kernel), ⟨rfl, rfl⟩⟩,
   ⟨S ({ R with lfc := { LfcS.reset with op := some ⟨.ceiling 0 5, 0, 0⟩ } }), 0, _, _, false, 63, rdyAt _
      (by decide +kernel), rfl⟩,
   ⟨S (T 2048 { R with lfc := { LfcS.reset with due := some (⟨.transition 5, 0, 0⟩, true, 1) } }), _, _, 5, _, _,
      rdy _ (by decide +kernel), ⟨rfl, rfl, by decide +kernel⟩⟩⟩

theorem wit_ManagementCommandsComplete :
  (∃ (s : State) (now : Ft) (b : Block), s.mgmtReady now b ∧ b.flag F.MPU_SMB_CFG_ara_en = true ∧ b.flag
      F.FC_SUMMARY_alert_pend = true) ∧
  (∃ (s : State) (now : Ft) (b : Block), s.mgmtReady now b ∧ b.mpu.tx.any Tx.isMsg = true ∧ b.mpu.arbLost < 15) ∧
  (∃ (s : State) (now : Ft) (b : Block) (_src eid : Byte) (_inst : Fin 32) (op : Fin 4), s.mgmtReady now b ∧ op.val <
      2 ∧ eid.toNat ≠ 0 ∧ eid.toNat ≠ 255) ∧
  (∃ (s : State) (now : Ft) (b : Block) (_src type : Byte) (_inst : Fin 32), s.mgmtReady now b ∧ type.toNat = 0x7F) ∧
  (∃ (s : State) (now : Ft) (b : Block) (_src selector : Byte) (_inst : Fin 32), s.mgmtReady now b ∧ selector.toNat =
      0) ∧
  (∃ (s : State) (now : Ft) (b : Block) (_src command : Byte) (_inst : Fin 32), s.mgmtReady now b ∧
      mctpServed.contains command.toNat = false) ∧
  (∃ (s : State) (now : Ft) (b : Block) (eid _seq : Byte) (entry payload : List Byte), s.mgmtReady now b ∧ b.eidSet =
      true ∧ entry.length = 64 ∧ payload.length ≤ 4096 ∧ (b.outstandingOf (64 + eid.toNat)).length < 4) ∧
  (∃ (s : State) (now : Ft) (b c : Block) (_eid _seq width syn : Byte) (off : Word) (act : Activity) (v : Nat),
      s.readyAt now b ∧ b.accepts = true ∧ b.eidSet = true ∧ accessShape off.toNat width.toNat = true ∧ (b.sampleFor
      off.toNat act).busRead 1 off.toNat (width.toNat == 8) syn.toNat = some (.ok v, c)) ∧
  (∃ (s : State) (now : Ft) (b c : Block) (_eid _seq width : Byte) (off : Word) (value : DWord), s.mgmtReady now b ∧
      b.eidSet = true ∧ accessShape off.toNat width.toNat = true ∧ b.busWrite 1 off.toNat (width.toNat == 8)
      value.toNat 0 = some (none, c)) ∧
  (∃ (s : State) (now : Ft) (b : Block) (_eid _seq : Byte) (_last : Bool) (data : List Byte), s.mgmtReady now b ∧
      b.eidSet = true ∧ 8 ≤ data.length ∧ data.length ≤ 4096 ∧ data.length % 8 = 0 ∧ b.flag F.FWC_STATUS_rom_wait =
      true ∧ b.fwc.bootPend = false ∧ b.flag F.MPU_STATUS_boot_busy = false) ∧
  (∃ (s : State) (now : Ft) (b : Block) (_eid _cmd _seq : Byte), s.mgmtReady now b ∧ b.eidSet = true) ∧
  (∃ (s : State) (now : Ft) (b : Block) (_reads : List (Option ConvRead)), s.mgmtReady now b ∧ b.now % 16777216 = 0)
      :=
  ⟨⟨S ((A.setFld F.MPU_SMB_CFG_ara_en 1).setFld F.FC_SUMMARY_alert_pend 1), 0, _, mgmt _ (by decide +kernel),
      by decide +kernel⟩,
   ⟨S ({ A with mpu := { MpuS.reset with tx := [.msg 1 []], arbLost := 14 } }), 0, _, mgmt _ (by decide +kernel),
      by decide +kernel⟩,
   ⟨S (A), 0, _, 1, 254, 31, 1, mgmt _ (by decide +kernel), by decide +kernel⟩,
   ⟨S (A), 0, _, 1, 0x7F, 31, mgmt _ (by decide +kernel), by decide +kernel⟩,
   ⟨S (A), 0, _, 1, 0, 31, mgmt _ (by decide +kernel), by decide +kernel⟩,
   ⟨S (A), 0, _, 1, 0, 31, mgmt _ (by decide +kernel), by decide +kernel⟩,
   ⟨S (E A), 0, _, 1, 0, List.replicate 64 0, [], mgmt _ (by decide +kernel), by decide +kernel⟩,
   ⟨S (E A), 0, _, _, 1, 0, 8, 0, 0x2000, ⟨[], [], []⟩, _, rdyAt _ (by decide +kernel), ⟨by decide +kernel,
      by decide +kernel, by decide +kernel, rfl⟩⟩,
   ⟨S (E A), 0, _, _, 1, 0, 4, 0x1010, 0, mgmt _ (by decide +kernel), ⟨by decide +kernel, by decide +kernel, rfl⟩⟩,
   ⟨S ((E A).setFld F.FWC_STATUS_rom_wait 1), 0, _, 1, 0, true, List.replicate 8 0, mgmt _ (by decide +kernel),
      by decide +kernel⟩,
   ⟨S (E A), 0, _, 1, 0, 0, mgmt _ (by decide +kernel), by decide +kernel⟩,
   ⟨S (A), 0, _, [], mgmt _ (by decide +kernel), by decide +kernel⟩⟩

theorem wit_TapCommandsComplete :
  (∃ (s : State) (now : Ft) (b c : Block) (_zero : Bool), s.readyAt now b ∧ c = b.tap 0x10 0) ∧
  (∃ (s : State) (now : Ft) (b : Block) (_unrep : BitVec 16) (_rows _cols : Nat), s.readyAt now b ∧ b.access 2 = true)
      ∧
  (∃ (s : State) (now : Ft) (b : Block) (entry : Word) (key : Option (BitVec 4 × List Byte)) (r : Nat × Block),
      s.readyAt now b ∧ b.access 3 = true ∧ r =
      (match key with
        | some (slot, hash) => (b.tap 0x12 0).keyRequest slot.toNat hash
        | none => (b.tap 0x12 0).repairRequest entry.toNat)) ∧
  (∃ (s : State) (now : Ft) (b : Block) (_c : Byte) (_value : Word), s.readyAt now b ∧ b.access 7 = true) ∧
  (∃ (s : State) (now : Ft) (b : Block) (_op : Byte) (_record : List Byte), s.readyAt now b ∧ b.access 0 = true) ∧
  (∃ (s : State) (now : Ft) (b : Block) (_off : Fin 16777216) (_write _wide : Bool) (_data : DWord) (_syn : Byte)
      (_act : Activity), s.readyAt now b ∧ b.access 4 = true) ∧
  (∃ (s : State) (now : Ft) (b : Block), s.readyAt now b ∧ b.access 2 = false ∧ b.access 3 = false ∧ b.access 7 =
      false ∧ b.access 0 = false ∧ b.access 4 = false) :=
  ⟨⟨S (R.setFld F.LFC_ACCESS_access 255), 0, _, _, true, rdyAt _ (by decide +kernel), rfl⟩,
   ⟨S (R.setFld F.LFC_ACCESS_access 255), 0, _, 0, 0, 0, rdyAt _ (by decide +kernel), by decide +kernel⟩,
   ⟨S (R.setFld F.LFC_ACCESS_access 255), 0, _, 0, none, _, rdyAt _ (by decide +kernel), by decide +kernel, rfl⟩,
   ⟨S (R.setFld F.LFC_ACCESS_access 255), 0, _, 0, 0, rdyAt _ (by decide +kernel), by decide +kernel⟩,
   ⟨S (R.setFld F.LFC_ACCESS_access 255), 0, _, 0, [], rdyAt _ (by decide +kernel), by decide +kernel⟩,
   ⟨S (R.setFld F.LFC_ACCESS_access 255), 0, _, 0, false, false, 0, 0, ⟨[], [], []⟩, rdyAt _ (by decide +kernel),
      by decide +kernel⟩,
   ⟨S (R.setFld F.LFC_ACCESS_access 0), 0, _, rdyAt _ (by decide +kernel), by decide +kernel⟩⟩

/-! A signature check is the outside world's (Config): of a clause that names one, every other condition is met, and the
clause is met by its answer. -/

/-- A leakage table of zeros in the envelope of a bundle. -/
def bundle : List Byte :=
  leBytes 1320 (0x44425651 + 256 ^ 4 * 1 + 256 ^ 6 * 0x21 + 256 ^ 8 * 1064 + 256 ^ 0xC * 3 + 256 ^ 0x10 * (R.reg 4).toNat +
    256 ^ 0x14 * (R.reg 8).toNat + 256 ^ 0xA0 * 1)
def BU : Block := (CO R).setFld F.LFC_KEYS_bnd_prog 15
def bundleP : Pkt := PB 0x40 0 bundle

theorem wit_bundleLoad (h1 : Config.sha384 ((bundleP.buf.drop 0x30).take 97) = BU.keyHash 4)
    (h2 : Config.ecdsaVerify ((bundleP.buf.drop 0x30).take 97) (bundleP.buf.take 1224)
      ((bundleP.buf.drop 1224).take 96) = true) :
    ∃ (s : State) (now : Ft) (b : Block) (p : Pkt), s.serves now 0x40 p b ∧ b.updState = 0 ∧ p.hasBuf = true ∧
      b.envCheck p.buf = stOk ∧ ((b.crypto p.buf).bundleStart p.buf).1 = stOk := by
  refine ⟨S (W BU bundleP), 0, _, bundleP, srv _ _ _ (by decide +kernel), by decide +kernel, by decide +kernel, ?_,
    by decide +kernel⟩
  have hn : 0xA0 + (envLen bundleP.buf + 7) / 8 * 8 = 1224 := by decide +kernel
  have hk : 4 + rdAt bundleP.buf 0x20 1 = 4 := by decide +kernel
  unfold Block.envCheck
  simp only [hn, hk]
  rw [if_neg (by decide +kernel), if_neg (by decide +kernel), if_neg (by decide +kernel), if_neg, if_neg]
  · rintro (h | h)
    · exact absurd h (by decide +kernel)
    · simp [h2] at h
  · exact fun h => h h1

/-- An image of one byte. -/
def image : List Byte :=
  leBytes 296 (0x4D495651 + 256 ^ 4 * 1 + 256 ^ 8 * 1 + 256 ^ 0xC * 3)
def IM : Block :=
  ((CO { R with fwc := { FwcS.reset with lastChunk := true, imgB := image } }).setFld F.FWC_UPD_STATUS_state 1).setFld
    F.LFC_KEYS_img_prog 15

theorem wit_imageAuthenticated (h1 : Config.sha384 (⟨image⟩ : Image).pubkey = IM.keyHash 0)
    (h2 : Config.ecdsaVerify (⟨image⟩ : Image).pubkey (image.take (⟨image⟩ : Image).signed) (⟨image⟩ : Image).sig = true) :
    ∃ (s : State) (now : Ft) (b : Block), s.readyAt now b ∧ b.updState = 1 ∧ b.fwc.lastChunk = true ∧ b.supRuns = true ∧
      b.imageCheck ⟨b.region b.shadowReg⟩ = stOk := by
  refine ⟨S IM, 0, _, rdyAt _ (by decide +kernel), by decide +kernel, by decide +kernel, by decide +kernel, ?_⟩
  have hr : IM.region IM.shadowReg = image := by decide +kernel
  have hk : (⟨image⟩ : Image).key = 0 := by decide +kernel
  show IM.imageCheck ⟨IM.region IM.shadowReg⟩ = stOk
  rw [hr]
  unfold Block.imageCheck
  simp only [hk]
  rw [if_neg (by decide +kernel), if_neg (by decide +kernel), if_neg, if_neg, if_neg (by decide +kernel),
    if_neg (by decide +kernel)]
  · rintro (h | h)
    · exact absurd h (by decide +kernel)
    · simp [h2] at h
  · exact fun h => h h1

theorem wit_lcTransition : ∃ (s : State) (now : Ft) (b c : Block) (p : Pkt), s.serves now 0xA1 p b ∧
    b.transitionRequest (p.arg 0 1) p.buf (b.requesterOf p.src) = (stOk, c) :=
  ⟨S (W (CO R) (P 0xA1 1)), 0, _, _, P 0xA1 1, srv _ _ _ (by decide +kernel), Prod.ext (by decide +kernel) rfl⟩

theorem wit_svnRaise : ∃ (s : State) (now : Ft) (b c : Block) (p : Pkt), s.serves now 0xA3 p b ∧
    b.raiseRequest (p.arg 0 1) (b.requesterOf p.src) = (stOk, c) :=
  ⟨S (W ((CO R).setFld F.FWC_IMAGE_INFO_svn 63) (P 0xA3 63)), 0, _, _, P 0xA3 63, srv _ _ _ (by decide +kernel),
    Prod.ext (by decide +kernel) rfl⟩

/-- A signed request to revoke bundle key 1. -/
def record : List Byte :=
  leBytes 256 (0x52415651 + 256 ^ 4 * 1 + 256 ^ 6 * 2 + 256 ^ 7 * 0x11)
def RV : Block := ((CO R).setFld F.LFC_KEYS_bnd_prog 15).setFld F.LFC_KEYS_img_prog 15
def recordP : Pkt := PB 0xA2 (1 + 256) record
def RB : Block := { W RV recordP with hiu := { RV.hiu with accepted := [] } }

theorem auth_ok (b : Block) (r : List Byte)
    (c1 : r.length = 256 ∧ rdAt r 0 4 = 0x52415651 ∧ rdAt r 4 2 = 1 ∧ zeroAt r 0x22 14 = true ∧ zeroAt r 0x91 15 = true)
    (c2 : rdAt r 6 1 = 2 ∧ rdAt r 7 1 = 17 ∧ rdAt r 8 8 = b.fld F.LFC_SERIAL_serial ∧
      rdAt r 0x20 1 = b.fld F.LFC_LC_transitions ∧ b.scanEn = false ∧ b.lcState ≠ 5)
    (c3 : rdAt r 0x10 16 =
      (List.range 4).foldl (fun n k => n + b.fld (F.LFC_AUTH_NONCE_nonce k) <<< (32 * k)) 0)
    (c4 : rdAt r 0x21 1 = 0 ∧ b.keyGood 0 = true) (h1 : Config.sha384 ((r.drop 0x30).take 97) = b.keyHash 0)
    (h2 : Config.ecdsaVerify ((r.drop 0x30).take 97) (r.take 0xA0) ((r.drop 0xA0).take 96) = true) :
    b.authStatus r 2 17 = stOk := by
  obtain ⟨a1, a2, a3, a4, a5⟩ := c1
  obtain ⟨b1, b2, b3, b4, b5, b6⟩ := c2
  obtain ⟨d1, d2⟩ := c4
  unfold Block.authStatus
  simp only [a1, a2, a3, a4, a5, b1, b2, b3, b4, b5, b6, c3, d1, d2, h1, h2, ne_eq, not_true_eq_false, or_self,
    Bool.not_true, Bool.false_eq_true, if_false, Nat.not_le.mpr (by decide : 0 < 4)]

theorem revoke_ok (b : Block) (r : List Byte) (req : Nat) (h : b.authStatus r 2 17 = stOk) (hk : b.keyGood 5 = true)
    (hr : b.lfc.revRecs < 8) (hf : b.fuseBusy = false) : (b.revokeRequest 1 1 r req).1 = stOk := by
  have h8 : ¬ 8 ≤ b.lfc.revRecs := by omega
  simp [Block.revokeRequest, Block.authCheck, Block.fuseRequest, h, hk, h8, hf]

theorem wit_keyRevoke (h1 : Config.sha384 ((recordP.buf.drop 0x30).take 97) = RB.keyHash 0)
    (h2 : Config.ecdsaVerify ((recordP.buf.drop 0x30).take 97) (recordP.buf.take 0xA0)
      ((recordP.buf.drop 0xA0).take 96) = true) :
    ∃ (s : State) (now : Ft) (b c : Block) (p : Pkt), s.serves now 0xA2 p b ∧
      b.revokeRequest (p.arg 0 1) (p.arg 1 1) p.buf (b.requesterOf p.src) = (stOk, c) := by
  have hs : RB.authStatus recordP.buf 2 17 = stOk :=
    auth_ok _ _ (by decide +kernel) (by decide +kernel) (by decide +kernel) (by decide +kernel) h1 h2
  have h := revoke_ok RB recordP.buf (RB.requesterOf recordP.src) hs (by decide +kernel) (by decide +kernel)
    (by decide +kernel)
  refine ⟨S (W RV recordP), 0, RB, (RB.revokeRequest 1 1 recordP.buf (RB.requesterOf recordP.src)).2, recordP,
    srv _ _ _ (by decide +kernel), ?_⟩
  rw [show recordP.arg 0 1 = 1 by decide +kernel, show recordP.arg 1 1 = 1 by decide +kernel]
  generalize RB.revokeRequest 1 1 recordP.buf (RB.requesterOf recordP.src) = x at h ⊢
  exact Prod.ext h rfl

/-! ## The statements on the whole machine and on figures: their hypotheses are met -/

theorem wit_FieldsKeepTheirPlaces :
    F.FC_FIRST_group.lo + F.FC_FIRST_group.width ≤ 64 ∧ F.CTU_FT_STATUS_state.lo + F.CTU_FT_STATUS_state.width ≤ 64 ∧
    F.FC_FIRST_group.off ≠ F.CTU_FT_STATUS_state.off := by decide +kernel

theorem wit_CountersSaturateOrWrap :
    F.FC_FIRST_group.lo + F.FC_FIRST_group.width ≤ 64 ∧ 0 < F.FC_FIRST_group.width := by decide +kernel

theorem wit_FabricTimeNeverGoesBack :
    (T 5 R).timeState ≠ 0 ∧ (T 5 R).time.ticking = true ∧ R.timeState = 0 ∧ (R.setFld F.CTU_FT_STATUS_state 1).timeState ≠ 0 ∧
    (R.setFld F.CTU_FT_STATUS_state 1).time.ticking = false := by decide +kernel

/-- The oldest value that still comes back, and the receiver's own. -/
theorem wit_ShortStampsExpand : 1 < 2 ^ 8 ∧ 1 ≤ 257 ∧ (2 ≤ 257 ∧ 257 ≤ 2 + (2 ^ 8 - 1)) ∧ expandStamp 8 257 2 = 2 ∧
    expandStamp 8 257 1 = 257 := by decide

theorem wit_RegressorsKeepTheirPrecision : regCode 4095 = 4095 ∧ regCode 134184960 = 134184960 := by decide

/-- 175 before and 80 after. -/
theorem wit_GrantWindowsExpand : 200 - 175 < 256 ∧ 25 ≤ 200 + 80 ∧ expandWin 200 25 = 25 ∧ expandWin 200 24 = 280 := by
  decide

theorem wit_ReferencesSlewTowardTheTarget : (0 ≤ 65536 ∧ moveRef 0 65536 1000 = 32768) ∧
    moveRef 65536 0 1000 = 32768 ∧ moveRef 40000 30000 1000 = 30000 := by decide

theorem wit_GrantsStayWithinTheSpare : grantClaims [(1, 3000), (4, 9500)] 8000 = [(1, 3000), (4, 5000)] := by decide

theorem wit_DelegationsSumToTheTotal : 0 < sumN [3, 0, 4, 0] ∧ splitBy 10 [3, 0, 4, 0] = [4, 0, 6, 0] ∧
    sumN ([0, 0] : List Nat) = 0 := by decide

/-- Each bound at its last value. -/
theorem wit_SheafWordsHoldTheirFields : (3 < 4 ∧ 63 < 64 ∧ 2047 < 2048 ∧ 7 < 8 ∧ 31 < 32 ∧ 15 < 16 ∧ 127 < 128 ∧
    1023 < 1024) ∧ ∃ m : Meas, m.v16 < 65536 ∧ m.i16 < 65536 ∧ m.phasesOn < 8 ∧ m.state < 8 ∧ m.tick ≤ 255 ∧
      255 ≤ m.tick + 255 :=
  ⟨by decide, ⟨0, 65535, 65535, 7, 7, true, false, false, false⟩, by decide⟩

theorem wit_RelaysMergeOneSheafATile : (([] : List FifoE).map (·.tile)).Nodup := by decide

theorem wit_LendingMessagesReadBack :
    let a : Block := T 134217728 { R with lend := { LendS.reset with cfg := ⟨7, 1, 2, 0, [], []⟩ } }
    let b : Block := LE 134217728 { LendS.reset with claims := [(1, 0)] }
    (a.lend.cfg.group < 65536 ∧ a.lend.cfg.self < 256 ∧ b.lend.cfg.group = a.lend.cfg.group ∧
      a.lend.cfg.self < b.lend.cfg.n ∧ b.interval = a.interval ∧ b.timeState = 1) ∧
    (255 = (if 1 = 1 then 255 else b.lend.cfg.self) ∧ 0 = (if 3 = 1 then 255 else b.lend.cfg.self)) ∧
    (b.lend.claims.any fun (x : Nat × Nat) => x.1 == a.lend.cfg.self) = true ∧ b.lg.adj ≤ 0 := by decide +kernel

/-- FT in its two words; the second clause's block is the one the first leaves. -/
theorem wit_HighWordsComeFromTheLatch : ∃ (req off : Nat) (row : RegRow) (c : Block), off + 4 < 0x600000 ∧ row.wide = true ∧
    findReg off = some ⟨row, off, false⟩ ∧ c.latchOf req = (R.readWindow req off false).2.latchOf req :=
  ⟨0, 0x2000, ((findReg 0x2000).map RegHit.row).getD ⟨0, [], false, []⟩, (R.readWindow 0 0x2000 false).2, by decide +kernel,
    by decide +kernel, by decide +kernel, rfl⟩

/-- A register whose low word is held, and one whose write is ignored. -/
theorem wit_LowWordsAreHeld : ∀ w : Bool, ∃ (off : Nat) (row : RegRow), off + 4 < 0x600000 ∧ row.wide = true ∧
    row.writable = w ∧ findReg off = some ⟨row, off, false⟩ ∧ findReg (off + 4) = some ⟨row, off, true⟩ ∧ 5 < 2 ^ 32 ∧
    R.heldOf 0 = none := by
  intro w
  cases w
  · exact ⟨0x2000, ((findReg 0x2000).map RegHit.row).getD ⟨0, [], false, []⟩, by decide +kernel⟩
  · exact ⟨0x3080, ((findReg 0x3080).map RegHit.row).getD ⟨0, [], false, []⟩, by decide +kernel⟩

theorem wit_ReservedOffsetsReadZero : findReg 0x1FFC = none ∧ R.unreachable 0x1FFC = false := by decide +kernel

theorem wit_CommandsKeepQueueAndRegion : ∃ s t : State, exec .powerOnReset s = .next t ∧ writesRegion .powerOnReset = false :=
  ⟨S R, _, rfl, rfl⟩

/-- A completed packet of ring 0, with a result buffer at 0x1000, goes to ring 64: the buffer, then the entry in two
writes. -/
def CW : Block := RI (CO { R with hiu := { R.hiu with jobs := [⟨PR 0 (256 ^ 0x28 * 4096), .none, 0, 0, false, 0, 0,
  some ⟨0, 0, [], [9]⟩⟩] } }) 64

theorem wit_CompletionsWriteTheirBytesAlone : (S CW).block.rst.groups = false ∧ (S CW).block.frozen = false ∧
    (∃ t, exec (.completionWrite (some 64) false 0) (S CW) = .next t) ∧
    (((S CW).block.advance 0).completionWrite (some 64) false).2.map (fun w => (w.1, w.2.length)) =
      [(4096, 1), (8, 56), (0, 8)] :=
  ⟨by decide +kernel, by decide +kernel, ⟨_, rfl⟩, by decide +kernel⟩

theorem wit_NothingActsInReset : (S { R with rst := { R.rst with groups := true } }).block.rst.groups = true ∧
    actsInReset (.qvSoft 0) = false := ⟨rfl, rfl⟩

theorem wit_NothingFrozenActsAfterTheCut :
    (S (R.setFld F.TTU_STOP_STATUS_state 2)).block.frozen = true ∧ actsAfterCut (.qvSoft 0) = false :=
  ⟨by decide +kernel, rfl⟩

theorem wit_StepKeepsTheInvariant : State.reset.Inv ∧ ∃ t, step State.reset = .next t := ⟨by unfold State.Inv; decide +kernel, _, rfl⟩

/-! ## Ill-formed commands -/

theorem test_tickBoundary_ill : (Instr.tickBoundary [[], [], [], []]).wellFormed = false := by decide
theorem test_tickBoundary_dies : (Instr.tickBoundary (List.replicate 3 (List.replicate 64 none))).wellFormed = false := by
  decide
theorem test_epochBoundary_ill : (Instr.epochBoundary [true, true, true]).wellFormed = false := by decide
theorem test_thermalStepBoundary_ill : (Instr.thermalStepBoundary (List.replicate 23 (none, none))).wellFormed = false := by
  decide
theorem test_postTickLatch_ill : (Instr.postTickLatch 0 ⟨List.replicate 31 0, [], []⟩ none).wellFormed = false := by decide
theorem test_commandLaunch_ill : (Instr.commandLaunch 0 0 ⟨List.replicate 33 0, [], []⟩ false 0).wellFormed = false := by decide
theorem test_commandCompletion_ill : (Instr.commandCompletion 0 ⟨[], [], []⟩ false 0).wellFormed = false := by decide
theorem test_weightPublication_ill : (Instr.weightPublication 0 [] 0).wellFormed = false := by decide
theorem test_pwmPeriod_ill : (Instr.pwmPeriod 0 (0, 0) [] 0).wellFormed = false := by decide
theorem test_bistComplete_ill : (Instr.bistComplete [0, 0, 0, 0] 0 0 0).wellFormed = false := by decide
theorem test_packetFetch_ill : (Instr.packetFetch 0 (some []) none 0).wellFormed = false := by decide
theorem test_packet_ill : (Instr.packet 0 0 [] [] 0).wellFormed = false := by decide
theorem test_pmbusPoll_ill : (Instr.pmbusPoll [] 0).wellFormed = false := by decide
theorem test_pmbAlert_ill : (Instr.pmbAlert [] 0).wellFormed = false := by decide
theorem test_tickBoundary_ok : (Instr.tickBoundary (List.replicate 4 (List.replicate 64 none))).wellFormed = true := by decide

/-! ## Figures of the manual's worked examples -/

/-- The Sheaf of tile t0337 (03_activity_sensing.md, worked example). -/
theorem test_sheaf_word : sheafWord 0x151 ⟨0x59CE8B13, 579, 1448, 0, 2048, 445, 0, false, false, false, false, false⟩ =
    0x5444C090ED06F400 := by decide +kernel

/-- The four ticks about the L2 crossing (06_limits_and_budgets.md, worked example). -/
theorem test_rho : [(1299950, 1500000), (1299974, 1500000), (1299998, 1500000), (1299998, 1180000)].map
    (fun (x : Nat × Nat) => rhoAvg (x.1 * 8192) 1300000 x.2 0) = [14375, 16243, 18669, 14686] := by decide +kernel

/-- Output, corr16 and the two readings of domain C21 and tile t0337 (04_power_estimation.md, worked example). -/
theorem test_estimate : (accum (-300) 0 ([5, 9, -4, 7, 6, 3, -8, 10, 2, -5, 8, 4, 7, 6, -3, 5].zip
    [-2, 31, 12, 0, 47, -1, 8, 22, 5, 0, 17, 3, 40, -3, 9, 14])).1 = 819 ∧ mwOf 209214 = 12769 ∧ mwOf 12581 = 767 :=
      by decide +kernel

/-- Context 1's credit over dies 0 and 1 (07_launch_admission.md, worked example). -/
theorem test_split : splitBy 7549760 [4700000, 3100000] = [4549215, 3000545] := by decide +kernel

/-- The second ramp of the worked example of 07_launch_admission.md slips by two windows. -/
theorem test_calendar : ((List.range 16).find? fun i => (SiloDom.reset.addRamp 0xB39D162E7 [80, 120, 64, 40, 0, 0, 0, 0]).fits
    (0xB39D162E7 + i) 128 [16, 24, 24, 16, 8, 0, 0, 0]) = some 2 := by decide +kernel

/-- A tightening cut short: 532 periods down, then 133 up, and the 134th stops at the target (09_regulator_control.md,
worked example). -/
theorem test_slew : (List.range 532).foldl (fun r _ => moveRef r 2908160 5) 3072000 = 2984752 ∧
    (List.range 133).foldl (fun r _ => moveRef r 3072000 20) 2984752 = 3071867 ∧
    moveRef 3071867 3072000 20 = 3072000 := by decide +kernel

/-- A flit that carries trace record bits from tile t0337, the third of its group, and returns five credits of VC2
(Table 01-8). -/
theorem test_sbHeader : sbHeader 3 0x30 2 5 0x151 2 = 0xF0852A28 := by decide +kernel

/-- A Post network flit on PN2 of the Post at position 1, which returns one credit of PN0 and asks for a resend
(Table 03-4). -/
theorem test_chHeader : chHeader 2 1 1 0 1 true = 0x411060 := by decide +kernel

end Sys2Proof.Tests
end

section
/-! SUPPORT. What a counter field reads as after it saturates or wraps (R13), and the statement about them. -/
namespace Sys2Proof.Machine

/-- A value saturated into `w` bits fits them. -/
theorem satU_mod (w n : Nat) : satU w n % 2 ^ w = satU w n := by
  have hpos : 0 < 2 ^ w := Nat.two_pow_pos w
  have hlt : satU w n < 2 ^ w := by unfold satU; omega
  exact Nat.mod_eq_of_lt hlt

/-- The signed bounds as powers of the integers: below the bottom, above the top, or within. -/
theorem satS_eq (w : Nat) (v : Int) : satS w v =
    if v < -(2 : Int) ^ (w - 1) then -(2 : Int) ^ (w - 1)
    else if (2 : Int) ^ (w - 1) - 1 < v then (2 : Int) ^ (w - 1) - 1 else v := by
  have hpos : 0 < (2 : Int) ^ (w - 1) := Int.pow_pos (by decide)
  unfold satS
  have hcast : ((2 ^ (w - 1) : Nat) : Int) = (2 : Int) ^ (w - 1) := Int.natCast_pow 2 (w - 1)
  rw [hcast]
  generalize (2 : Int) ^ (w - 1) = m at *
  split
  · omega
  · split <;> omega

/-- A signed value saturated into `w` bits survives its encoding. -/
theorem toSigned_ofSigned_satS (w : Nat) (v : Int) (hw : 0 < w) : toSigned w (ofSigned w (satS w v)) = satS w v := by
  have hpos : 0 < 2 ^ (w - 1) := Nat.two_pow_pos _
  apply toSigned_ofSigned w _ hw <;> unfold satS <;> omega

/-- The signed reading looks at the low `w` bits alone. -/
theorem toSigned_mod (w x : Nat) : toSigned w (x % 2 ^ w) = toSigned w x := by
  unfold toSigned; rw [Nat.mod_mod]

section
variable (s : Block) (f : Fld) (n : Nat) (hf : f.lo + f.width ≤ 64)
include hf

/-- A saturating write reads back saturated. -/
theorem Block.fld_setSat : (s.setSat f n).fld f = satU f.width n := by
  rw [Block.setSat, Block.fld_setFld s f _ hf, satU_mod]

/-- A saturating counter stops at its top. -/
theorem Block.fld_incSat : (s.incSat f n).fld f = min (s.fld f + n) (2 ^ f.width - 1) :=
  Block.fld_setSat s f _ hf

/-- A free-running counter wraps modulo its width. -/
theorem Block.fld_incWrap : (s.incWrap f n).fld f = (s.fld f + n) % 2 ^ f.width :=
  Block.fld_setFld s f _ hf

/-- A signed saturating write reads back saturated. -/
theorem Block.fldI_setFldS (v : Int) (hw : 0 < f.width) : (s.setFldS f v).fldI f = satS f.width v := by
  rw [Block.fldI, Block.setFldS, Block.fld_setFld s f _ hf, toSigned_mod, toSigned_ofSigned_satS _ _ hw]

end

/-- Settles O41: each kind of counter field reads back as its own rule of R13 says. -/
theorem countersSaturateOrWrap : Obligations.CountersSaturateOrWrap := by
  unfold Obligations.CountersSaturateOrWrap
  intro b f n hf
  refine ⟨b.fld_incSat f n hf, b.fld_incWrap f n hf, fun v hw => ?_⟩
  rw [b.fldI_setFldS f hf v hw, satS_eq]

end Sys2Proof.Machine
end

section
/-! SUPPORT. The latches of the high words (R23): what a read of the window returns and latches. -/
namespace Sys2Proof.Machine

section
variable (s : Block) (req other v : Nat) (l : Option (Nat × Nat))

@[simp] theorem Block.latchOf_setLatch_same : (s.setLatch req l).latchOf req = l :=
  Tab.get_set_same _ _ _ _

/-- Each requester has a latch of its own. -/
theorem Block.latchOf_setLatch_ne (h : other ≠ req) : (s.setLatch req l).latchOf other = s.latchOf other :=
  Tab.get_set_ne _ _ _ _ _ h.symm

@[simp] theorem Block.latchOf_setRdata : (s.setRdata req v).latchOf other = s.latchOf other := rfl

end

section
variable (s : Block) (req off : Nat) (row : RegRow)

/-- A read of the window answers what the read at its width gives, and leaves that read's latches. -/
theorem Block.readWindow_value (wide : Bool) :
    (s.readWindow req off wide).1 = (if wide then s.read64 off else s.read32 req off).1 := rfl

theorem Block.latchOf_readWindow (wide : Bool) (other : Nat) :
    (s.readWindow req off wide).2.latchOf other = (if wide then s.read64 off else s.read32 req off).2.latchOf other :=
  Block.latchOf_setRdata _ _ _ _

variable (hoff : off < 0x600000) (hwide : row.wide = true)
include hoff hwide

/-- A 64-bit read takes a 64-bit register at once. -/
theorem Block.read64_wide (hlow : findReg off = some ⟨row, off, false⟩) : s.read64 off = (s.regView off, s) := by
  simp [Block.read64, hlow, hoff, hwide]

/-- A 32-bit read of the low word latches the high word. -/
theorem Block.read32_low (hlow : findReg off = some ⟨row, off, false⟩) : s.read32 req off =
    (s.regView off % 2 ^ 32, s.setLatch req (some (off, s.regView off / 2 ^ 32))) := by
  simp [Block.read32, hlow, hoff, hwide]

/-- A 32-bit read of the high word takes the latch of its requester when it holds that register. -/
theorem Block.read32_high_latched (base v : Nat) (hhigh : findReg off = some ⟨row, base, true⟩)
    (hl : s.latchOf req = some (base, v)) : s.read32 req off = (v, s.setLatch req none) := by
  simp [Block.read32, hhigh, hoff, hwide, hl]

end

/-- Settles O53: the read of the low word leaves the high word in its requester's latch, and any later state with that
latch gives it back. -/
theorem highWordsComeFromTheLatch : Obligations.HighWordsComeFromTheLatch := by
  unfold Obligations.HighWordsComeFromTheLatch
  intro b req off row hoff hwide hlow hhigh
  have hread : b.read32 req off = (b.regView off % 2 ^ 32, b.setLatch req (some (off, b.regView off / 2 ^ 32))) :=
    b.read32_low req off row (by omega) hwide hlow
  refine ⟨?_, ?_, fun other hne => ?_, fun c hc => ?_⟩
  · simp [Block.readWindow_value, b.read64_wide off row (by omega) hwide hlow]
  · simp [Block.readWindow_value, hread]
  · simp [Block.latchOf_readWindow, hread, Block.latchOf_setLatch_ne _ _ _ _ hne]
  · have hlatch : c.latchOf req = some (off, b.regView off / 2 ^ 32) := by
      simpa [Block.latchOf_readWindow, hread] using hc
    have hnext : c.read32 req (off + 4) = (b.regView off / 2 ^ 32, c.setLatch req none) :=
      c.read32_high_latched req (off + 4) row hoff hwide off _ hhigh hlatch
    simp [Block.readWindow_value, Block.latchOf_readWindow, hnext]

end Sys2Proof.Machine
end

section
/-! SUPPORT. The expansion of a short stamp (R102): the one value with its low bits in the `2 ^ w` up to the receiver's
own. -/
namespace Sys2Proof.Machine

/-- Of two values with the same low bits, one less than a turn above the other is not above it. -/
theorem le_of_same_low (w a b : Nat) (hlow : a % 2 ^ w = b % 2 ^ w) (h : a < b + 2 ^ w) : a ≤ b := by
  have hsub : (a - b) % 2 ^ w = 0 := Nat.sub_mod_eq_zero_of_mod_eq hlow
  have hpos : 0 < 2 ^ w := Nat.two_pow_pos w
  rw [Nat.mod_eq_of_lt (by omega)] at hsub
  omega

section
variable (w own short : Nat) (hw : short < 2 ^ w) (hown : short ≤ own)
include hw hown

/-- The stamp is of the receiver's own turn of the low bits, or, where that would be later, of the turn before, which
there is. -/
theorem expandStamp_cases :
    (own / 2 ^ w * 2 ^ w + short ≤ own ∧ expandStamp w own short = own / 2 ^ w * 2 ^ w + short) ∨
    (own < own / 2 ^ w * 2 ^ w + short ∧ 2 ^ w ≤ own / 2 ^ w * 2 ^ w ∧
      expandStamp w own short = own / 2 ^ w * 2 ^ w + short - 2 ^ w) := by
  rcases Nat.lt_or_ge own (own / 2 ^ w * 2 ^ w + short) with later | notLater
  · have hturn : 0 < own / 2 ^ w := by
      refine Nat.pos_of_ne_zero fun h0 => ?_
      rw [h0] at later
      omega
    refine .inr ⟨later, Nat.le_mul_of_pos_left _ hturn, ?_⟩
    simp only [expandStamp, Nat.mod_eq_of_lt hw, if_neg (Nat.not_le.mpr later)]
  · refine .inl ⟨notLater, ?_⟩
    simp only [expandStamp, Nat.mod_eq_of_lt hw, if_pos notLater]

theorem expandStamp_le : expandStamp w own short ≤ own := by
  rcases expandStamp_cases w own short hw hown with ⟨hle, heq⟩ | ⟨-, -, heq⟩
  · omega
  · have hbase : own / 2 ^ w * 2 ^ w ≤ own := Nat.div_mul_le_self own (2 ^ w)
    omega

/-- One turn more would be later than the receiver's own. -/
theorem lt_expandStamp_add : own < expandStamp w own short + 2 ^ w := by
  rcases expandStamp_cases w own short hw hown with ⟨-, heq⟩ | ⟨later, -, heq⟩
  · have hnext : own < own / 2 ^ w * 2 ^ w + 2 ^ w := Nat.lt_div_mul_add (Nat.two_pow_pos w)
    omega
  · omega

/-- The expanded value has the stamp's low bits: a turn less leaves them. -/
theorem expandStamp_mod : expandStamp w own short % 2 ^ w = short := by
  have hcand : (own / 2 ^ w * 2 ^ w + short) % 2 ^ w = short := by
    rw [Nat.mul_add_mod_self_right, Nat.mod_eq_of_lt hw]
  rcases expandStamp_cases w own short hw hown with ⟨-, heq⟩ | ⟨-, hturn, heq⟩
  · rw [heq, hcand]
  · rw [heq, ← Nat.mod_eq_sub_mod (by omega), hcand]

/-- No value with the stamp's low bits lies between the expanded one and the receiver's own. -/
theorem le_expandStamp (v : Nat) (hv : v ≤ own) (hlow : v % 2 ^ w = short) : v ≤ expandStamp w own short := by
  have hnext : v < expandStamp w own short + 2 ^ w := Nat.lt_of_le_of_lt hv (lt_expandStamp_add w own short hw hown)
  exact le_of_same_low w v _ (hlow.trans (expandStamp_mod w own short hw hown).symm) hnext

end

/-- A value delivered in time comes back: it and its expansion are both within `2 ^ w` up to the receiver's own. -/
theorem expandStamp_low (w own v : Nat) (hv : v ≤ own) (htime : own ≤ v + (2 ^ w - 1)) :
    expandStamp w own (v % 2 ^ w) = v := by
  have hpos : 0 < 2 ^ w := Nat.two_pow_pos w
  have hw : v % 2 ^ w < 2 ^ w := Nat.mod_lt v hpos
  have hown : v % 2 ^ w ≤ own := Nat.le_trans (Nat.mod_le v _) hv
  have hle : expandStamp w own (v % 2 ^ w) ≤ own := expandStamp_le w own _ hw hown
  have hnear : expandStamp w own (v % 2 ^ w) < v + 2 ^ w := by omega
  exact Nat.le_antisymm (le_of_same_low w _ v (expandStamp_mod w own _ hw hown) hnear)
    (le_expandStamp w own _ hw hown v hv rfl)

/-- Settles O43: both conditions of R102, the largest such value, and the sender's bound. -/
theorem shortStampsExpand : Obligations.ShortStampsExpand := by
  unfold Obligations.ShortStampsExpand
  intro w own short hw hown
  exact ⟨expandStamp_le w own short hw hown, expandStamp_mod w own short hw hown, le_expandStamp w own short hw hown,
    expandStamp_low w own⟩

end Sys2Proof.Machine
end

section
/-! SUPPORT. The forms a command's answer takes, and what every command keeps: the queue, the ring region, the state in
reset and after the cut. -/
namespace Sys2Proof.Machine
open Sys2Proof

/-- What a command can answer: an effect on the block alone, held by the reset groups and by the cut of a global stop
except where the command is one that acts then, or an effect with DMA writes to the ring region. -/
inductive Answer (c : Instr) (s : State) : Host.Outcome State Fault Refusal → Prop
  | on (f : Block → Block) : Answer c s (s.on f)
  | live (f : Block → Block) (hcut : actsAfterCut c = true) : Answer c s (s.live f)
  | always (f : Block → Block) (hreset : actsInReset c = true) (hcut : actsAfterCut c = true) : Answer c s (s.always f)
  | writing (live : Bool) (f : Block → Block × Writes) (hwrites : writesRegion c = true)
      (hcut : live = true → actsAfterCut c = true) : Answer c s (s.writing live f)

section
variable (c : Instr) (s : State) (now : Ft)

theorem Answer.packet (op : Nat) (f : Block → Pkt → Block) : Answer c s (s.packet now op f) := .on _

theorem Answer.packetIf (op : Nat) (refuse : Block → Pkt → Option Nat) (f : Block → Pkt → Block) :
    Answer c s (s.packetIf now op refuse f) := .on _

theorem Answer.mgmt (f : Block → Block) : Answer c s (s.mgmt now f) := .on _

/-- Every command answers in one of the four forms. -/
theorem exec_answer : Answer c s (exec c s) := by
  unfold exec
  cases c
  case powerOnReset | warmResetRelease | tapReset | idcode | bypass | samplePreload | extest => exact .always _ rfl rfl
  case completionWrite => exact .writing false _ rfl nofun
  case globalStopComplete => exact .writing true _ rfl fun _ => rfl
  case warmrstNAssert | warmResetGroupsAssert | l5Expiry | lowWordRead | regRead | regAccess | pwmPeriod | peakLimit
      | phaseTrip | tripWaitEnd | zeroCross | overRating | prebiasRelease | softstartComplete | shortDetected | hiccupEnd
      | retryReset | stopComplete | overvoltage | overvoltageRelease | undervoltage | senseFault | tickBoundary =>
    exact .live _ rfl
  case nop | hello | commit | goodbye | identify | ctxSetBudget | ctxSetTiles | ctxDrain | ctxFree | ctxQuery
      | thermalSet | limitQuery | ceilingUpdate | ceilingQuery | marginSetMode | marginSetFreq | marginSetParams
      | marginQuery | lanternCal | bundleSwap | winnowCtrl | winnowCfg | winnowRead | eaRead | coolSet | thermalRead
      | telemConfig | traceConfig | digestConfig | countersRead | faultRead | faultClear | faultSetSev | faultSetCtrl
      | faultForce | riskCfg | riskRead | imageQuery | groupSet | lendCfg | lendQuery | dumpRead | dumpClear | coreReset
      | globalStop | lcQuery | lcTransition | keyRevoke | svnRaise | wfgRead =>
    exact .packet _ s _ _ _
  case ctxCreate | ctxActivate | limitSet | bundleLoad | isolate | readmit | faultInject | imageLoad | imageActivate
      | imageDiscard | postLbist =>
    exact .packetIf _ s _ _ _ _
  case mctpSetEndpointId | mctpGetEndpointId | mctpGetVersionSupport | mctpGetMessageTypeSupport | mctpGetVendorSupport
      | mctpUnsupportedCommand | packet | regWrite | bootChunk | malformedVendorMessage | alertResponse | smbusTimeout
      | pecError | pmbusPoll | pmbAlert | converterClr | smbusArbitrationLost | smbusUnsupportedTransaction =>
    exact .mgmt _ s _ _
  all_goals exact .on _

end

section
variable {s t : State}

/-- A command with DMA writes keeps the queue. -/
theorem State.writing_pending {live : Bool} {f : Block → Block × Writes} (h : s.writing live f = .next t) :
    t.pending = s.pending := by
  unfold State.writing at h
  split at h <;> cases h <;> rfl

/-- Nothing is written in reset. -/
theorem State.writing_groups {live : Bool} {f : Block → Block × Writes} (h : s.block.rst.groups = true) :
    s.writing live f = .next s := by
  simp [State.writing, h]

/-- After the cut only the command that ends the stop writes. -/
theorem State.writing_frozen {f : Block → Block × Writes} (h : s.block.frozen = true) :
    s.writing false f = .next s := by
  simp [State.writing, h]

/-- What a command with DMA writes leaves of the ring region keeps the canonical form. -/
theorem State.writing_inv {live : Bool} {f : Block → Block × Writes} (hs : s.Inv) (h : s.writing live f = .next t) :
    t.Inv := by
  unfold State.writing at h
  split at h
  · cases h
    exact hs
  · cases h
    exact Memory.wf_writes _ _ hs

/-- Only a command with DMA writes changes the ring region, and none the queue. -/
theorem Answer.keeps_queue {c : Instr} {o : Host.Outcome State Fault Refusal} (ha : Answer c s o) (h : o = .next t) :
    t.pending = s.pending ∧ (writesRegion c = false → t.mem = s.mem) := by
  cases ha with
  | on f => exact ⟨(State.on_mem h).2, fun _ => (State.on_mem h).1⟩
  | live f => exact ⟨(State.live_mem h).2, fun _ => (State.live_mem h).1⟩
  | always f =>
    cases h
    exact ⟨rfl, fun _ => rfl⟩
  | writing live f hwrites => exact ⟨State.writing_pending h, fun hno => absurd (hno.symm.trans hwrites) nofun⟩

theorem Answer.keeps_inv {c : Instr} {o : Host.Outcome State Fault Refusal} (ha : Answer c s o) (h : o = .next t)
    (hs : s.Inv) : t.Inv := by
  cases ha with
  | on f => simpa only [State.Inv, (State.on_mem h).1] using hs
  | live f => simpa only [State.Inv, (State.live_mem h).1] using hs
  | always f =>
    cases h
    exact hs
  | writing live f => exact State.writing_inv hs h

theorem Answer.in_reset {c : Instr} {o : Host.Outcome State Fault Refusal} (ha : Answer c s o)
    (hg : s.block.rst.groups = true) (hc : actsInReset c = false) : o = .next s := by
  cases ha with
  | on f => exact State.on_groups hg
  | live f => exact State.live_groups hg
  | always f hreset => exact absurd (hc.symm.trans hreset) nofun
  | writing live f => exact State.writing_groups hg

theorem Answer.after_cut {c : Instr} {o : Host.Outcome State Fault Refusal} (ha : Answer c s o)
    (hf : s.block.frozen = true) (hc : actsAfterCut c = false) : o = .next s := by
  cases ha with
  | on f => exact State.on_frozen hf
  | live f hcut => exact absurd (hc.symm.trans hcut) nofun
  | always f _ hcut => exact absurd (hc.symm.trans hcut) nofun
  | writing live f _ hcut =>
    cases live with
    | false => exact State.writing_frozen hf
    | true => exact absurd (hc.symm.trans (hcut rfl)) nofun

/-- Every step keeps the canonical form, whatever stands in the queue. -/
theorem step_keeps_inv (hs : s.Inv) (h : step s = .next t) : t.Inv := by
  unfold step at h
  split at h
  · cases h
    exact hs
  · exact (exec_answer _ _).keeps_inv h hs

end

/-- Settles O60, by the form of the front command's answer. -/
theorem stepKeepsTheInvariant : Obligations.StepKeepsTheInvariant := by
  unfold Obligations.StepKeepsTheInvariant
  exact fun s t => step_keeps_inv

/-- Settles O56, by the form of the command's answer. -/
theorem commandsKeepQueueAndRegion : Obligations.CommandsKeepQueueAndRegion := by
  unfold Obligations.CommandsKeepQueueAndRegion
  exact fun c s t => (exec_answer c s).keeps_queue

/-- Settles O58: of the forms of an answer only the one of a command that acts in reset passes the reset groups. -/
theorem nothingActsInReset : Obligations.NothingActsInReset := by
  unfold Obligations.NothingActsInReset
  exact fun c s => (exec_answer c s).in_reset

/-- Settles O59: of the forms of an answer only those of commands that act after the cut pass it. -/
theorem nothingFrozenActsAfterTheCut : Obligations.NothingFrozenActsAfterTheCut := by
  unfold Obligations.NothingFrozenActsAfterTheCut
  exact fun c s => (exec_answer c s).after_cut

/-- Settles O37, by the two cases of the queue. -/
theorem stepRunsTheFrontCommand : Obligations.StepRunsTheFrontCommand := by
  unfold Obligations.StepRunsTheFrontCommand
  exact ⟨fun c rest s => rfl, fun s => rfl⟩

/-- Settles O38: nothing is listed at reset, so every byte reads as unwritten. -/
theorem resetHoldsTheInvariant : Obligations.ResetHoldsTheInvariant := by
  unfold Obligations.ResetHoldsTheInvariant
  exact ⟨Memory.wf_nil, rfl, fun a => rfl⟩

end Sys2Proof.Machine
end

section
/-! SUPPORT. The commands that write to the ring region: what they answer, and what the region's bytes read afterwards. -/
namespace Sys2Proof.Machine
open Sys2Proof

section
variable {s : State} {now : Ft} {b : Block} {f : Block → Block × Writes}

/-- Out of reset and before the cut a writing command changes the block and the ring region, and nothing else. -/
theorem State.writing_eq (hg : s.block.rst.groups = false) (hf : s.block.frozen = false) :
    s.writing false f = .next { s with
      block := (f s.block).1.settle
      mem := (f s.block).2.foldl (fun m w => Memory.write m w.1 w.2) s.mem } := by
  simp [State.writing, hg, hf]

/-- The command that ends a global stop writes after the cut too. -/
theorem State.writing_live (hg : s.block.rst.groups = false) :
    s.writing true f = .next { s with
      block := (f s.block).1
      mem := (f s.block).2.foldl (fun m w => Memory.write m w.1 w.2) s.mem } := by
  simp [State.writing, hg]

theorem exec_completionWrite (ring : Option Ring) (fail : Bool) (h : s.readyAt now b) :
    exec (.completionWrite ring fail now) s = .next { s with
      block := (b.completionWrite ring fail).1.settle
      mem := (b.completionWrite ring fail).2.foldl (fun m w => Memory.write m w.1 w.2) s.mem } := by
  obtain ⟨hg, hf, rfl⟩ := h
  show execCompletionWrite ring fail now s = _
  exact State.writing_eq hg hf

theorem exec_globalStopComplete (hg : s.block.rst.groups = false)
    (hst : (s.block.advance now).fld F.TTU_STOP_STATUS_state = 2) :
    exec (.globalStopComplete now) s = .next { s with
      block := (s.block.advance now).stopComplete.1
      mem := (s.block.advance now).stopComplete.2.foldl (fun m w => Memory.write m w.1 w.2) s.mem } := by
  show execGlobalStopComplete now s = _
  refine (State.writing_live hg).trans ?_
  simp only [hst, if_true]

/-- A byte that a DMA write names reads as written, whatever was written before, once no later write names it too. -/
theorem Memory.get_writes_last (l r : Writes) (x : Nat × List Byte) (m : Tab Byte) (k : Nat) (hk : k < x.2.length)
    (hlater : ∀ y ∈ r, ¬ (y.1 ≤ x.1 + k ∧ x.1 + k < y.1 + y.2.length)) :
    Tab.get zeroB ((l ++ x :: r).foldl (fun m w => Memory.write m w.1 w.2) m) (x.1 + k) = x.2.getD k 0 := by
  have hin : x.1 ≤ x.1 + k ∧ x.1 + k < x.1 + x.2.length := by omega
  rw [List.foldl_append, List.foldl_cons, Memory.get_writes_outside r _ _ hlater, Memory.get_write, if_pos hin,
    Nat.add_sub_cancel_left]

end

/-- Settles O22. -/
theorem completionWritesComplete : Obligations.CompletionWritesComplete := by
  unfold Obligations.CompletionWritesComplete
  refine ⟨fun s now b ring fail h => exec_completionWrite ring fail h, ?_⟩
  rintro s now b hg rfl hst
  exact exec_globalStopComplete hg hst

/-- Settles O57: the bytes after a list of DMA writes. -/
theorem completionsWriteTheirBytesAlone : Obligations.CompletionsWriteTheirBytesAlone := by
  unfold Obligations.CompletionsWriteTheirBytesAlone
  intro s t now ring fail hg hf h
  obtain rfl : _ = t := Host.Outcome.next.inj ((exec_completionWrite ring fail ⟨hg, hf, rfl⟩).symm.trans h)
  refine ⟨fun a hout => Memory.get_writes_outside _ _ a hout, fun l r x hsplit k hk hlater => ?_, rfl⟩
  simp only [State.byte, hsplit]
  exact Memory.get_writes_last l r x s.mem k hk hlater

end Sys2Proof.Machine
end

section
/-! SUPPORT. Words and records: what a field of an assembled word reads as, parity, and little-endian bytes. -/
namespace Sys2Proof.Machine
open Sys2Proof

@[simp] theorem getBits_zero (lo w : Nat) : getBits 0 lo w = 0 := by simp [getBits]

/-- A field inside a word is that of the number the word was made of. -/
theorem getBits_ofNat {n lo w : Nat} (x : Nat) (h : lo + w ≤ n) :
    getBits (BitVec.ofNat n x).toNat lo w = getBits x lo w := by
  rw [BitVec.toNat_ofNat, getBits_mod _ _ _ _ h]

theorem bit_ofNat {n k : Nat} (x : Nat) (h : k < n) : bit (BitVec.ofNat n x).toNat k = bit x k := by
  simp [bit, Nat.testBit_mod_two_pow, h]

@[simp] theorem bit_zero_left (k : Nat) : bit 0 k = false := by simp [bit]

/-- A flag put into a word reads back. -/
@[simp] theorem bit_putBits_same (x k : Nat) (b : Bool) : bit (putBits x k 1 (b2n b)) k = b := by
  cases b <;> simp [bit, testBit_putBits, b2n]

/-- A flag beside a replaced field reads as before. -/
theorem bit_putBits_ne (x lo w v k : Nat) (h : k < lo ∨ lo + w ≤ k) : bit (putBits x lo w v) k = bit x k := by
  unfold bit
  rw [testBit_putBits]
  rcases h with h | h
  · rw [if_pos h]
  · rw [if_neg (by omega), if_neg (by omega)]

/-- The first part of a word goes in first. -/
theorem packBits_step (acc lo w v : Nat) (l : List (Nat × Nat × Nat)) :
    ((lo, w, v) :: l).foldl (fun acc p => putBits acc p.1 p.2.1 p.2.2) acc =
      l.foldl (fun acc p => putBits acc p.1 p.2.1 p.2.2) (putBits acc lo w v) := by
  rw [List.foldl_cons]

theorem packBits_end (acc : Nat) :
    ([] : List (Nat × Nat × Nat)).foldl (fun acc p => putBits acc p.1 p.2.1 p.2.2) acc = acc := by
  rw [List.foldl_nil]

/-! ## Parity -/

/-- Parity sees the bits it covers. -/
theorem parity_congr {x y : Nat} : ∀ n : Nat, (∀ i < n, x.testBit i = y.testBit i) → parity n x = parity n y
  | 0, _ => rfl
  | n + 1, h => by
    simp only [parity, h n (Nat.lt_succ_self n), parity_congr n fun i hi => h i (Nat.lt_succ_of_lt hi)]

/-- The lowest bit counts once. -/
theorem parity_putBits_low (x v n : Nat) :
    parity (n + 1) (putBits x 0 1 v) = xor (v.testBit 0) (parity (n + 1) (putBits x 0 1 0)) := by
  induction n with
  | zero =>
    have hlow (u : Nat) : (putBits x 0 1 u).testBit 0 = u.testBit 0 := by rw [testBit_putBits, if_neg (by omega), if_pos (by omega)]
    simp only [parity, hlow, Bool.xor_false, Nat.zero_testBit]
  | succ n ih =>
    have hhigh (u : Nat) : (putBits x 0 1 u).testBit (n + 1) = x.testBit (n + 1) := by
      rw [testBit_putBits, if_neg (by omega), if_neg (by omega)]
    rw [parity.eq_2 _ (n + 1), parity.eq_2 _ (n + 1), ih, hhigh, hhigh, Bool.xor_left_comm]

theorem parity_ofNat (n x : Nat) : parity n (BitVec.ofNat n x).toNat = parity n x :=
  parity_congr n fun i hi => by simp [Nat.testBit_mod_two_pow, hi]

/-- A word with the parity of its upper bits in its lowest one has an even number of ones. -/
theorem parity_closed (x n : Nat) :
    parity (n + 1) (putBits x 0 1 (b2n (parity (n + 1) (putBits x 0 1 0)))) = false := by
  rw [parity_putBits_low]
  cases parity (n + 1) (putBits x 0 1 0) <;> rfl

@[simp] theorem parity_withParity (x : Nat) : parity 64 (withParity x).toNat = false := by
  unfold withParity
  rw [parity_ofNat]
  exact parity_closed x 63

/-- A field above the parity bit. -/
theorem getBits_withParity (x lo w : Nat) (hlo : 1 ≤ lo) (h : lo + w ≤ 64) :
    getBits (withParity x).toNat lo w = getBits x lo w := by
  unfold withParity
  rw [getBits_ofNat _ h, getBits_putBits_disjoint _ _ _ _ _ _ (.inr hlo)]

theorem bit_withParity (x k : Nat) (hk : 1 ≤ k) (h : k < 64) : bit (withParity x).toNat k = bit x k := by
  unfold withParity
  rw [bit_ofNat _ h, bit_putBits_ne _ _ _ _ _ (.inr hk)]

/-- A word that leaves its lowest bit clear is closed by its own parity. -/
theorem ofNat_parity_eq_withParity (x : Nat) (h : x.testBit 0 = false) :
    BitVec.ofNat 64 (putBits x 0 1 (b2n (parity 64 x))) = withParity x := by
  have hclear : parity 64 (putBits x 0 1 0) = parity 64 x :=
    parity_congr 64 fun i _ => by
      rw [testBit_putBits]
      rcases Nat.eq_zero_or_pos i with rfl | hi
      · simp [h]
      · rw [if_neg (by omega), if_neg (by omega)]
  rw [withParity, hclear]

/-! ## Little-endian bytes (R16) -/

@[simp] theorem length_leBytes (n x : Nat) : (leBytes n x).length = n := by
  induction n generalizing x with
  | zero => rfl
  | succ n ih => simp [leBytes, ih]

@[simp] theorem ofLe_leBytes (n x : Nat) : ofLe (leBytes n x) = x % 256 ^ n := by
  induction n generalizing x with
  | zero => simp [leBytes, ofLe, Nat.mod_one]
  | succ n ih =>
    rw [leBytes, ofLe, ih, Nat.pow_succ', Nat.mod_mul, BitVec.toNat_ofNat]

/-- The field at the front of a record. -/
theorem rdAt_leBytes (n x : Nat) (l : List Byte) : rdAt (leBytes n x ++ l) 0 n = x % 256 ^ n := by
  have htake : (leBytes n x ++ l).take n = leBytes n x := by
    rw [List.take_append_of_le_length (by simp), List.take_of_length_le (by simp)]
  rw [rdAt, List.drop_zero, htake, ofLe_leBytes]

/-- A field behind the first. -/
theorem rdAt_append (k x off n : Nat) (l : List Byte) (h : k ≤ off) :
    rdAt (leBytes k x ++ l) off n = rdAt l (off - k) n := by
  have hdrop : (leBytes k x ++ l).drop off = l.drop (off - k) := by
    rw [List.drop_append, List.drop_eq_nil_of_le (by simpa using h), List.nil_append, length_leBytes]
  rw [rdAt, rdAt, hdrop]

end Sys2Proof.Machine
end


section
/-! SUPPORT. The layouts of the flits and records on the wires (Tables 01-8, 03-3, 03-4, 09-1; R337). -/
namespace Sys2Proof.Machine
open Sys2Proof

theorem sbHeader_fields (vc type cv cn source slot : Nat) (hvc : vc < 4) (htype : type < 64) (hcv : cv < 4)
    (hcn : cn < 64) (hsource : source < 2048) (hslot : slot < 8) : ∃ x : Nat,
    x = (sbHeader vc type cv cn source slot).toNat ∧ getBits x 30 2 = vc ∧ getBits x 24 6 = type ∧
      getBits x 22 2 = cv ∧ getBits x 16 6 = cn ∧ getBits x 5 11 = source ∧ getBits x 2 3 = slot ∧
      getBits x 0 2 = 0 := by
  refine ⟨_, rfl, ?_⟩
  simp (disch := omega) only [sbHeader, packBits, packBits_step, packBits_end, getBits_ofNat, getBits_putBits_same,
    getBits_putBits_disjoint, getBits_zero, Nat.mod_eq_of_lt, and_self]

theorem chHeader_fields (pn type pos cp cn : Nat) (nak : Bool) (hpn : pn < 8) (htype : type < 32) (hpos : pos < 16)
    (hcp : cp < 8) (hcn : cn < 8) : ∃ x : Nat,
    x = (chHeader pn type pos cp cn nak).toNat ∧ getBits x 21 3 = pn ∧ getBits x 16 5 = type ∧ getBits x 12 4 = pos ∧
      getBits x 9 3 = cp ∧ getBits x 6 3 = cn ∧ bit x 5 = nak ∧ getBits x 0 5 = 0 := by
  refine ⟨_, rfl, ?_⟩
  simp (disch := omega) only [chHeader, packBits, packBits_step, packBits_end, getBits_ofNat, getBits_putBits_same,
    getBits_putBits_disjoint, getBits_zero, Nat.mod_eq_of_lt, bit_ofNat, bit_putBits_same, and_self]

/-- A measurement record reads back at a Hub whose tick is at most 255 later. -/
theorem measOfWord_word (d tick : Nat) (m : Meas) (hv : m.v16 < 65536) (hi : m.i16 < 65536) (hp : m.phasesOn < 8)
    (hs : m.state < 8) (hle : m.tick ≤ tick) (hin : tick ≤ m.tick + 255) : measOfWord tick (m.word d) = m := by
  have hstamp : expandStamp 8 tick (m.tick % 2 ^ 8) = m.tick := expandStamp_low 8 tick m.tick hle hin
  simp (disch := omega) only [measOfWord, Meas.word, packBits, packBits_step, packBits_end, getBits_withParity,
    bit_withParity, getBits_putBits_same, getBits_putBits_disjoint, bit_putBits_same, bit_putBits_ne, hstamp,
    Nat.mod_eq_of_lt]

theorem Meas.word_fields (m : Meas) (d : Nat) (hd : d < 128) :
    getBits (m.word d).toNat 57 7 = d ∧ getBits (m.word d).toNat 1 6 = 0 := by
  simp (disch := omega) only [Meas.word, packBits, packBits_step, packBits_end, getBits_withParity,
    getBits_putBits_same, getBits_putBits_disjoint, getBits_zero, Nat.mod_eq_of_lt, and_self]

/-! ## Delegations -/

theorem pairBody_toNat (a b : Nat) : (pairBody a b).toNat = a % 2 ^ 32 + b % 2 ^ 32 * 2 ^ 32 := by
  rw [pairBody, BitVec.toNat_ofNat]
  omega

/-- The low entry of a pair. -/
theorem getBits_pairBody_low (a b lo w : Nat) (h : lo + w ≤ 32) :
    getBits (pairBody a b).toNat lo w = getBits a lo w := by
  have hlow : (pairBody a b).toNat % 2 ^ 32 = a % 2 ^ 32 := by
    rw [pairBody_toNat]
    omega
  rw [← getBits_mod _ _ _ 32 h, hlow, getBits_mod _ _ _ 32 h]

/-- The high entry of a pair. -/
theorem getBits_pairBody_high (a b lo w : Nat) (h : lo + w ≤ 32) :
    getBits (pairBody a b).toNat (lo + 32) w = getBits b lo w := by
  have hhigh : (pairBody a b).toNat >>> 32 = b % 2 ^ 32 := by
    rw [pairBody_toNat, Nat.shiftRight_eq_div_pow]
    omega
  rw [getBits, Nat.add_comm, Nat.shiftRight_add, hhigh, ← getBits, getBits_mod _ _ _ 32 h]

theorem delegEntry_fields (c nj : Nat) (hc : c < 64) :
    getBits (delegEntry c nj) 26 6 = c ∧ getBits (delegEntry c nj) 0 26 = nj / 16 % 2 ^ 26 := by
  simp (disch := omega) only [delegEntry, packBits, packBits_step, packBits_end, getBits_putBits_same,
    getBits_putBits_disjoint, Nat.mod_eq_of_lt, and_self]

/-- A quantised amount survives its 26 bits of 16 nJ. -/
theorem quantDeleg_div_mod (x : Nat) : 16 * (quantDeleg x / 16 % 2 ^ 26) = quantDeleg x := by
  unfold quantDeleg
  omega

theorem delegOf_pairBody (c c' x y : Nat) (hc : c < 64) (hc' : c' < 64) : ∃ w : DWord,
    w = pairBody (delegEntry c (quantDeleg x)) (delegEntry c' (quantDeleg y)) ∧
    delegOf w = [quantDeleg x, quantDeleg y] ∧ getBits w.toNat 26 6 = c ∧ getBits w.toNat 58 6 = c' := by
  obtain ⟨hctx, hamount⟩ := delegEntry_fields c (quantDeleg x) hc
  obtain ⟨hctx', hamount'⟩ := delegEntry_fields c' (quantDeleg y) hc'
  refine ⟨_, rfl, ?_, ?_, ?_⟩
  · rw [delegOf, getBits_pairBody_low _ _ 0 26 (by omega), getBits_pairBody_high _ _ 0 26 (by omega), hamount, hamount',
      quantDeleg_div_mod, quantDeleg_div_mod]
  · rw [getBits_pairBody_low _ _ 26 6 (by omega), hctx]
  · rw [getBits_pairBody_high _ _ 26 6 (by omega), hctx']

/-! ## The Sheaf word (Table 03-3) -/

/-- The fields of a Sheaf word, before its parity. -/
def sheafBits (t : Nat) (w : WSheaf) : Nat :=
  packBits [(54, 10, t), (46, 8, w.tick), (30, 16, w.energy), (24, 6, share 63 w.run w.cycles),
    (20, 4, share 15 w.str w.cycles), (10, 10, w.tempQ), (6, 4, w.glints), (5, 1, b2n w.bank), (4, 1, b2n w.eSat),
    (3, 1, b2n w.tBad), (2, 1, b2n w.merged), (1, 1, b2n w.probation)]

theorem sheafWord_eq (t : Nat) (w : WSheaf) : sheafWord t w = withParity (sheafBits t w) := by
  refine ofNat_parity_eq_withParity (sheafBits t w) ?_
  simp (disch := omega) only [sheafBits, packBits, packBits_step, packBits_end, ← bit.eq_1, bit_putBits_ne,
    bit_zero_left]

theorem share_le (top part cycles : Nat) : share top part cycles ≤ top := Nat.min_le_left _ _

/-- Each field holds its value modulo its width. -/
theorem sheafWord_fields_mod (t : Nat) (w : WSheaf) :
    getBits (sheafWord t w).toNat 54 10 = t % 2 ^ 10 ∧ getBits (sheafWord t w).toNat 46 8 = w.tick % 2 ^ 8 ∧
    getBits (sheafWord t w).toNat 30 16 = w.energy % 2 ^ 16 ∧
    getBits (sheafWord t w).toNat 24 6 = share 63 w.run w.cycles % 2 ^ 6 ∧
    getBits (sheafWord t w).toNat 20 4 = share 15 w.str w.cycles % 2 ^ 4 ∧
    getBits (sheafWord t w).toNat 10 10 = w.tempQ % 2 ^ 10 ∧ getBits (sheafWord t w).toNat 6 4 = w.glints % 2 ^ 4 := by
  simp (disch := omega) only [sheafWord_eq, sheafBits, packBits, packBits_step, packBits_end, getBits_withParity,
    getBits_putBits_same, getBits_putBits_disjoint, and_self]

theorem sheafWord_fields (t : Nat) (w : WSheaf) (ht : t < 1024) :
    getBits (sheafWord t w).toNat 54 10 = t ∧ getBits (sheafWord t w).toNat 46 8 = w.tick % 256 ∧
    getBits (sheafWord t w).toNat 30 16 = w.energy % 65536 ∧
    getBits (sheafWord t w).toNat 24 6 = share 63 w.run w.cycles ∧
    getBits (sheafWord t w).toNat 20 4 = share 15 w.str w.cycles ∧
    getBits (sheafWord t w).toNat 10 10 = w.tempQ % 1024 ∧ getBits (sheafWord t w).toNat 6 4 = w.glints % 16 := by
  have hrun : share 63 w.run w.cycles % 2 ^ 6 = share 63 w.run w.cycles :=
    Nat.mod_eq_of_lt (Nat.lt_succ_of_le (share_le _ _ _))
  have hstr : share 15 w.str w.cycles % 2 ^ 4 = share 15 w.str w.cycles :=
    Nat.mod_eq_of_lt (Nat.lt_succ_of_le (share_le _ _ _))
  obtain ⟨htile, htick, henergy, hr, hs, htemp, hglints⟩ := sheafWord_fields_mod t w
  exact ⟨htile.trans (Nat.mod_eq_of_lt ht), htick, henergy, hr.trans hrun, hs.trans hstr, htemp, hglints⟩

theorem sheafWord_flags (t : Nat) (w : WSheaf) :
    bit (sheafWord t w).toNat 5 = w.bank ∧ bit (sheafWord t w).toNat 4 = w.eSat ∧ bit (sheafWord t w).toNat 3 = w.tBad ∧
    bit (sheafWord t w).toNat 2 = w.merged ∧ bit (sheafWord t w).toNat 1 = w.probation := by
  simp (disch := omega) only [sheafWord_eq, sheafBits, packBits, packBits_step, packBits_end, bit_withParity,
    bit_putBits_same, bit_putBits_ne, and_self]

/-- Settles O51: field by field through the layouts, and every body closed by its parity. -/
theorem sheafWordsHoldTheirFields : Obligations.SheafWordsHoldTheirFields := by
  unfold Obligations.SheafWordsHoldTheirFields
  refine ⟨sbHeader_fields, chHeader_fields, ?_, delegOf_pairBody, ?_⟩
  · intro d tick m hd hv hi hp hs hle hin
    obtain ⟨hdom, hzero⟩ := m.word_fields d hd
    exact ⟨measOfWord_word d tick m hv hi hp hs hle hin, hdom, hzero, parity_withParity _⟩
  · intro t w ht
    obtain ⟨htile, htick, henergy, hrun, hstr, htemp, hglints⟩ := sheafWord_fields t w ht
    obtain ⟨hbank, hsat, hbad, hmerged, hprob⟩ := sheafWord_flags t w
    have hparity : parity 64 (sheafWord t w).toNat = false := by rw [sheafWord_eq, parity_withParity]
    exact ⟨htile, htick, henergy, hrun, hstr, htemp, hglints, hbank, hsat, hbad, hmerged, hprob, hparity⟩

/-! ## Lending messages (Table 11-2) -/

theorem crc32Bit_lt (c : Nat) (h : c < 2 ^ 32) : crc32Bit c < 2 ^ 32 := by
  have hshift : c >>> 1 < 2 ^ 32 := Nat.lt_of_le_of_lt (Nat.shiftRight_le _ _) h
  unfold crc32Bit
  split
  · exact Nat.xor_lt_two_pow hshift (by decide)
  · exact hshift

/-- What keeps a bound step by step keeps it over a list. -/
theorem foldl_lt {α : Type} (f : Nat → α → Nat) (n : Nat) (hf : ∀ c x, c < n → f c x < n) (l : List α) (c : Nat)
    (hc : c < n) : l.foldl f c < n := by
  induction l generalizing c with
  | nil => exact hc
  | cons x l ih => exact ih _ (hf c x hc)

theorem crc32Byte_lt (c : Nat) (x : Byte) (h : c < 2 ^ 32) : crc32Byte c x.toNat < 2 ^ 32 :=
  foldl_lt _ _ (fun c _ => crc32Bit_lt c) _ _ (Nat.xor_lt_two_pow h (Nat.lt_of_lt_of_le x.isLt (by decide)))

/-- A CRC-32 fits its four bytes. -/
theorem crc32_lt (l : List Byte) : crc32 l < 2 ^ 32 :=
  Nat.xor_lt_two_pow (foldl_lt _ _ crc32Byte_lt l _ (by decide)) (by decide)

section
variable (a : Block) (type dst amount want : Nat)

/-- A lending message before its CRC. -/
def Block.lendBody : List Byte :=
  leBytes 1 type ++ leBytes 1 1 ++ leBytes 2 a.lend.cfg.group ++ leBytes 1 a.lend.cfg.self ++ leBytes 1 dst ++
    leBytes 2 0 ++ leBytes 8 a.now ++ leBytes 4 (a.interval % 4294967296) ++ leBytes 4 amount ++ leBytes 4 want

theorem Block.lendMsg_eq : a.lendMsg type dst amount want =
    a.lendBody type dst amount want ++ leBytes 4 (crc32 (a.lendBody type dst amount want)) := rfl

@[simp] theorem Block.length_lendBody : (a.lendBody type dst amount want).length = 28 := by
  simp [Block.lendBody]

theorem Block.length_lendMsg : (a.lendMsg type dst amount want).length = 32 := by
  simp [Block.lendMsg_eq]

/-- The fields of a message in their places. -/
theorem Block.lendMsg_fields : ∃ m : List Byte, m = a.lendMsg type dst amount want ∧
    rdAt m 0 1 = type % 256 ∧ rdAt m 1 1 = 1 ∧ rdAt m 2 2 = a.lend.cfg.group % 65536 ∧
    rdAt m 4 1 = a.lend.cfg.self % 256 ∧ rdAt m 5 1 = dst % 256 ∧ rdAt m 8 8 = a.now % 2 ^ 64 ∧
    rdAt m 16 4 = a.interval % 2 ^ 32 ∧ rdAt m 20 4 = amount % 2 ^ 32 ∧ rdAt m 24 4 = want % 2 ^ 32 := by
  refine ⟨_, rfl, ?_⟩
  rw [Block.lendMsg_eq, Block.lendBody]
  simp (disch := omega) only [List.append_assoc, rdAt_append, rdAt_leBytes, Nat.reduceSub, Nat.reducePow, Nat.reduceMod,
    Nat.mod_mod, and_self]

theorem Block.lendMsg_crc : rdAt (a.lendMsg type dst amount want) 28 4 =
    crc32 ((a.lendMsg type dst amount want).take 28) := by
  have hbody : (a.lendMsg type dst amount want).take 28 = a.lendBody type dst amount want := by
    rw [Block.lendMsg_eq, List.take_append_of_le_length (by simp), List.take_of_length_le (by simp)]
  have htail : (a.lendMsg type dst amount want).drop 28 = leBytes 4 (crc32 (a.lendBody type dst amount want)) := by
    rw [Block.lendMsg_eq, List.drop_append, List.drop_eq_nil_of_le (by simp), List.nil_append,
      Block.length_lendBody, List.drop_zero]
  rw [hbody, rdAt, htail, List.take_of_length_le (by simp), ofLe_leBytes]
  exact Nat.mod_eq_of_lt (crc32_lt _)

end

/-- A message's FT lies in its sender's interval. -/
theorem Block.intervalAt_bounds (a : Block) : a.intervalAt ≤ a.now ∧ a.now < a.intervalAt + 134217728 := by
  unfold Block.intervalAt Block.interval
  omega

/-- Settles O52: the fields of the message, its CRC, and the checks of R492 one by one. -/
theorem lendingMessagesReadBack : Obligations.LendingMessagesReadBack := by
  unfold Obligations.LendingMessagesReadBack
  intro a b type dst amount want htype htype' hdst hamount hwant hgroup hself hbgroup hn hint htime hto hclaim hadj
  obtain ⟨m, hm, h0, h1, h2, h4, h5, h8, h16, h20, h24⟩ := a.lendMsg_fields type dst amount want
  have hlen := a.length_lendMsg type dst amount want
  have hcrc := a.lendMsg_crc type dst amount want
  have hnow : a.now < 2 ^ 64 := a.ft.isLt
  have hat : b.intervalAt = a.intervalAt := by rw [Block.intervalAt, Block.intervalAt, hint]
  obtain ⟨hfrom, hto'⟩ := a.intervalAt_bounds
  rw [← hm] at hlen hcrc ⊢
  rw [Nat.mod_eq_of_lt (by omega)] at h0 h2 h4 h5 h8 h20 h24
  refine ⟨?_, hlen, h0, h4, h5, h8, h20, h24⟩
  have haddressed : dst = b.lend.cfg.self ∨ type = 1 ∧ dst = 255 := by
    by_cases h : type = 1
    · exact .inr ⟨h, by rw [hto, if_pos h]⟩
    · exact .inl (by rw [hto, if_neg h])
  have hclaimed : (type != 3) = true ∨ (b.lend.claims.any fun x => x.1 == a.lend.cfg.self) = true := by
    by_cases h : type = 3
    · exact .inr (hclaim h)
    · exact .inl (by simpa using h)
  have hnotPositive : (!(type == 2 && decide (0 < b.lg.adj))) = true := by
    by_cases h : type = 2
    · simpa [h] using hadj h
    · simp [h]
  have h16' : rdAt m 16 4 = a.interval % 4294967296 := h16
  simp only [Block.lendOk, hlen, hcrc, h0, h1, h2, h4, h5, h8, h16', hbgroup, hint, hat, htime, hn, hfrom, hto',
    beq_self_eq_true, Bool.and_true, Bool.true_and, Bool.and_eq_true, decide_eq_true_eq, Bool.or_eq_true, beq_iff_eq,
    htype, htype', and_true, true_and]
  exact ⟨⟨haddressed, hclaimed⟩, hnotPositive⟩

end Sys2Proof.Machine
end

section
/-! SUPPORT. Fabric time under a stamp (R83, R96), and the state at reset. -/
namespace Sys2Proof.Machine
open Sys2Proof

/-- Settles O40. -/
theorem fieldsKeepTheirPlaces : Obligations.FieldsKeepTheirPlaces := by
  unfold Obligations.FieldsKeepTheirPlaces
  exact fun b f g v hf hg => ⟨b.fld_setFld f v hf, b.fld_setFld_disjoint f g v hg⟩

theorem ringOn_reset : ∀ r < 128, State.reset.block.ringOn r = false := by decide +kernel

/-- Settles O39: no register is listed at reset, and no unit's state. -/
theorem resetValues : Obligations.ResetValues := by
  unfold Obligations.ResetValues
  have htime : State.reset.block.timeState = 0 := by decide +kernel
  have hstop : State.reset.block.frozen = false := by decide +kernel
  refine ⟨fun o => rfl, htime, ?_, fun t => rfl, ringOn_reset, rfl, hstop, rfl, rfl, rfl⟩
  rw [Block.now, Block.ft, if_pos htime]
  rfl

section
variable (b : Block) (stamp : Ft)

/-- The FT at which a stamp registers: in Deep the count moves in steps of 8 ns (R82). -/
def Block.stampAt : Nat := if b.inDeep = true then stamp.toNat / 8 * 8 else stamp.toNat

theorem Block.stampAt_lt : b.stampAt stamp < 2 ^ 64 := by
  have h : stamp.toNat < 2 ^ 64 := stamp.isLt
  unfold Block.stampAt
  split <;> omega

/-- Where a stamp brings the count: forward only, and not over the next tick boundary while boundaries are
generated. -/
def Block.stampedCount : Nat :=
  max b.time.count.toNat (if b.time.ticking = true
    then min (b.stampAt stamp) ((b.time.count.toNat / 1024 + 1) * 1024 - if b.inDeep = true then 8 else 1)
    else b.stampAt stamp)

theorem Block.stampedCount_lt : b.stampedCount stamp < 2 ^ 64 := by
  have hcount : b.time.count.toNat < 2 ^ 64 := b.time.count.isLt
  have hstamp := b.stampAt_lt stamp
  unfold Block.stampedCount
  split <;> omega

theorem Block.advance_count : (b.advance stamp).time.count.toNat = b.stampedCount stamp := by
  have hlt := b.stampedCount_lt stamp
  unfold Block.advance
  simp only [← Block.stampAt.eq_1]
  by_cases hback : b.stampAt stamp ≤ b.time.count.toNat
  · rw [if_pos hback, Block.stampedCount]
    split <;> omega
  · rw [if_neg hback]
    have hto : (if b.time.ticking = true
        then max b.time.count.toNat (min (b.stampAt stamp)
          ((b.time.count.toNat / 1024 + 1) * 1024 - if b.inDeep = true then 8 else 1))
        else b.stampAt stamp) = b.stampedCount stamp := by
      unfold Block.stampedCount
      split <;> omega
    rw [hto, Block.countTo, BitVec.toNat_ofNat, Nat.mod_eq_of_lt hlt]

theorem Block.timeState_advance : (b.advance stamp).timeState = b.timeState := b.fld_advance stamp _

/-- FT reads 0 in ACQUIRING (R85). -/
theorem Block.now_acquiring (h : b.timeState = 0) : b.now = 0 := by
  rw [Block.now, Block.ft, if_pos h]
  rfl

theorem Block.now_count (h : b.timeState ≠ 0) : b.now = b.time.count.toNat := by
  rw [Block.now, Block.ft, if_neg h]

theorem Block.now_advance (h : b.timeState ≠ 0) : (b.advance stamp).now = b.stampedCount stamp := by
  rw [(b.advance stamp).now_count (by rwa [b.timeState_advance]), b.advance_count]

theorem Block.le_now_advance : b.now ≤ (b.advance stamp).now := by
  by_cases h : b.timeState = 0
  · rw [b.now_acquiring h]
    exact Nat.zero_le _
  · rw [b.now_advance stamp h, b.now_count h, Block.stampedCount]
    exact Nat.le_max_left _ _

/-- While boundaries are generated a stamp stays in the tick in progress. -/
theorem Block.tick_advance (hticking : b.time.ticking = true) : (b.advance stamp).tick = b.tick := by
  unfold Block.tick
  by_cases h : b.timeState = 0
  · rw [b.now_acquiring h, (b.advance stamp).now_acquiring (by rwa [b.timeState_advance])]
  · rw [b.now_advance stamp h, b.now_count h, Block.stampedCount, if_pos hticking]
    split <;> omega

end

/-- Settles O42, by where a stamp brings the count. -/
theorem fabricTimeNeverGoesBack : Obligations.FabricTimeNeverGoesBack := by
  unfold Obligations.FabricTimeNeverGoesBack
  refine fun b stamp => ⟨b.le_now_advance stamp, b.timeState_advance stamp, b.tick_advance stamp, ?_, ?_, ?_⟩
  · intro hticking hstate
    rw [b.now_advance stamp hstate, b.now_count hstate, Block.stampedCount, hticking, if_neg Bool.false_ne_true,
      Block.stampAt]
  · exact fun hstate => (b.advance stamp).now_acquiring ((b.timeState_advance stamp).trans hstate)
  · unfold Block.tick
    omega

end Sys2Proof.Machine
end

section
/-! SUPPORT. Figures: the regressor format, grant windows, references, grants of a lender, divisions, thresholds and the
FIFO of a Relay. -/
namespace Sys2Proof.Machine
open Sys2Proof

/-! ## The regressor format (R219) -/

/-- Rounding half up to a power of two. -/
theorem divRound_two_pow (v e : Nat) : divRound v (2 ^ e) = (v + 2 ^ e / 2) / 2 ^ e := by
  have hpos : 2 ^ e ≠ 0 := Nat.ne_of_gt (Nat.two_pow_pos e)
  rw [divRound, if_neg hpos]
  cases e with
  | zero => omega
  | succ k =>
    have hhalf : 2 ^ (k + 1) / 2 = 2 ^ k := by omega
    have hdouble : 2 * v + 2 ^ (k + 1) = 2 * (v + 2 ^ k) := by omega
    rw [hhalf, hdouble, Nat.mul_div_mul_left _ _ (by omega)]

/-- Up to the largest value the format has the smallest exponent that holds it. -/
theorem regCode_spec (v : Nat) (hv : v ≤ 134184960) : ∃ e m : Nat, e ≤ 15 ∧ m ≤ 4095 ∧ regCode v = m * 2 ^ e ∧
    m = (v + 2 ^ e / 2) / 2 ^ e ∧ ∀ k < e, 4095 < (v + 2 ^ k / 2) / 2 ^ k := by
  cases hfind : (List.range 16).find? fun e => decide (divRound v (2 ^ e) ≤ 4095) with
  | none =>
    have hlast := List.find?_eq_none.mp hfind 15 (by decide)
    rw [divRound_two_pow, decide_eq_true_eq] at hlast
    omega
  | some e =>
    obtain ⟨hfits, hrange, hleast⟩ := List.find?_range_eq_some.mp hfind
    rw [decide_eq_true_eq] at hfits
    refine ⟨e, divRound v (2 ^ e), ?_, hfits, ?_, divRound_two_pow v e, fun k hk => ?_⟩
    · exact Nat.le_of_lt_succ (List.mem_range.mp hrange)
    · simp only [regCode, hfind]
    · simpa [← divRound_two_pow] using hleast k hk

/-- A value whose next smaller exponent was too small fills the upper half of the mantissa. -/
theorem half_mantissa (v e : Nat) (he : 0 < e) (hleast : ∀ k < e, 4095 < (v + 2 ^ k / 2) / 2 ^ k) :
    2048 ≤ (v + 2 ^ e / 2) / 2 ^ e := by
  obtain ⟨k, rfl⟩ : ∃ k, e = k + 1 := ⟨e - 1, by omega⟩
  have hk : 4096 ≤ (v + 2 ^ k / 2) / 2 ^ k := hleast k (Nat.lt_succ_self k)
  rw [Nat.le_div_iff_mul_le (Nat.two_pow_pos _)] at hk ⊢
  rw [Nat.pow_succ]
  omega

theorem regCode_exact (v : Nat) (hv : v ≤ 4095) : regCode v = v := by
  obtain ⟨e, m, -, -, hcode, hm, hleast⟩ := regCode_spec v (by omega)
  rcases Nat.eq_zero_or_pos e with rfl | he
  · omega
  · have h0 := hleast 0 he
    omega

theorem regCode_le (v : Nat) : regCode v ≤ 134184960 := by
  unfold regCode
  split
  next e hfind =>
    obtain ⟨hfits, hrange, -⟩ := List.find?_range_eq_some.mp hfind
    have he : 2 ^ e ≤ 2 ^ 15 := Nat.pow_le_pow_right (by decide) (Nat.le_of_lt_succ (List.mem_range.mp hrange))
    exact Nat.mul_le_mul (of_decide_eq_true hfits) he
  next => exact Nat.le_refl _

/-- The error of rounding is half a step, and a step at most 1/2,048 of the value. -/
theorem regCode_near (v : Nat) (hv : v ≤ 134184960) :
    4096 * v ≤ 4097 * regCode v ∧ 4095 * regCode v ≤ 4096 * v := by
  obtain ⟨e, m, -, -, hcode, hm, hleast⟩ := regCode_spec v hv
  have hbelow : regCode v ≤ v + 2 ^ e / 2 := by
    rw [hcode, hm]
    exact Nat.div_mul_le_self _ _
  have habove : v + 2 ^ e / 2 < regCode v + 2 ^ e := by
    rw [hcode, hm]
    exact Nat.lt_div_mul_add (Nat.two_pow_pos e)
  rcases Nat.eq_zero_or_pos e with rfl | he
  · omega
  · have hstep : 2048 * 2 ^ e ≤ regCode v := by
      rw [hcode, hm]
      exact Nat.mul_le_mul_right _ (half_mantissa v e he hleast)
    omega

/-- Settles O44. -/
theorem regressorsKeepTheirPrecision : Obligations.RegressorsKeepTheirPrecision := by
  unfold Obligations.RegressorsKeepTheirPrecision
  refine fun v => ⟨fun hv => ?_, regCode_exact v, regCode_le v, regCode_near v⟩
  obtain ⟨e, m, he, hmax, hcode, hm, hleast⟩ := regCode_spec v hv
  refine ⟨e, m, he, hmax, hcode, hm, hleast, fun hpos => ?_⟩
  rw [hm]
  exact half_mantissa v e hpos hleast

/-! ## Windows and references (R309, R397) -/

/-- Settles O45: the expansion is the one number of the 256 up to 80 after the Post's own with the window's low bits. -/
theorem grantWindowsExpand : Obligations.GrantWindowsExpand := by
  unfold Obligations.GrantWindowsExpand
  intro cur win hwin hle
  unfold expandWin
  refine ⟨by omega, by omega, by omega, fun n hmod hlow hhigh => by omega⟩

/-- Settles O46, by the side of the target the reference stands on. -/
theorem referencesSlewTowardTheTarget : Obligations.ReferencesSlewTowardTheTarget := by
  unfold Obligations.ReferencesSlewTowardTheTarget
  intro ref tgt rate
  simp only [moveRef]
  generalize (rate * 32768 + 500) / 1000 = step
  refine ⟨fun hup => ?_, fun hdown => ?_⟩
  · by_cases h : ref < tgt
    · rw [if_pos h]
      omega
    · rw [if_neg h]
      omega
  · rw [if_neg (by omega)]
    omega

/-! ## Sums -/

theorem sumN_eq_sum (l : List Nat) : sumN l = l.sum := List.sum_eq_foldl.symm

theorem sumN_cons (x : Nat) (l : List Nat) : sumN (x :: l) = x + sumN l := by simp [sumN_eq_sum]

/-! ## Grants of a lender (R489) -/

theorem grantClaims_members (claims : List (Nat × Nat)) (spare : Nat) :
    (grantClaims claims spare).map (·.1) = claims.map (·.1) := by
  induction claims generalizing spare with
  | nil => rfl
  | cons x l ih => simp [grantClaims, ih]

theorem grantClaims_sum_le (claims : List (Nat × Nat)) (spare : Nat) :
    sumN ((grantClaims claims spare).map (·.2)) ≤ spare := by
  induction claims generalizing spare with
  | nil => exact Nat.zero_le _
  | cons x l ih =>
    have hrest := ih (spare - min x.2 spare / 1000 * 1000)
    simp only [grantClaims, List.map_cons, sumN_cons]
    omega

theorem grantClaims_each (claims : List (Nat × Nat)) (spare k : Nat) :
    ((grantClaims claims spare).getD k (0, 0)).2 ≤ (claims.getD k (0, 0)).2 ∧
      ((grantClaims claims spare).getD k (0, 0)).2 % 1000 = 0 := by
  induction claims generalizing spare k with
  | nil => simp [grantClaims]
  | cons x l ih =>
    cases k with
    | zero =>
      simp only [grantClaims, List.getD_cons_zero]
      omega
    | succ k =>
      simp only [grantClaims, List.getD_cons_succ]
      exact ih _ k

/-- Settles O47, by induction on the claims. -/
theorem grantsStayWithinTheSpare : Obligations.GrantsStayWithinTheSpare := by
  unfold Obligations.GrantsStayWithinTheSpare
  exact fun claims spare =>
    ⟨grantClaims_members claims spare, grantClaims_sum_le claims spare, grantClaims_each claims spare⟩

/-! ## The division of a total (R335) -/

section
variable (tot : Nat) (parts : List Nat)

/-- The index of the greatest entry so far, over a list of indices. -/
theorem foldl_argMax (is : List Nat) (b : Nat) :
    ∃ r, r = is.foldl (fun b i => if parts.getD b 0 < parts.getD i 0 then i else b) b ∧ (r = b ∨ r ∈ is) ∧
      parts.getD b 0 ≤ parts.getD r 0 ∧ ∀ i ∈ is, parts.getD i 0 ≤ parts.getD r 0 := by
  induction is generalizing b with
  | nil => exact ⟨b, rfl, .inl rfl, Nat.le_refl _, nofun⟩
  | cons i is ih =>
    obtain ⟨r, hr, hmem, hge, hall⟩ := ih (if parts.getD b 0 < parts.getD i 0 then i else b)
    refine ⟨r, hr, ?_, ?_, fun j hj => ?_⟩
    · split at hmem <;> grind
    · split at hge <;> omega
    · rcases List.mem_cons.mp hj with rfl | hj
      · split at hge <;> omega
      · exact hall j hj

theorem argMax_lt (h : 0 < parts.length) : argMax parts < parts.length := by
  obtain ⟨r, hr, hmem, -⟩ := foldl_argMax parts (List.range parts.length) 0
  rw [argMax, ← hr]
  rcases hmem with rfl | hmem
  · exact h
  · exact List.mem_range.mp hmem

/-- No part is greater than that of the greatest index. -/
theorem getD_le_argMax (d : Nat) (hd : d < parts.length) : parts.getD d 0 ≤ parts.getD (argMax parts) 0 := by
  obtain ⟨r, hr, -, -, hall⟩ := foldl_argMax parts (List.range parts.length) 0
  rw [argMax, ← hr]
  exact hall d (List.mem_range.mpr hd)

/-- Rounded down, the parts of a total are together no more than it. -/
theorem sum_shares_le (S : Nat) : sumN (parts.map fun p => tot * p / S) * S ≤ tot * sumN parts := by
  induction parts with
  | nil => simp [sumN]
  | cons p l ih =>
    have hp : tot * p / S * S ≤ tot * p := Nat.div_mul_le_self _ _
    simp only [List.map_cons, sumN_cons, Nat.add_mul, Nat.mul_add]
    omega

theorem sumN_set_add (l : List Nat) (i r : Nat) (h : i < l.length) :
    sumN (l.set i (l.getD i 0 + r)) = sumN l + r := by
  induction l generalizing i with
  | nil => exact absurd h (Nat.not_lt_zero i)
  | cons x l ih =>
    cases i with
    | zero =>
      simp only [List.set_cons_zero, List.getD_cons_zero, sumN_cons]
      omega
    | succ i =>
      simp only [List.set_cons_succ, List.getD_cons_succ, sumN_cons, ih i (Nat.lt_of_succ_lt_succ h)]
      omega

theorem exists_pos_of_sumN (h : 0 < sumN parts) : ∃ d, d < parts.length ∧ 0 < parts.getD d 0 := by
  induction parts with
  | nil => exact absurd h (Nat.lt_irrefl 0)
  | cons p l ih =>
    rcases Nat.eq_zero_or_pos p with rfl | hp
    · rw [sumN_cons, Nat.zero_add] at h
      obtain ⟨d, hd, hpos⟩ := ih h
      exact ⟨d + 1, Nat.succ_lt_succ hd, hpos⟩
    · exact ⟨0, Nat.succ_pos _, hp⟩

theorem length_splitBy : (splitBy tot parts).length = parts.length := by
  simp only [splitBy]
  split <;> simp

theorem splitBy_zero (h : sumN parts = 0) : sumN (splitBy tot parts) = 0 := by
  have hconst (l : List Nat) : sumN (l.map fun _ => 0) = 0 := by
    induction l with
    | nil => rfl
    | cons x l ih => rw [List.map_cons, sumN_cons, ih]
  simp only [splitBy, h, if_true, hconst]

/-- The shares of a total that is divided, before the remainder. -/
theorem splitBy_pos (h : 0 < sumN parts) : splitBy tot parts =
    (parts.map fun p => tot * p / sumN parts).set (argMax parts)
      ((parts.map fun p => tot * p / sumN parts).getD (argMax parts) 0 +
        (tot - sumN (parts.map fun p => tot * p / sumN parts))) := by
  simp only [splitBy, if_neg (Nat.ne_of_gt h)]

theorem sumN_splitBy (h : 0 < sumN parts) : sumN (splitBy tot parts) = tot := by
  obtain ⟨d, hd, -⟩ := exists_pos_of_sumN parts h
  have hle : sumN (parts.map fun p => tot * p / sumN parts) ≤ tot :=
    Nat.le_of_mul_le_mul_right (sum_shares_le tot parts _) h
  rw [splitBy_pos tot parts h, sumN_set_add _ _ _ (by simpa using argMax_lt parts (by omega))]
  omega

theorem getD_splitBy (h : 0 < sumN parts) (d : Nat) (hd : d < parts.length) :
    (splitBy tot parts).getD d 0 = tot * parts.getD d 0 / sumN parts +
      if argMax parts = d then tot - sumN (parts.map fun p => tot * p / sumN parts) else 0 := by
  have hshare : (parts.map fun p => tot * p / sumN parts).getD d 0 = tot * parts.getD d 0 / sumN parts := by
    simp [hd]
  rw [splitBy_pos tot parts h]
  by_cases hmax : argMax parts = d
  · subst hmax
    rw [if_pos rfl, ← hshare]
    simp [hd]
  · rw [if_neg hmax, ← hshare]
    simp [hd, List.getElem_set_ne hmax]

end

/-- Settles O48: the remainder goes to the greatest part, which is none of those that are 0. -/
theorem delegationsSumToTheTotal : Obligations.DelegationsSumToTheTotal := by
  unfold Obligations.DelegationsSumToTheTotal
  refine fun tot parts => ⟨length_splitBy tot parts, splitBy_zero tot parts, fun hpos => ⟨sumN_splitBy tot parts hpos,
    fun d hd => ?_⟩⟩
  rw [getD_splitBy tot parts hpos d hd]
  refine ⟨Nat.le_add_right _ _, fun hzero => ?_⟩
  obtain ⟨k, hk, hkpos⟩ := exists_pos_of_sumN parts hpos
  have hmax : argMax parts ≠ d := by
    rintro rfl
    have hge := getD_le_argMax parts k hk
    omega
  rw [hzero, if_neg hmax, Nat.mul_zero, Nat.zero_div]

/-! ## Thresholds (R266) -/

theorem Block.limEff_eq (b : Block) (n : Nat) : b.limEff n = min (min (min (b.limTop n) ((b.limSlots n).getD 0 0))
    ((b.limSlots n).getD 1 0)) ((b.limSlots n).getD 2 0) := rfl

section
variable (top : Nat) (l : List Nat)

theorem minSlots_le_top : min (min (min top (l.getD 0 0)) (l.getD 1 0)) (l.getD 2 0) ≤ top := by omega

theorem minSlots_le_slot (m : Nat) (hm : m < 3) :
    min (min (min top (l.getD 0 0)) (l.getD 1 0)) (l.getD 2 0) ≤ l.getD m 0 := by
  obtain rfl | rfl | rfl : m = 0 ∨ m = 1 ∨ m = 2 := by omega
  all_goals omega

theorem minSlots_eq : min (min (min top (l.getD 0 0)) (l.getD 1 0)) (l.getD 2 0) = top ∨
    ∃ m < 3, min (min (min top (l.getD 0 0)) (l.getD 1 0)) (l.getD 2 0) = l.getD m 0 := by
  have hone : ∀ a0 a1 a2 : Nat, min (min (min top a0) a1) a2 = top ∨ min (min (min top a0) a1) a2 = a0 ∨
      min (min (min top a0) a1) a2 = a1 ∨ min (min (min top a0) a1) a2 = a2 := by omega
  rcases hone (l.getD 0 0) (l.getD 1 0) (l.getD 2 0) with h | h | h | h
  · exact .inl h
  · exact .inr ⟨0, by decide, h⟩
  · exact .inr ⟨1, by decide, h⟩
  · exact .inr ⟨2, by decide, h⟩

end

/-- Settles O49: the minimum of four. -/
theorem effectiveLimitsAreTheSmallest : Obligations.EffectiveLimitsAreTheSmallest := by
  unfold Obligations.EffectiveLimitsAreTheSmallest
  intro b n
  refine ⟨?_, ?_, ?_⟩
  · rw [b.limEff_eq n]
    exact minSlots_le_top _ _
  · rw [b.limEff_eq n]
    exact minSlots_le_slot _ _
  · rw [b.limEff_eq n]
    exact minSlots_eq _ _

/-! ## The FIFO of a Relay (R148) -/

section
variable (l : List FifoE) (e : FifoE)

theorem mergeFifo_tile (x : FifoE) : (mergeFifo x e).tile = x.tile := by
  rw [mergeFifo]

theorem fifoMerge_new (h : ∀ x ∈ l, x.tile ≠ e.tile) : fifoMerge l e = l ++ [e] := by
  rw [fifoMerge, if_neg]
  simpa using h

theorem fifoMerge_known (h : ∃ x ∈ l, x.tile = e.tile) :
    fifoMerge l e = l.map fun x => if (x.tile == e.tile) = true then mergeFifo x e else x := by
  rw [fifoMerge, if_pos]
  simpa using h

/-- Merging into an entry keeps the list of tiles. -/
theorem map_tile_fifoMerge_known (h : ∃ x ∈ l, x.tile = e.tile) : (fifoMerge l e).map (·.tile) = l.map (·.tile) := by
  rw [fifoMerge_known l e h, List.map_map]
  refine List.map_congr_left fun x _ => ?_
  simp only [Function.comp_apply]
  split
  · exact mergeFifo_tile e x
  · rfl

end

/-- Settles O50, by whether the tile has an entry. -/
theorem relaysMergeOneSheafATile : Obligations.RelaysMergeOneSheafATile := by
  unfold Obligations.RelaysMergeOneSheafATile
  intro l e hnodup
  by_cases h : ∃ x ∈ l, x.tile = e.tile
  · have htiles := map_tile_fifoMerge_known l e h
    refine ⟨htiles ▸ hnodup, ?_, fun x hx => ?_⟩
    · obtain ⟨y, hy, htile⟩ := h
      exact List.mem_map.mp (htiles ▸ htile ▸ List.mem_map_of_mem hy)
    · rw [fifoMerge_known l e h, List.mem_map]
      refine ⟨?_, fun hmem => ⟨x, hmem, by simp [hx]⟩⟩
      rintro ⟨y, hy, rfl⟩
      have hother : y.tile ≠ e.tile := fun hsame => hx (by simp [hsame, mergeFifo_tile])
      simpa [hother] using hy
  · have hnew : ∀ x ∈ l, x.tile ≠ e.tile := fun x hx htile => h ⟨x, hx, htile⟩
    rw [fifoMerge_new l e hnew]
    refine ⟨?_, ⟨e, by simp, rfl⟩, fun x hx => ?_⟩
    · rw [List.map_append, List.nodup_append]
      refine ⟨hnodup, by simp, ?_⟩
      simpa using hnew
    · have hne : x ≠ e := fun heq => hx (heq ▸ rfl)
      simp [hne]

end Sys2Proof.Machine
end

section
/-! SUPPORT. Running a command: the forms of `Laws/Run` with the condition of the event and the effect as equations. -/
namespace Sys2Proof.Machine
open Sys2Proof

section
variable {s : State} {now : Ft} {b x : Block} {f : Block → Block}

theorem Block.when_pos {c : Bool} (h : c = true) : b.when c f = f b := if_pos h

theorem Block.when_neg {c : Bool} (h : c = false) : b.when c f = b := if_neg (h ▸ Bool.false_ne_true)

/-- A command without a stamp. -/
theorem State.on_eq (h : s.ready b) (hf : f b = x) : s.on f = .next (s.done x) := by
  rw [State.on_ready h, hf]

/-- A command with a stamp: its effect starts with the count at the stamp. -/
theorem State.on_at (h : s.readyAt now b) (hf : ∀ y : Block, y.advance now = b → f y = x) :
    s.on f = .next (s.done x) := by
  obtain ⟨hg, hc, rfl⟩ := h
  exact State.on_eq ⟨hg, hc, rfl⟩ (hf _ rfl)

/-- The same for commands that a global stop leaves running. -/
theorem State.live_eq (h : s.ready b) (hf : f b = x) : s.live f = .next (s.put x) := by
  rw [State.live_ready h, hf]

theorem State.live_at (h : s.readyAt now b) (hf : ∀ y : Block, y.advance now = b → f y = x) :
    s.live f = .next (s.put x) := by
  obtain ⟨hg, hc, rfl⟩ := h
  exact State.live_eq ⟨hg, hc, rfl⟩ (hf _ rfl)

theorem State.mgmt_eq (h : s.mgmtReady now b) (hf : f b = x) : s.mgmt now f = .next (s.done x) := by
  rw [State.mgmt_ready h, hf]

theorem State.always_at (hf : f s.block = x) : s.always f = .next (s.put x) := by
  rw [State.always_eq, hf, State.put]

end

end Sys2Proof.Machine
end

section
/-! SUPPORT. Accesses to the window: reserved offsets, held words, and the accesses that a port carries out. -/
namespace Sys2Proof.Machine
open Sys2Proof

theorem Tab.erase_set {α : Type} [DecidableEq α] (d : Nat → α) (t : Tab α) (k : Nat) (v : α) :
    Tab.erase (Tab.set d t k v) k = Tab.erase t k := by
  have herase : Tab.erase (Tab.erase t k) k = Tab.erase t k := by
    simp [Tab.erase_eq_filter, List.filter_filter]
  have hinsert (l : Tab α) : Tab.erase (Tab.insert l k v) k = Tab.erase l k := by
    induction l with
    | nil => simp [Tab.insert, Tab.erase]
    | cons p l ih =>
      obtain ⟨k', v'⟩ := p
      simp only [Tab.insert]
      split
      · simp [Tab.erase]
      · simp only [Tab.erase, ih]
  unfold Tab.set
  split
  · exact herase
  · rw [hinsert, herase]

/-- The later of two writes at a key stands. -/
theorem Tab.set_set {α : Type} [DecidableEq α] (d : Nat → α) (t : Tab α) (k : Nat) (u v : α) :
    Tab.set d (Tab.set d t k u) k v = Tab.set d t k v := by
  rw [Tab.set, Tab.erase_set, Tab.set]

section
variable (b : Block) (req off v : Nat)

@[simp] theorem Block.setHeld_setHeld (l l' : Option (Nat × Nat)) : (b.setHeld req l).setHeld req l' = b.setHeld req l' := by
  simp [Block.setHeld, Tab.set_set]

@[simp] theorem Block.heldOf_setHeld (l : Option (Nat × Nat)) : (b.setHeld req l).heldOf req = l :=
  Tab.get_set_same _ _ _ _

/-! ## Reserved offsets (R25) -/

section
variable (hoff : off < 0x600000) (hres : findReg off = none)
include hoff

theorem Block.sramAt_register : b.sramAt off = none := by
  rw [Block.sramAt, if_neg (by omega), if_neg (by omega)]

/-- An access of 4 bytes to a register of a reachable unit meets no error. -/
theorem Block.accessFault_register (write : Bool) (hreach : b.unreachable off = false) :
    b.accessFault off write false = none := by
  have hview : ¬ (0x800000 ≤ off ∧ off < 0x900000 ∧ (!b.access 4) = true) := by omega
  simp only [Block.accessFault, Block.wordFault, hreach, b.sramAt_register off hoff, if_neg hview, Bool.false_eq_true,
    if_false, Option.none_or]

theorem Block.readWeak_register (syn : Nat) : b.readWeak off syn = b := by
  rw [Block.readWeak, b.sramAt_register off hoff]

include hres

theorem Block.readWindow_reserved : b.readWindow req off false = (0, b.setRdata req 0) := by
  simp [Block.readWindow, Block.read32, Block.word, hoff, hres]

theorem Block.writeWindow_reserved : b.writeWindow req off false v = b := by
  have hview : ¬ (0x800000 ≤ off ∧ off < 0x900000) := by omega
  simp [Block.writeWindow, Block.write32, hview, hres]

end

end

/-- Settles O55. -/
theorem reservedOffsetsReadZero : Obligations.ReservedOffsetsReadZero := by
  unfold Obligations.ReservedOffsetsReadZero
  intro b req off v syn hoff hres hreach
  constructor
  · simp only [Block.portRead, b.accessFault_register off hoff false hreach,
      b.readWindow_reserved req off hoff hres, Block.readWeak_register _ off hoff]
  · simp only [Block.portWrite, b.accessFault_register off hoff true hreach,
      b.writeWindow_reserved req off v hoff hres]

/-! ## Held words (R24) -/

section
variable (b : Block) (req off v : Nat) (row : RegRow) (hoff : off < 0x600000) (hwide : row.wide = true)
include hoff hwide

/-- A 32-bit write of the low word of a 64-bit register. -/
theorem Block.write32_low (hlow : findReg off = some ⟨row, off, false⟩) (hv : v < 2 ^ 32) :
    b.writeWindow req off false v = if row.writable = true then b.setHeld req (some (off, v)) else b := by
  have hview : ¬ (0x800000 ≤ off ∧ off < 0x900000) := by omega
  simp only [Block.writeWindow, Block.write32, if_neg hview, hlow, hwide, Nat.mod_eq_of_lt hv, Bool.not_true,
    Bool.not_false, Bool.false_eq_true, if_false, if_true]

/-- A 64-bit write of a 64-bit register. -/
theorem Block.write64_wide (hlow : findReg off = some ⟨row, off, false⟩) :
    b.writeWindow req off true v = b.writeReg req off row v whole := by
  have hview : ¬ (0x800000 ≤ off ∧ off < 0x900000) := by omega
  simp [Block.writeWindow, Block.write64, hview, hlow, hwide]

/-- A 32-bit write of the high word whose requester holds the low one. -/
theorem Block.write32_high_held (base lo : Nat) (hhigh : findReg off = some ⟨row, base, true⟩)
    (hheld : b.heldOf req = some (base, lo)) :
    b.writeWindow req off false v = (b.setHeld req none).writeReg req base row (lo + v * 2 ^ 32) whole := by
  have hview : ¬ (0x800000 ≤ off ∧ off < 0x900000) := by omega
  simp [Block.writeWindow, Block.write32, hview, hhigh, hwide, hheld]

/-- A 32-bit write of the high word alone. -/
theorem Block.write32_high_alone (base : Nat) (hhigh : findReg off = some ⟨row, base, true⟩)
    (hheld : b.heldOf req = none) :
    b.writeWindow req off false v = b.writeReg req base row (v * 2 ^ 32) (2 ^ 64 - 2 ^ 32) := by
  have hview : ¬ (0x800000 ≤ off ∧ off < 0x900000) := by omega
  simp [Block.writeWindow, Block.write32, hview, hhigh, hwide, hheld, whole]

end

/-- Settles O54. -/
theorem lowWordsAreHeld : Obligations.LowWordsAreHeld := by
  unfold Obligations.LowWordsAreHeld
  intro b req off lo lo' hi row hoff hwide hlow hhigh hlo hhi
  have hlowWrite (c : Block) := c.write32_low req off lo row (by omega) hwide hlow hlo
  refine ⟨fun hro => ?_, fun hw => ⟨?_, ?_⟩, ?_, fun hheld => ?_⟩
  · rw [hlowWrite b, hro, if_neg Bool.false_ne_true]
  · rw [hlowWrite b, if_pos hw]
  · rw [hlowWrite, if_pos hw, Block.setHeld_setHeld]
  · rw [Block.write32_high_held _ req (off + 4) hi row hoff hwide off lo hhigh (b.heldOf_setHeld req _),
      Block.setHeld_setHeld, Block.write64_wide _ req off _ row (by omega) hwide hlow]
  · exact b.write32_high_alone req (off + 4) hi row hoff hwide off hhigh hheld

/-! ## Accesses through their port (R66, R345, R826) -/

section
variable (b : Block) (off v : Nat) (write wide : Bool)

theorem Block.carryWord_hub (h : viaDie off = none) : b.carryWord off write v = some b := by
  simp only [Block.carryWord, h]

/-- An access to registers of the Hub needs no flits. -/
theorem Block.carry_hub (h : viaDie off = none) (hhigh : wide = true → viaDie (off + 4) = none) :
    b.carry off write wide v = some b := by
  unfold Block.carry
  split
  · rfl
  · split
    next hpair =>
      rw [b.carryWord_hub off _ write h, Option.bind_some, b.carryWord_hub (off + 4) _ write (hhigh hpair.1)]
    next => exact b.carryWord_hub off v write h

end

/-- Settles O4: each command once its condition holds and its flits go. -/
theorem windowAccessesComplete : Obligations.WindowAccessesComplete := by
  unfold Obligations.WindowAccessesComplete
  refine ⟨?_, ?_, ?_, ?_, fun b req off v syn wide hvia hhigh => ?_, ?_⟩
  · intro s now b c port off act r h hacc halign hreg hbus
    show execLowWordRead port off ⟨act, now⟩ s = _
    refine State.live_at h fun y hy => ?_
    simp only [hy, Block.when, hacc, halign, hreg, hbus, beq_self_eq_true, Bool.and_self, if_true, Option.map_some,
      Option.getD_some]
  · intro s now b c req off value r h htakes halign hreg hbus
    show execLowWordWrite req off value now s = _
    refine State.on_at h fun y hy => ?_
    simp only [hy, Block.when, htakes, halign, hreg, hbus, beq_self_eq_true, Bool.and_self, if_true, Option.map_some,
      Option.getD_some]
  · intro s now b c req off value r h htakes halign hreg hbus
    show execHighWordWrite req off value now s = _
    refine State.on_at h fun y hy => ?_
    simp only [hy, Block.when, htakes, halign, hreg, hbus, beq_self_eq_true, Bool.and_self, if_true, Option.map_some,
      Option.getD_some]
  · intro s now b c req off wide value r h htakes halign hbus
    show execRegisterWrite req off wide value now s = _
    refine State.on_at h fun y hy => ?_
    simp only [hy, Block.when, htakes, halign, hbus, beq_self_eq_true, Bool.and_self, if_true, Option.map_some,
      Option.getD_some]
  · simp only [Block.busRead, Block.busWrite, b.carry_hub off _ _ wide hvia hhigh, Option.map_some, and_self]
  · intro s now b port off write len syn h hacc hlen
    show execAccessError port off write len true syn now s = _
    refine State.on_at h fun y hy => ?_
    have hbad : (!true) = true ∨ (len ≠ 4 ∧ len ≠ 8) ∨ off.val % len ≠ 0 := .inr (.inl hlen)
    simp only [hy, Block.when, hacc, if_true, if_pos hbad]

end Sys2Proof.Machine
end

section
/-! SUPPORT. Session and context packets (Tables 15-8 and 15-9): what each leaves once it passes its checks. -/
namespace Sys2Proof.Machine
open Sys2Proof

section
variable {s : State} {now : Ft} {b x : Block} {op : Nat} {p : Pkt} {r : Block → Pkt → Option Nat} {g : Block → Pkt → Block}

/-- A packet that its core carries out next. -/
theorem State.packet_at (h : s.serves now op p b) (hg : g b p = x) : s.packet now op g = .next (s.served x) := by
  rw [State.packet_serves h, hg]

/-- The same for an opcode with a refusal that does not apply. -/
theorem State.packetIf_at (h : s.serves now op p b) (hr : r b p = none) (hg : g b p = x) :
    s.packetIf now op r g = .next (s.served x) := by
  rw [State.packetIf_serves h hr, hg]

end

/-! ## Records from their fields -/

/-- What a record has so far stays in front. -/
theorem foldl_layout_front (l : List (Nat × List Byte)) (acc : List Byte) :
    ∃ rest, l.foldl (fun acc p => acc ++ List.replicate (p.1 - acc.length) 0 ++ p.2) acc = acc ++ rest := by
  induction l generalizing acc with
  | nil => exact ⟨[], (List.append_nil acc).symm⟩
  | cons x l ih =>
    obtain ⟨rest, hrest⟩ := ih (acc ++ List.replicate (x.1 - acc.length) 0 ++ x.2)
    exact ⟨_, by rw [List.foldl_cons, hrest, List.append_assoc, List.append_assoc]⟩

/-- The field at offset 0 stands in front. -/
theorem layout_front (n : Nat) (l : List Byte) (rest : List (Nat × List Byte)) (hl : l.length = n) :
    (layout ((0, l) :: rest)).take n = l := by
  obtain ⟨tail, htail⟩ := foldl_layout_front rest ([] ++ List.replicate (0 - ([] : List Byte).length) 0 ++ l)
  rw [layout, List.foldl_cons, htail, ← hl]
  simp

/-! ## Sessions -/

section
variable (b : Block) (p : Pkt)

/-- A HELLO of the host for major 1 is answered. -/
theorem Block.hello_host (hport : p.onP4 = false) (hmajor : p.arg 0 1 = 1) :
    ∃ r, b.hello p = (b.setNeg p.src
      ⟨min (p.arg 1 1) b.imageMinor, p.arg 8 32 &&& b.featSup, p.arg 4 4⟩).finish p stOk r := by
  apply Exists.intro
  rw [Block.hello, if_neg (by simp [hmajor]), if_neg (by simp [hport])]

/-- A COMMIT of the host that takes features and a profile it may take. -/
theorem Block.commit_host (n : Neg) (hport : p.onP4 = false) (hneg : b.negOf p.src = some n)
    (hfeats : p.arg 0 32 &&& n.feats = p.arg 0 32) (hbase : bit (p.arg 0 32) 0 = true) (hprof : p.arg 0x20 2 ≠ 0)
    (hknown : b.profiles.contains (p.arg 0x20 2) = true) (hsame : p.arg 0x20 2 = b.fld F.HIU_PROFILE_selected) :
    ∃ r, b.commit p = (b.commitHost n.minor (p.arg 0 32) (p.arg 0x20 2) (clampN 100 10000 n.hb)).finish p
      (clampSt (clampN 100 10000 n.hb != n.hb)) r := by
  apply Exists.intro
  unfold Block.commit
  simp only [hneg]
  rw [if_neg (by simp [hfeats, hbase]), if_neg (by rw [hknown]; simp [hprof]), if_neg (by simp [hsame]),
    if_neg (by simp [hport])]

end

/-- Settles O23, opcode by opcode. -/
theorem sessionPacketsComplete : Obligations.SessionPacketsComplete := by
  unfold Obligations.SessionPacketsComplete
  refine ⟨?nop, ?hello, ?commit, ?goodbye, ?identify⟩
  case nop =>
    intro s now b p h
    show execNop now s = _
    exact State.packet_at h rfl
  case hello =>
    intro s now b p h hport hmajor
    obtain ⟨r, hr⟩ := b.hello_host p hport hmajor
    refine ⟨r, ?_⟩
    show execHello now s = _
    exact State.packet_at h hr
  case commit =>
    intro s now b p n h hport hneg hfeats hbase hprof hknown hsame
    obtain ⟨r, hr⟩ := b.commit_host p n hport hneg hfeats hbase hprof hknown hsame
    refine ⟨_, r, rfl, ?_⟩
    show execCommit now s = _
    exact State.packet_at h hr
  case goodbye =>
    intro s now b p h hport hsession
    show execGoodbye now s = _
    refine State.packet_at h ?_
    rw [Block.goodbye, if_neg (by omega)]
  case identify =>
    intro s now b p h
    show execIdentify now s = _
    exact State.packet_at h rfl

/-! ## Contexts -/

section
variable (b : Block) (p : Pkt)

/-- A context that a packet may name. -/
theorem Block.forCtx_named (f : Nat → Block) (h1 : 1 ≤ p.arg 0 1) (h2 : p.arg 0 1 ≤ 63) :
    b.forCtx p f = f (p.arg 0 1) := by
  rw [Block.forCtx, if_neg (by omega)]

end

/-- Settles O24, opcode by opcode. -/
theorem contextPacketsComplete : Obligations.ContextPacketsComplete := by
  unfold Obligations.ContextPacketsComplete
  refine ⟨?create, ?setBudget, ?setTiles, ?drain, ?free, ?activate, ?query⟩
  case create =>
    intro s now b p c h hsession hname h1 h63 hflags hfree hpool
    refine ⟨_, _, rfl, rfl, ?_⟩
    show execCtxCreate now s = _
    refine State.packetIf_at h (if_neg hsession) ?_
    have hnamed : ¬ (63 < p.arg 0 1 ∨ 4 ≤ p.arg 1 1 ∨ (p.arg 0 1 ≠ 0 ∧
        (!(fun c => b.fld (F.SILO_CTX_CFG_state c) == 0) (p.arg 0 1)) = true)) := by
      simp [hname, hfree]; omega
    unfold Block.ctxCreate
    simp only [if_neg hnamed]
    rw [hname, if_pos (by omega)]
    simp only [hpool, if_neg Bool.false_ne_true]
  case setBudget =>
    intro s now b p h h1 h63 hle hflags hpool
    show execCtxSetBudget now s = _
    refine State.packet_at h ?_
    rw [b.forCtx_named p _ h1 h63, if_neg (by omega)]
    simp only [hpool, if_neg Bool.false_ne_true]
  case setTiles =>
    intro s now b p l h h1 h63 hadd htiles hfree
    show execCtxSetTiles now s = _
    refine State.packet_at h ?_
    have hall : (l.all fun t => b.tileCtxReg t == 0 || b.fld (F.SILO_CTX_CFG_state (b.tileCtxReg t)) == 0) = true :=
      List.all_eq_true.mpr fun t ht => by rw [hfree t ht, beq_self_eq_true, Bool.true_or]
    rw [b.forCtx_named p _ h1 h63]
    simp only [hadd, htiles, if_pos hall]
  case drain =>
    intro s now b p h h1 h63
    show execCtxDrain now s = _
    exact State.packet_at h (b.forCtx_named p _ h1 h63)
  case free =>
    intro s now b p h h1 h63
    show execCtxFree now s = _
    exact State.packet_at h (b.forCtx_named p _ h1 h63)
  case activate =>
    intro s now b p h h1 h63 hsession hstate
    show execCtxActivate now s = _
    refine State.packetIf_at h (if_neg fun hrefused => hsession hrefused.1) ?_
    rw [b.forCtx_named p _ h1 h63, if_pos hstate]
  case query =>
    intro s now b p h h1 h63
    exact ⟨_, (State.packet_at h (b.forCtx_named p _ h1 h63) : execCtxQuery now s = _), layout_front 2 _ _ rfl⟩

end Sys2Proof.Machine
end

section
/-! SUPPORT. Limit, ceiling, margin and calibration packets (Tables 15-10 and 15-11). -/
namespace Sys2Proof.Machine
open Sys2Proof

section
variable {s : State} {now : Ft} {b : Block} {p : Pkt}

/-- A core domain that a packet names by its number. -/
theorem domsOf_core (n : Nat) (h : n < 64) : domsOf n = [n] := by
  rw [domsOf, if_neg (by omega), if_pos h]

theorem Block.marginSetMode_core (n : Nat) (hdom : p.arg 0 1 = n) (hn : n < 64) (hmode : p.arg 1 1 ≤ 2) :
    ∃ c : Block, c = (b.modeRequest p.master n (p.arg 1 1)).2 ∧ b.marginSetMode p =
      c.finish p (worse stOk (b.modeRequest p.master n (p.arg 1 1)).1) (u8 (c.fld (F.LG_MARGIN_MODE_mode n)) ++
        u8 (c.fld (F.LG_MARGIN_MODE_blocked n)) ++ u8 (c.fld (F.LG_MARGIN_MODE_held n))) := by
  refine ⟨_, rfl, ?_⟩
  have hgood : ¬ (([n] : List Nat).isEmpty = true ∨ 2 < p.arg 1 1) := by simp; omega
  simp only [Block.marginSetMode, hdom, domsOf_core n hn, if_neg hgood, List.foldl_cons, List.foldl_nil]

end

/-- Settles O25, opcode by opcode. -/
theorem limitPacketsComplete : Obligations.LimitPacketsComplete := by
  unfold Obligations.LimitPacketsComplete
  refine ⟨?limit, ?thermal, ?query, ?ceiling, ?ceilings, ?mode, ?freq, ?params, ?margin, ?cal⟩
  case limit =>
    rintro s now b p v h hmember h1 h4 rfl
    show execLimitSet now s = _
    refine State.packetIf_at h (if_neg hmember) ?_
    exact if_neg (by omega)
  case thermal =>
    rintro s now b p v h h4 rfl
    show execThermalSet now s = _
    refine State.packet_at h ?_
    exact if_neg (by omega)
  case query =>
    intro s now b p h
    exact ⟨_, (State.packet_at h rfl : execLimitQuery now s = _), layout_front 2 _ _ rfl⟩
  case ceiling =>
    intro s now b c p h hc hreq
    show execCeilingUpdate now s = _
    refine State.packet_at h ?_
    simp only [Block.ceilingUpdate, if_neg hc, hreq, if_true]
  case ceilings =>
    intro s now b p h
    show execCeilingQuery now s = _
    exact State.packet_at h rfl
  case mode =>
    intro s now b p n h hdom hn hmode
    obtain ⟨c, hc, hset⟩ := b.marginSetMode_core n hdom hn hmode
    refine ⟨_, c, congrArg _ hc, ?_⟩
    show execMarginSetMode now s = _
    exact State.packet_at h hset
  case freq =>
    rintro s now b p n v h hdom hn rfl
    refine ⟨_, rfl, ?_⟩
    show execMarginSetFreq now s = _
    refine State.packet_at h ?_
    subst hdom
    have hsome : ¬ ([p.arg 0 1].isEmpty = true) := Bool.false_ne_true
    simp only [Block.marginSetFreq, domsOf_core _ hn, if_neg hsome, if_pos hn, List.map_cons, List.map_nil] <;> rfl
  case params =>
    intro s now b d p cl h hwrite hok
    refine ⟨_, _, rfl, rfl, ?_⟩
    show execMarginSetParams now s = _
    refine State.packet_at h ?_
    simp only [Block.marginSetParams, hwrite, hok, Bool.not_true, if_neg Bool.false_ne_true] <;> rfl
  case margin =>
    intro s now b p h hn
    show execMarginQuery now s = _
    refine State.packet_at h ?_
    rw [domsOf_core _ hn]
  case cal =>
    intro s now b p h ht hiso hpow
    show execLanternCal now s = _
    refine State.packet_at h ?_
    rw [if_neg (by omega), if_neg (by simp [hiso, hpow])]

end Sys2Proof.Machine
end

section
/-! SUPPORT. Bundle, Winnow, table and cooling packets (Table 15-12). -/
namespace Sys2Proof.Machine
open Sys2Proof

/-- Settles O26, opcode by opcode. -/
theorem calibrationPacketsComplete : Obligations.CalibrationPacketsComplete := by
  unfold Obligations.CalibrationPacketsComplete
  refine ⟨?load, ?verified, ?swap, ?ctrl, ?cfg, ?read, ?tables, ?cool, ?thermal⟩
  case load =>
    rintro s now b e p g h hupd hbuf henv rfl hstart rfl
    show execBundleLoad now s = _
    refine State.packetIf_at h (if_pos hupd) ?_
    simp only [Block.bundleLoad, hbuf, if_true, henv, hstart, ne_eq, not_true_eq_false, if_false]
  case verified =>
    intro s b e h hload
    refine ⟨_, rfl, ?_⟩
    show execBundleLoadVerified s = _
    refine State.on_eq h ?_
    simp only [Block.loadVerified, hload]
  case swap =>
    intro s now b p h hunit hload hready htick
    show execBundleSwap now s = _
    refine State.packet_at h ?_
    rw [Block.bundleSwap, if_neg (by omega), if_neg (by simp [hload]), if_neg (by rw [hready]; simp; omega)]
  case ctrl =>
    intro s now b p h hdoms hop
    show execWinnowCtrl now s = _
    refine State.packet_at h ?_
    simp only [Block.winnowCtrl, hdoms, if_neg Bool.false_ne_true, hop]
  case cfg =>
    rintro s now b p k h rfl
    refine ⟨_, rfl, ?_⟩
    show execWinnowCfg now s = _
    exact State.packet_at h rfl
  case read =>
    intro s now b p h hdom hres
    show execWinnowRead now s = _
    refine State.packet_at h ?_
    rw [if_neg (by omega), Block.needBuf, if_pos hres]
  case tables =>
    intro s now b p h hwhat hbank hres
    show execEaRead now s = _
    refine State.packet_at h ?_
    have hgood : ¬ (2 < p.arg 0 1 ∨ (p.arg 0 1 = 2 ∧ 71 < p.arg 1 1) ∨ 1 < p.arg 2 1) := by omega
    have hactive : (p.arg 2 1 == 1) = false := by simp [hbank]
    simp only [Block.eaRead, if_neg hgood, hactive, Bool.false_and, Bool.bne_false, if_neg Bool.false_ne_true,
      Block.needBuf, if_pos hres]
  case cool =>
    rintro s now b p v h hmask rfl
    show execCoolSet now s = _
    refine State.packet_at h ?_
    have h0 : bit 2 0 = false := rfl
    have h1 : bit 2 1 = true := rfl
    simp only [Block.coolSet, hmask, h0, h1, Bool.false_and, if_neg Bool.false_ne_true, if_true]
  case thermal =>
    rintro s now b p n h rfl hrange
    show execThermalRead now s = _
    refine State.packet_at h ?_
    rw [if_neg (by omega)]

end Sys2Proof.Machine
end

section
/-! SUPPORT. Telemetry, fault and isolation packets (Tables 15-13 and 15-14). -/
namespace Sys2Proof.Machine
open Sys2Proof

/-- Settles O27, opcode by opcode. -/
theorem telemetryPacketsComplete : Obligations.TelemetryPacketsComplete := by
  unfold Obligations.TelemetryPacketsComplete
  refine ⟨?telem, ?trace, ?digest, ?counters⟩
  case telem =>
    rintro s now b p k v h hring hint hmask rfl rfl
    show execTelemConfig now s = _
    refine State.packet_at h ?_
    rw [Block.telemConfig, if_neg (by omega)]
  case trace =>
    rintro s now b p l k h htiles hon rfl
    show execTraceConfig now s = _
    refine State.packet_at h ?_
    simp only [Block.traceConfig, htiles, if_neg (Nat.not_lt.mpr hon)]
  case digest =>
    rintro s now b p l w k cl h htiles hwidth h6 h7 h9 rfl rfl
    show execDigestConfig now s = _
    refine State.packet_at h ?_
    have hgood : ¬ (1 < p.arg 6 1 ∨ 5 < p.arg 7 1 ∨ 1 < p.arg 9 1) := by omega
    simp only [Block.digestConfig, htiles, hwidth, if_neg hgood]
  case counters =>
    rintro s now b p l h hset hres rfl
    show execCountersRead now s = _
    refine State.packet_at h ?_
    rw [if_neg (by omega), Block.needBuf, if_pos hres]

/-! ## Faults and isolation -/

section
variable (b : Block) (p : Pkt)

/-- FAULT_SET_CTRL of the FAULT_N threshold alone. -/
theorem Block.faultSetCtrl_threshold (hmask : p.arg 0x1C 4 = 1) (hv : p.arg 0 1 ≤ 4) :
    b.faultSetCtrl p = (b.setFld F.FC_CTRL_fault_n_min (p.arg 0 1)).showFc.finish p stOk := by
  have h3 : bit 1 3 = false := rfl
  have hclamp : clampN 0 4 (p.arg 0 1) = p.arg 0 1 := by
    unfold clampN
    omega
  have hone (f0 f1 f2 f3 : Fld × Nat × Nat × Nat × Nat) :
      (([f0, f1, f2, f3].zipIdx).filter fun x => bit 1 x.2) = [(f0, 0)] := by
    simp [List.zipIdx_cons, bit, Nat.testBit_succ]
  rw [Block.faultSetCtrl, hmask, h3, Bool.false_and, if_neg Bool.false_ne_true]
  simp only [Block.writeMasked, Block.writeFields, hmask, hone, List.foldl_cons, List.foldl_nil, hclamp,
    bne_self_eq_false, Bool.or_false, clampSt, if_neg Bool.false_ne_true]

theorem isoRefused_idle (h : b.flag F.FC_ISO_STATUS_busy = false) : isoRefused b p = none := by
  rw [isoRefused, h, if_neg Bool.false_ne_true]

end

/-- Settles O28, opcode by opcode. -/
theorem faultPacketsComplete : Obligations.FaultPacketsComplete := by
  unfold Obligations.FaultPacketsComplete
  refine ⟨?read, ?clear, ?sev, ?ctrl, ?isolate, ?readmit, ?force, ?inject, ?cfg, ?risk⟩
  case read =>
    intro s now b p h
    show execFaultRead now s = _
    exact State.packet_at h rfl
  case clear =>
    rintro s now b p c h hgroup hfirst halert rfl
    show execFaultClear now s = _
    refine State.packet_at h ?_
    have hgood : ¬ ((26 ≤ p.arg 0 1 ∧ p.arg 0 1 ≠ 0xFF) ∨ 1 < p.arg 2 1 ∨ 1 < p.arg 3 1) := by omega
    have hone : ¬ p.arg 0 1 = 0xFF := by omega
    have hno : ¬ (0 : Nat) = 1 := by decide
    rw [Block.faultClear, if_neg hgood]
    simp only [if_neg hone, hfirst, halert, if_neg hno, Block.forAll, List.foldl_cons, List.foldl_nil]
  case sev =>
    rintro s now b p c h hgroup hsource hsev hfixed rfl
    show execFaultSetSev now s = _
    refine State.packet_at h ?_
    rw [Block.faultSetSev, if_neg (by rw [hsource]; simp; omega), hfixed, if_neg Bool.false_ne_true]
  case ctrl =>
    intro s now b p h hmask hv
    show execFaultSetCtrl now s = _
    exact State.packet_at h (b.faultSetCtrl_threshold p hmask hv)
  case isolate =>
    intro s now b p u h hbusy hunit
    show execIsolate now s = _
    refine State.packetIf_at h (isoRefused_idle b p hbusy) ?_
    simp only [hunit]
  case readmit =>
    intro s now b p t h hbusy hunit
    show execReadmit now s = _
    refine State.packetIf_at h (isoRefused_idle b p hbusy) ?_
    simp only [hunit]
  case force =>
    intro s now b p h hgroup hsource hinst hdry
    show execFaultForce now s = _
    refine State.packet_at h ?_
    rw [Block.faultForce, if_neg (by rw [hsource]; simp; omega)]
  case inject =>
    rintro s now b p c h harmed hnames rfl
    show execFaultInject now s = _
    refine State.packetIf_at h (by rw [harmed]; rfl) ?_
    rw [Block.faultInject, if_neg (by rw [hnames]; exact Bool.false_ne_true)]
  case cfg =>
    rintro s now b p c h rfl
    show execRiskCfg now s = _
    exact State.packet_at h rfl
  case risk =>
    intro s now b p h
    show execRiskRead now s = _
    exact State.packet_at h rfl

end Sys2Proof.Machine
end

section
/-! SUPPORT. Image, lending, diagnosis and lifecycle packets (Tables 15-15 to 15-18). -/
namespace Sys2Proof.Machine
open Sys2Proof

section
variable (b : Block) (p : Pkt)

/-- A load is not refused below state 3 (Table 15-5). -/
theorem updRefused_idle (h : b.updState < 3) : updRefused b p = none := if_neg (by omega)

/-- The first chunk of an image. -/
theorem Block.imageLoad_first (hbuf : p.hasBuf = true) (hoff : p.arg 0 4 = 0) (hlast : p.arg 4 1 ≤ 1)
    (hlen : p.bufLen ≤ 524288) : b.imageLoad p = b.imageChunk p := by
  have hgood : ¬ ((!p.hasBuf) = true ∨ p.arg 0 4 % 8 ≠ 0 ∨ 1 < p.arg 4 1) := by
    simp [hbuf, hoff, hlast]
  have hfits : Nat.blt 524288 (p.arg 0 4 + p.bufLen) = false := by
    rw [Bool.eq_false_iff]
    intro hlt
    have := Nat.blt_eq.mp hlt
    omega
  rw [Block.imageLoad, if_neg hgood, if_neg fun hmid => hmid.1 hoff, if_neg fun hmid => hmid.1 hoff, hfits,
    if_neg Bool.false_ne_true]

/-- LEND_CFG of the two enables alone. -/
theorem Block.lendCfg_enables (hmask : p.arg 0x1C 4 = 3) (hlend : p.arg 0 1 ≤ 1) (hborrow : p.arg 1 1 ≤ 1) :
    b.lendCfg p = ((b.setFld F.HIU_LEND_CFG_lend_en (p.arg 0 1)).setFld F.HIU_LEND_CFG_borrow_en (p.arg 1 1)).finish p
      stOk := by
  have h0 : bit 3 0 = true := rfl
  have h1 : bit 3 1 = true := rfl
  have h2 : bit 3 2 = false := rfl
  have h3 : bit 3 3 = false := rfl
  have h4 : bit 3 4 = false := rfl
  have hle (v : Nat) (hv : v ≤ 1) : decide (1 < v) = false := decide_eq_false (by omega)
  simp only [Block.lendCfg, hmask, h0, h1, h2, h3, h4, hle _ hlend, hle _ hborrow, Bool.true_and, Bool.false_and,
    Bool.or_false, clampSt, if_neg Bool.false_ne_true, if_true]

/-- A fuse request that is taken waits for its fuses. -/
theorem fusePacket_taken {r : Nat × Block} {c : Block} (h : r = (stOk, c)) :
    Block.fusePacket p r = c.await p .fuse stOk 0 := by
  rw [h, Block.fusePacket, if_pos rfl]

end

/-- Settles O29, opcode by opcode. -/
theorem updatePacketsComplete : Obligations.UpdatePacketsComplete := by
  unfold Obligations.UpdatePacketsComplete
  refine ⟨?load, ?activate, ?discard, ?query, ?group, ?cfg, ?lend⟩
  case load =>
    intro s now b p h hupd hbuf hoff hlast hlen
    show execImageLoad now s = _
    exact State.packetIf_at h (updRefused_idle b p hupd) (b.imageLoad_first p hbuf hoff hlast hlen)
  case activate =>
    intro s now b p h hok hmin hmax
    refine ⟨_, rfl, ?_⟩
    show execImageActivate now s = _
    refine State.packetIf_at h hok ?_
    rw [Block.activate, if_neg (by omega)]
  case discard =>
    intro s now b p h hupd
    show execImageDiscard now s = _
    exact State.packetIf_at h (updRefused_idle b p hupd) rfl
  case query =>
    intro s now b p h hshadow
    show execImageQuery now s = _
    refine State.packet_at h ?_
    simp only [hshadow, if_neg Bool.false_ne_true]
  case group =>
    rintro s now b p cl h hgood rfl
    show execGroupSet now s = _
    refine State.packet_at h ?_
    rw [Block.groupSet, hgood, if_neg Bool.false_ne_true]
  case cfg =>
    intro s now b p h hmask hlend hborrow
    show execLendCfg now s = _
    exact State.packet_at h (b.lendCfg_enables p hmask hlend hborrow)
  case lend =>
    intro s now b p h
    exact ⟨_, (State.packet_at h rfl : execLendQuery now s = _), layout_front 2 _ _ rfl⟩

/-- Settles O30, opcode by opcode. -/
theorem diagnosisPacketsComplete : Obligations.DiagnosisPacketsComplete := by
  unfold Obligations.DiagnosisPacketsComplete
  refine ⟨?read, ?clear, ?core, ?lbist, ?stop, ?wfg, ?query, ?transition, ?revoke, ?svn⟩
  case read =>
    intro s now b p d h hslot hdump
    show execDumpRead now s = _
    refine State.packet_at h ?_
    simp only [Block.dumpRead, if_neg (Nat.not_lt.mpr hslot), hdump]
  case clear =>
    rintro s now b p c h rfl
    show execDumpClear now s = _
    exact State.packet_at h rfl
  case core =>
    intro s now b p h hcore hrun
    show execCoreReset now s = _
    refine State.packet_at h ?_
    rw [if_neg (Nat.not_lt.mpr hcore), Block.coreReset, if_pos (Or.inl hrun)]
  case lbist =>
    intro s now b p h hbusy htile hmay
    show execPostLbist now s = _
    refine State.packetIf_at h (isoRefused_idle b p hbusy) ?_
    simp only [if_neg (Nat.not_lt.mpr htile), hmay, Bool.not_true, if_neg Bool.false_ne_true]
  case stop =>
    intro s now b p h hft hidle hupd
    show execGlobalStop now s = _
    refine State.packet_at h ?_
    rw [Block.globalStop, if_neg (Nat.not_lt.mpr hft), if_neg fun hbusy => hbusy.elim (· hidle) (· hupd)]
  case wfg =>
    intro s now b p h hres hfits
    show execWfgRead now s = _
    refine State.packet_at h ?_
    have hgood : ¬ ((!p.hasRes) = true ∨ ((!p.onP4) = true ∧ p.resLen < 81984)) := by
      rcases hfits with hport | hlen
      · simp [hres, hport]
      · simp [hres, hlen]
    rw [Block.wfgRead, if_neg hgood]
  case query =>
    intro s now b p h
    show execLcQuery now s = _
    exact State.packet_at h rfl
  case transition =>
    intro s now b c p h hreq
    show execLcTransition now s = _
    exact State.packet_at h (fusePacket_taken p hreq)
  case revoke =>
    intro s now b c p h hreq
    show execKeyRevoke now s = _
    exact State.packet_at h (fusePacket_taken p hreq)
  case svn =>
    intro s now b c p h hreq
    show execSvnRaise now s = _
    exact State.packet_at h (fusePacket_taken p hreq)

end Sys2Proof.Machine
end

section
/-! SUPPORT. The TAP: what its instructions leave, open and closed (R819-R822). -/
namespace Sys2Proof.Machine
open Sys2Proof

section
variable (b : Block) (acc ir : Nat) (f : Block → Block)

theorem Block.closable_open (h : b.access acc = true) : b.closable acc ir f = f (b.tap ir 0) := if_pos h

theorem Block.closable_closed (h : b.access acc = false) : b.closable acc ir f = b.bypass :=
  if_neg (h ▸ Bool.false_ne_true)

end

section
variable {s : State} {now : Ft} {b : Block}

/-- A closed instruction acts as BYPASS, whatever it would do open. -/
theorem State.tap_closed (acc ir : Nat) (f : Block → Block) (h : s.readyAt now b) (hacc : b.access acc = false) :
    (s.on fun y => (y.advance now).closable acc ir f) = .next (s.done b.bypass) :=
  State.on_at h fun y hy => by rw [hy, b.closable_closed acc ir f hacc]

/-- An open one acts on the instruction register it loaded. -/
theorem State.tap_open (acc ir : Nat) (f : Block → Block) (h : s.readyAt now b) (hacc : b.access acc = true) :
    (s.on fun y => (y.advance now).closable acc ir f) = .next (s.done (f (b.tap ir 0))) :=
  State.on_at h fun y hy => by rw [hy, b.closable_open acc ir f hacc]

end

/-- The secrets of a zeroised block (R759). -/
theorem Block.secrets_zeroise (b : Block) : b.zeroise.lfc.secrets = Secrets.zero := by
  rw [Block.zeroise, Block.lfc_setFld]

theorem Block.fld_zeroise (b : Block) : b.zeroise.fld F.BTC_STATUS_zeroised = 1 := by
  rw [Block.zeroise, Block.fld_setFld _ _ _ (by decide)]
  decide

/-- Settles O36, instruction by instruction. -/
theorem tapCommandsComplete : Obligations.TapCommandsComplete := by
  unfold Obligations.TapCommandsComplete
  refine ⟨fun s => ?reset, fun s => ?idcode, fun s => ?bypass, fun s pins load => ?sample,
    fun s pins load => ?extest, ?scan, ?mbist, ?fuse, ?ceiling, ?lc, ?reg, ?closed⟩
  case reset =>
    show execTapReset s = _
    exact State.always_at rfl
  case idcode =>
    show execIdcode s = _
    exact State.always_at rfl
  case bypass =>
    show execBypass s = _
    exact State.always_at rfl
  case sample =>
    show execSamplePreload pins load s = _
    exact State.always_at rfl
  case extest =>
    show execExtest pins load s = _
    exact State.always_at rfl
  case scan =>
    rintro s now b c zero h rfl
    refine ⟨?_, Block.secrets_zeroise _, Block.fld_zeroise _⟩
    show execScanEnter zero now s = _
    cases hacc : b.access 1
    · rw [if_pos rfl]
      exact State.tap_closed 1 0x10 _ h hacc
    · rw [if_neg nofun]
      exact State.tap_open 1 0x10 _ h hacc
  case mbist =>
    intro s now b unrep rows cols h hacc
    refine ⟨_, _, _, _, _, _, _, _, rfl, rfl, rfl, rfl, rfl, ?_⟩
    exact State.tap_open 2 0x11 _ h hacc
  case fuse =>
    rintro s now b entry key r h hacc rfl
    exact State.tap_open 3 0x12 _ h hacc
  case ceiling =>
    intro s now b c value h hacc
    exact State.tap_open 7 0x13 _ h hacc
  case lc =>
    intro s now b op record h hacc
    exact State.tap_open 0 0x14 _ h hacc
  case reg =>
    intro s now b off write wide data syn act h hacc
    obtain ⟨a, ha⟩ : ∃ a, a = if write = true then b.tap 0x15 0 else (b.tap 0x15 0).sampleFor off.val act := ⟨_, rfl⟩
    obtain ⟨⟨v, code, c⟩, hr⟩ : ∃ r, r = a.tapAccess off.val write wide data.toNat syn.toNat := ⟨_, rfl⟩
    refine ⟨v, code, a, c, ha, hr, ?_⟩
    show execRegAccess off write wide data syn ⟨act, now⟩ s = _
    refine State.live_at h fun y hy => ?_
    simp only [hy, b.closable_open 4 0x15 _ hacc, ← ha, ← hr]
  case closed =>
    intro s now b h
    refine ⟨fun unrep rows cols hacc => ?_, fun entry key hacc => ?_, fun c value hacc => ?_, fun op record hacc => ?_,
      fun off write wide data syn act hacc => ?_⟩
    · exact State.tap_closed 2 0x11 _ h hacc
    · exact State.tap_closed 3 0x12 _ h hacc
    · exact State.tap_closed 7 0x13 _ h hacc
    · exact State.tap_closed 0 0x14 _ h hacc
    · show execRegAccess off write wide data syn ⟨act, now⟩ s = _
      refine State.live_at h fun y hy => ?_
      rw [hy, b.closable_closed 4 0x15 _ hacc]

end Sys2Proof.Machine
end

section
/-! SUPPORT. The management port (R809-R818): SMBus, MCTP control, vendor messages and the board's converters. -/
namespace Sys2Proof.Machine
open Sys2Proof

section
variable {s : State} {now : Ft} {b x : Block} {f : Block → Block}

/-- A command of the management port whose own condition holds. -/
theorem State.mgmt_when {c : Block → Bool} (h : s.mgmtReady now b) (hc : c b = true) (hf : f b = x) :
    (s.mgmt now fun y => y.when (c y) f) = .next (s.done x) :=
  State.mgmt_eq h (by rw [Block.when_pos hc, hf])

end

section
variable (b : Block)

theorem Block.arbitrationLost_early (h : b.mpu.arbLost < 15) :
    b.arbitrationLost = { b.setFld F.MPU_STATUS_arb_lost_seen 1 with
      mpu := { (b.setFld F.MPU_STATUS_arb_lost_seen 1).mpu with
        arbLost := (b.setFld F.MPU_STATUS_arb_lost_seen 1).mpu.arbLost + 1 } } := by
  rw [Block.arbitrationLost, Block.mpu_setFld, if_pos h]

/-- A packet message of the right size finds room. -/
theorem Block.vendorPacket_taken (eid seq : Nat) (entry payload : List Byte) (hentry : entry.length = 64)
    (hpayload : payload.length ≤ 4096) (hroom : (b.outstandingOf (64 + eid)).length < 4) :
    b.vendorPacket eid seq entry payload = b.takePacket ⟨64 + eid, entry, 0, some payload, b.now, seq⟩ := by
  rw [Block.vendorPacket, if_neg (by omega), if_neg (by omega)]

/-- The first chunk of a boot image, while the ROM waits. -/
theorem Block.bootChunk_first (eid seq : Nat) (last : Bool) (data : List Byte) (hmin : 8 ≤ data.length)
    (hmax : data.length ≤ 4096) (hmod : data.length % 8 = 0) (hwait : b.flag F.FWC_STATUS_rom_wait = true)
    (hpend : b.fwc.bootPend = false) (hbusy : b.flag F.MPU_STATUS_boot_busy = false) :
    b.bootChunk eid seq 0 last data =
      ((({ b with fwc := { b.fwc with bootMgmt := data, bootPend := last } } : Block).setFld F.MPU_STATUS_boot_busy
        1).setFld F.FWC_BOOT_CTRL_result 1).bootAnswer eid seq 0 := by
  have hshape : ¬ (data.length < 8 ∨ 4096 < data.length ∨ data.length % 8 ≠ 0) := by omega
  have hfits : ¬ ((0 : Nat) ≠ 0 ∨ 524288 < 0 + data.length ∨ False) := by
    rw [or_false]
    omega
  unfold Block.bootChunk
  simp only [if_neg hshape, hwait, hpend, hbusy, Bool.not_true, Bool.false_and, Bool.false_eq_true, if_false, if_neg hfits,
    List.nil_append]

end

/-- Settles O35, command by command. -/
theorem managementCommandsComplete : Obligations.ManagementCommandsComplete := by
  unfold Obligations.ManagementCommandsComplete
  refine ⟨?ara, ?timeout, ?pec, ?arb, ?unsupported, ?setEid, ?getEid, ?version, ?types, ?vendor, ?other, ?packet, ?read,
    ?write, ?boot, ?malformed, ?poll, ?alert, ?clr⟩
  case ara =>
    intro s now b h hen hpend
    show execAlertResponse now s = _
    exact State.mgmt_when h (by rw [hen, hpend]; rfl) rfl
  case timeout =>
    intro s now b h
    show execSmbusTimeout now s = _
    exact State.mgmt_eq h rfl
  case pec =>
    intro s now b h
    show execPecError now s = _
    exact State.mgmt_eq h rfl
  case arb =>
    intro s now b h hmsg hcount
    refine ⟨_, rfl, ?_⟩
    show execSmbusArbitrationLost now s = _
    exact State.mgmt_when h hmsg (b.arbitrationLost_early hcount)
  case unsupported =>
    intro s now b h
    show execSmbusUnsupportedTransaction now s = _
    exact State.mgmt_eq h rfl
  case setEid =>
    intro s now b src eid inst op h hop h0 h255
    show execMctpSetEndpointId src inst op eid now s = _
    refine State.mgmt_eq h ?_
    rw [if_neg (by omega)]
  case getEid =>
    intro s now b src inst h
    show execMctpGetEndpointId src inst now s = _
    exact State.mgmt_eq h rfl
  case version =>
    intro s now b src type inst h htype
    show execMctpGetVersionSupport src inst type now s = _
    refine State.mgmt_eq h ?_
    rw [htype, if_pos (by decide)]
  case types =>
    intro s now b src inst h
    show execMctpGetMessageTypeSupport src inst now s = _
    exact State.mgmt_eq h rfl
  case vendor =>
    intro s now b src selector inst h hsel
    obtain ⟨⟨set, c⟩, hr⟩ : ∃ r, r = b.freeBytes 2 := ⟨_, rfl⟩
    refine ⟨set, c, hr, ?_⟩
    show execMctpGetVendorSupport src inst selector now s = _
    refine State.mgmt_eq h ?_
    rw [if_neg (not_not_intro hsel), ← hr]
  case other =>
    intro s now b src command inst h hserved
    show execMctpUnsupportedCommand src inst command now s = _
    exact State.mgmt_when (c := fun _ => !mctpServed.contains command.toNat) h (by rw [hserved]; rfl) rfl
  case packet =>
    intro s now b eid seq entry payload h heid hentry hpayload hroom
    show execPacket eid seq entry payload now s = _
    exact State.mgmt_when h heid (b.vendorPacket_taken _ _ entry payload hentry hpayload hroom)
  case read =>
    intro s now b c eid seq width syn off act v h hacc heid hshape hread
    show execRegRead eid seq off width syn ⟨act, now⟩ s = _
    refine State.live_at h fun y hy => ?_
    simp only [hy, Block.when, hacc, heid, Bool.and_self, if_true, Block.vendorRead, hshape, hread]
  case write =>
    intro s now b c eid seq width off value h heid hshape hwrite
    show execRegWrite eid seq off width value now s = _
    refine State.mgmt_when h heid ?_
    simp only [Block.vendorWrite, hshape, if_true, hwrite]
  case boot =>
    intro s now b eid seq last data h heid hmin hmax hmod hwait hpend hbusy
    show execBootChunk eid seq 0 last data now s = _
    exact State.mgmt_when h heid (b.bootChunk_first _ _ last data hmin hmax hmod hwait hpend hbusy)
  case malformed =>
    intro s now b eid cmd seq h heid
    show execMalformedVendorMessage eid cmd seq now s = _
    exact State.mgmt_when h heid rfl
  case poll =>
    intro s now b reads h hnow
    show execPmbusPoll reads now s = _
    exact State.mgmt_when (c := fun y => y.now % 16777216 == 0) h (beq_iff_eq.mpr hnow) rfl
  case alert =>
    intro s now b status h
    show execPmbAlert status now s = _
    exact State.mgmt_eq h rfl
  case clr =>
    intro s now b k h
    show execConverterClr k now s = _
    exact State.mgmt_eq h rfl

end Sys2Proof.Machine
end

section
/-! SUPPORT. Power states (R731-R738), memory errors and fuse operations (R750-R757, R766-R776). -/
namespace Sys2Proof.Machine
open Sys2Proof

/-! ## A setting with no rival (R293) -/

/-- The settings that a packet stores at once are a frequency mode or the cooling (R642, R645). -/
theorem Pkt.code_nowKeys (p : Pkt) : ∀ q ∈ p.nowKeys, q.1 = 0x20 ∨ q.1 = 0x21 := by
  intro q hq
  unfold Pkt.nowKeys at hq
  split at hq
  next hop =>
    simp only [Pkt.keys, hop, List.mem_map] at hq
    obtain ⟨n, -, rfl⟩ := hq
    exact Or.inl rfl
  next =>
    split at hq
    · rw [List.mem_singleton] at hq
      exact Or.inr (hq ▸ rfl)
    · cases hq
  next => cases hq

theorem overlap_eq_false {l keys : List (Nat × Nat)} (h : ∀ q ∈ l, q ∉ keys) : overlap l keys = false := by
  rw [overlap, List.any_eq_false]
  intro q hq
  rw [List.contains_iff_mem]
  exact h q hq

section
variable (b : Block) (keys : List (Nat × Nat)) (rank k ft old new : Nat) (hkeys : ∀ p : Pkt, overlap p.nowKeys keys = false)
include hkeys

/-- No packet waits for the setting, and none stored it. -/
theorem Block.displace_none : b.displace keys k (fun _ => false) = ([], b) := by
  have hnone {α : Type} (l : List α) : l.filter (fun _ => false) = [] :=
    List.filter_eq_nil_iff.mpr fun _ _ => Bool.false_ne_true
  simp only [Block.displace, hkeys, Bool.and_false, Bool.false_and, Bool.or_false, Bool.false_eq_true, if_false,
    List.map_id', hnone, List.map_nil]

/-- The only request of its setting stands. -/
theorem Block.contend_alone (hclaims : b.hiu.claims = []) :
    b.contend keys rank k ft old new (fun _ => false) = (true, { b with hiu := { b.hiu with
      claims := keys.map fun q => ⟨q.1, q.2, rank, k, old, new⟩ } }) := by
  simp only [Block.contend, hclaims, b.displace_none keys k hkeys, List.find?_nil, List.filter_nil, List.map_nil,
    List.append_nil, List.isEmpty_nil, if_true, Option.map_none, Option.getD_none, List.nil_append]

end

/-- A target that no other master asked for in this tick, in a state that does not change (R732). -/
theorem Block.writeTarget_alone (b : Block) (rank value : Nat) (hvalue : value ≠ 3) (hclaims : b.hiu.claims = [])
    (hphase : b.power.phase = .rest) :
    b.writeTarget rank value = (({ b with hiu := { b.hiu with
      claims := [⟨0x105, 0, rank, b.tick, b.fld F.HUB_PSTATE_CTRL_target, value⟩] } } : Block).setFld
        F.HUB_PSTATE_CTRL_target value).actTarget := by
  have hkeys (p : Pkt) : overlap p.nowKeys [(0x105, 0)] = false := overlap_eq_false fun q hq hmem => by
    rw [List.mem_singleton] at hmem
    have hcode := p.code_nowKeys q hq
    rw [hmem] at hcode
    omega
  have hwake : ¬ PsPhase.rest = PsPhase.wake := nofun
  simp only [Block.writeTarget, if_neg hvalue, b.contend_alone _ _ _ _ _ _ hkeys hclaims, Block.power_setFld, hphase,
    if_neg hwake, List.map_cons, List.map_nil]

/-- Settles O33, command by command. -/
theorem powerCommandsComplete : Obligations.PowerCommandsComplete := by
  unfold Obligations.PowerCommandsComplete
  refine ⟨?target, ?drained, ?reached, ?switch, ?start, ?exit, ?core⟩
  case target =>
    intro s now b by_ value h hvalue hclaims hphase
    show execPstateTarget by_ value now s = _
    refine State.on_at h fun y hy => ?_
    rw [hy, b.writeTarget_alone _ _ hvalue hclaims hphase]
  case drained =>
    intro s now b h hphase hbusy hout
    show execIdleGatedDrained now s = _
    refine State.on_at h fun y hy => ?_
    simp only [hy, hphase, hbusy, hout, Block.when, beq_self_eq_true, Bool.not_false, Bool.and_self, if_true]
  case reached =>
    intro s now b h hphase hrest
    show execIdleGatedReached now s = _
    refine State.on_at h fun y hy => ?_
    simp only [hy, hphase, hrest, Block.when, beq_self_eq_true, Bool.and_self, if_true]
  case switch =>
    intro s now b h hphase hdown
    refine ⟨_, rfl, ?_⟩
    show execDeepEntrySwitch now s = _
    refine State.on_at h fun y hy => ?_
    simp only [hy, hphase, hdown, Block.when, beq_self_eq_true, Bool.and_self, if_true]
  case start =>
    intro s now b dom h hstart hdue hoff hiso hlink hlife
    show execDeepExitDomainStart dom now s = _
    refine State.on_at h fun y hy => ?_
    have hgo (c : Block) (hc : c = b.setPower { b.power with toStart := b.power.toStart.filter (· != dom.val) }) :
        ¬ (c.vstate dom.val = Vs.failed ∨ c.isoDom dom.val = true ∨ (!c.linkUp (dieOfDom dom.val)) = true ∨
          c.fld F.LFC_LC_state = 5) := by
      have hv : c.vstate dom.val = Vs.off := hc ▸ hoff
      have hi : c.isoDom dom.val = false := hc ▸ hiso
      have hl : c.linkUp (dieOfDom dom.val) = true := hc ▸ hlink
      have hf : c.fld F.LFC_LC_state ≠ 5 := hc ▸ hlife
      simp [hv, hi, hl, hf, Vs.off, Vs.failed]
    simp only [hy, hstart, hdue, Block.when, decide_true, Bool.and_self, if_true]
    rw [if_neg (hgo _ rfl)]
    rfl
  case exit =>
    intro s now b h hphase hstart hwake
    refine ⟨_, rfl, ?_⟩
    show execDeepExitComplete now s = _
    refine State.on_at h fun y hy => ?_
    simp only [hy, hphase, hstart, hwake, Block.when, beq_self_eq_true, Bool.and_self, if_true]
  case core =>
    intro s now t b h huncore htime himage hcore hphase hstate hstart
    refine ⟨_, rfl, ?_⟩
    show execCoreDomainStart now s = _
    refine State.on_at h fun y hy => ?_
    simp only [hy, huncore, htime, himage, hcore, hphase, hstate, hstart, Block.when, beq_self_eq_true, Bool.true_or,
      Bool.not_false, Bool.and_self, if_true]

end Sys2Proof.Machine
end

section
/-! SUPPORT. Memory errors, page retirement and fuse operations (R750-R757, R766-R776). -/
namespace Sys2Proof.Machine
open Sys2Proof

section
variable (b : Block) (sram : Nat)

/-- A corrected error that no injection caused, at the address of a word. -/
theorem Block.eccCorrected_organic (addr syn by_ : Nat) (h : b.eccStim sram 0 = false) :
    b.eccCorrected sram (addr / 8 * 8) syn by_ =
      (let c := (b.eccLog sram 1 by_ syn (addr / 8 * 8)).setFld F.BTC_ECC_STATUS_ce_seen 1
      ({ c with btc := { c.btc with weak := c.btc.weak.filter (· != (sram, addr / 8 * 8)) } } : Block).sramFault 0
        sram) := by
  have hword : addr / 8 * 8 / 8 * 8 = addr / 8 * 8 := by omega
  simp only [Block.eccCorrected, h, Bool.false_eq_true, if_false, hword, Block.injecting]

/-- A page that is in the SRAM, not retired yet, with a spare page left. -/
theorem Block.pageRetire_taken (page k : Nat) (hbusy : b.flag F.BTC_RETIRE_STATUS_busy = false)
    (hpage : 4096 * page < sramSize sram)
    (hnew : (spares sram).any (fun k => b.flag (F.BTC_RETIRE_valid k) && b.fld (F.BTC_RETIRE_page k) == page) = false)
    (hspare : (spares sram).find? (fun k => !b.flag (F.BTC_RETIRE_valid k)) = some k) :
    b.pageRetire sram page =
      ({ b with btc := { b.btc with copy := some (sram, page, k) } }).setFld F.BTC_RETIRE_STATUS_busy 1 := by
  have hsome : ¬ ((spares sram).isEmpty = true ∨ sramSize sram ≤ 4096 * page) := by
    rintro (hnil | hle)
    · rw [List.isEmpty_iff.mp hnil] at hspare
      cases hspare
    · omega
  simp only [Block.pageRetire, hbusy, Bool.false_eq_true, if_false, if_neg hsome, hnew, hspare]

end

/-- Settles O34, command by command. -/
theorem memoryAndFuseCommandsComplete : Obligations.MemoryAndFuseCommandsComplete := by
  unfold Obligations.MemoryAndFuseCommandsComplete
  refine ⟨?corrected, ?uncorrectable, ?scrub, ?retire, ?copied, ?ceiling, ?fuse, ?effect⟩
  case corrected =>
    intro s now b sram addr syn copy h haddr hstim
    refine ⟨_, rfl, ?_⟩
    show execEccCorrected sram addr syn copy now s = _
    refine State.on_at h fun y hy => ?_
    simp only [hy, Block.when, haddr, decide_true, if_true, b.eccCorrected_organic sram.val addr _ _ hstim]
  case uncorrectable =>
    rintro s now b c d sram addr syn copy who part h haddr rfl rfl
    show execEccUncorrectable sram addr syn copy who part now s = _
    refine State.on_at h fun y hy => ?_
    simp only [hy, Block.when, haddr, decide_true, if_true]
  case scrub =>
    intro s now b sram addr syn part h hen haddr
    show execPatrolScrub sram addr (2, syn) part now s = _
    refine State.on_at h fun y hy => ?_
    simp only [hy, Block.when, hen, haddr, decide_true, Bool.and_self, if_true]
    rfl
  case retire =>
    intro s b sram page k h hbusy hpage hnew hspare
    show execPageRetire sram page s = _
    exact State.on_eq h (b.pageRetire_taken sram.val page.val k hbusy hpage hnew hspare)
  case copied =>
    intro s now b sram page k h hcopy
    refine ⟨_, rfl, ?_⟩
    show execPageRetireComplete now s = _
    refine State.on_at h fun y hy => ?_
    simp only [hy, hcopy]
  case ceiling =>
    intro s now b op c value ok h hop hkind
    show execCeilingProgramComplete ok now s = _
    refine State.on_at h fun y hy => ?_
    simp only [hy, hop, hkind]
  case fuse =>
    intro s now b op ok readback h hop
    show execFuseOpComplete ok readback now s = _
    refine State.on_at h fun y hy => ?_
    simp only [hy, hop]
  case effect =>
    intro s b op target at_ ok h hdue hkind htick
    show execLcTransitionEffect s = _
    refine State.on_eq h ?_
    simp only [hdue, hkind, Block.when_pos (Nat.blt_eq.mpr htick)]

end Sys2Proof.Machine
end

section
/-! SUPPORT. Clocks, sources, gates and crossings (R687-R719). -/
namespace Sys2Proof.Machine
open Sys2Proof

section
variable (b c : Block)

/-- An armed injection is the Fault Collector's own state. -/
theorem Block.stim_congr (h : c.fc = b.fc) (det inst : Nat) : c.stim det inst = b.stim det inst := by
  rw [Block.stim, Block.stim, h]

theorem Block.fc_setSat (f : Fld) (v : Nat) : (b.setSat f v).fc = b.fc := Block.fc_setFld _ _ _

theorem Block.fc_setFldS (f : Fld) (v : Int) : (b.setFldS f v).fc = b.fc := Block.fc_setFld _ _ _

theorem Block.fc_showAlt : b.showAlt.fc = b.fc := Block.fc_setFld _ _ _

/-! ## The result of a monitor window (R687, R688) -/

/-- What a window shows of its source, before it is judged. -/
def Block.shownWindow (b : Block) (m count : Nat) : Block :=
  let c := (b.setFldS (F.CTU_MON_dev m) ((count : Int) - 65536)).setFld (F.CTU_MON_stopped m) 0
  if m = 2 then c.showAlt.setSat F.CTU_RING_ring_khz (count * 4000000 / 65536) else c

theorem Block.fc_shownWindow (m count : Nat) : (b.shownWindow m count).fc = b.fc := by
  unfold Block.shownWindow
  split
  · rw [Block.fc_setSat, Block.fc_showAlt, Block.fc_setFld, Block.fc_setFldS]
  · rw [Block.fc_setFld, Block.fc_setFldS]

/-- A count outside a range is below or above it. -/
theorem outside_range (lo hi count : Nat) :
    (decide (count < lo) || decide (hi < count)) = !decide (lo ≤ count ∧ count ≤ hi) := by
  rw [← decide_not, ← Bool.decide_or]
  exact decide_eq_decide.mpr (by omega)

/-! ## The references -/

/-- A request to return does not change which reference is the best. -/
theorem Block.bestRef_retReq (v : Nat) : (b.setFld F.CTU_CLK_CTRL_ret_req v).bestRef = b.bestRef := by
  have hq (src : Nat) : (b.setFld F.CTU_CLK_CTRL_ret_req v).qualified src = b.qualified src := by
    rw [Block.qualified, Block.fld_setFld_off _ _ _ _ (by decide), Block.qualified]
  have hflag (f : Fld) (hf : f.lo + f.width ≤ 3) : (b.setFld F.CTU_CLK_CTRL_ret_req v).flag f = b.flag f := by
    rw [Block.flag, Block.fld_setFld_disjoint _ _ _ _ (by omega) (Or.inr (Or.inl hf)), Block.flag]
  have hen (src : Nat) : (b.setFld F.CTU_CLK_CTRL_ret_req v).srcEnabled src = b.srcEnabled src := by
    simp only [Block.srcEnabled, hflag F.CTU_CLK_CTRL_src0_en (by decide), hflag F.CTU_CLK_CTRL_src1_en (by decide)]
  simp only [Block.bestRef, hq, hen]

/-- With no reference in use, a request to return takes the best one (R696). -/
theorem Block.retReq_first (r : Nat) (hbest : b.bestRef = some r) (hnone : b.clk.ref = none) :
    b.retReq = (b.setFld F.CTU_CLK_CTRL_ret_req 1).preferBetter := by
  simp only [Block.retReq, b.bestRef_retReq, hbest, Block.clk_setFld, hnone, if_true]

end

/-- Settles O32, command by command. -/
theorem clockCommandsComplete : Obligations.ClockCommandsComplete := by
  unfold Obligations.ClockCommandsComplete
  refine ⟨?window, ?stop, ?lock, ?ret, ?island, ?close, ?open_, ?crossing, ?pulse⟩
  case window =>
    rintro s now b c d m count h hstim rfl rfl
    show execMonitorWindow m count now s = _
    refine State.on_at h fun y hy => ?_
    have hnone : (b.shownWindow m.val count).stim 6 m.val = none := by
      rw [b.stim_congr _ (b.fc_shownWindow _ _), hstim]
    unfold Block.shownWindow at hnone
    simp only [hy, hnone, Option.isSome_none, Bool.false_eq_true, if_false, Bool.false_or, true_and,
      Block.injecting, outside_range, Bool.not_eq_true', decide_eq_false_iff_not, ite_not, Bool.not_false]
  case stop =>
    intro s now b src h hrun
    show execSourceStop src now s = _
    refine State.on_at h fun y hy => ?_
    simp only [hy, hrun, Block.when, Bool.not_false, if_true]
  case lock =>
    intro s now b r h href hqual hen hlock hroot hcmd
    show execRootPllLock true now s = _
    refine State.on_at h fun y hy => ?_
    have hroot' : (b.setFld F.CTU_CLK_STATUS_pll_lock 1).flag F.HUB_BOOT_STATUS_root_pll = false := by
      rw [Block.flag, Block.fld_setFld_off _ _ _ _ (by decide)]
      exact hroot
    have hcmd' : (b.setFld F.CTU_CLK_STATUS_pll_lock 1).rootCmd.1 = 2 := hcmd
    simp only [hy, href, hqual, hen, hlock, Block.when, Bool.not_false, Bool.and_self, if_true, hroot', hcmd', ne_eq,
      not_true_eq_false, Bool.false_eq_true, or_self, if_false]
  case ret =>
    intro s b r h hbest hnone
    show execRetReq s = _
    exact State.on_eq h (b.retReq_first r hbest hnone)
  case island =>
    intro s b island h hstop h1 h2 hmore
    show execIslandSwitchComplete island s = _
    refine State.on_eq h ?_
    have hmore' (c : Block) (hc : c.clk.stopped = b.clk.stopped.filter (· != island.val)) :
        ¬ c.clk.stopped.isEmpty = true := by
      rw [hc, hmore]
      exact Bool.false_ne_true
    rw [Block.when_pos hstop]
    simp only [if_neg h1, h2, false_and, if_false]
    rw [if_neg (hmore' _ ?_)]
    unfold Block.showIsl
    split <;> rfl
  case close =>
    intro s now b node die h hnode hen hidle
    show execGateClose node die now s = _
    refine State.on_at h fun y hy => ?_
    simp only [hy, if_neg hnode, hen, hidle, Block.when, Bool.not_false, Bool.and_self, if_true, Block.showGateBit]
  case open_ =>
    intro s now b node die h hnode huse
    show execGateOpen node die now s = _
    refine State.on_at h fun y hy => ?_
    simp only [hy, if_neg hnode, huse, Block.when, Bool.true_or, if_true, Block.showGateBit]
  case crossing =>
    intro s now b crossing h hvalid hdest hstim
    show execCdcAgreementTimeout crossing now s = _
    refine State.on_at h fun y hy => ?_
    simp only [hy, hvalid, hdest, hstim, Block.when, Bool.true_or, Bool.not_false, Bool.and_self, if_true,
      Option.isSome_none, Bool.false_eq_true, if_false, Block.injecting]
  case pulse =>
    intro s now b crossing h hvalid
    show execPulseCountOverflow crossing now s = _
    refine State.on_at h fun y hy => ?_
    rw [hy, Block.when_pos hvalid]

end Sys2Proof.Machine
end

section
/-! SUPPORT. Telemetry, traces, the wait-for graph and the global stop (R660-R683). -/
namespace Sys2Proof.Machine
open Sys2Proof

section
variable (b : Block)

/-- A VC3 message leaves its Relay; fabric time is the same. -/
theorem Block.now_popVc3 (die : Nat) (m : Vc3) (rest : List Vc3) : (b.popVc3 die m rest).now = b.now := rfl

theorem Block.sendVc3_sent {c : Block} (die : Nat) (m : Vc3) (rest : List Vc3)
    (h : b.sbLows die 3 (m.source die) m.flits = some c) : b.sendVc3 die m rest = some (c.popVc3 die m rest) := by
  rw [Block.sendVc3, h, Option.map_some]

/-- The oldest boundary record of a Post goes up, with no digest before it (R669). -/
theorem Block.postTrace_sent {c : Block} (t : Nat) (r : TraceRec) (rest : List TraceRec)
    (htrace : (b.post t).trace = r :: rest) (hclear : b.pnClear t 4 = true)
    (hdigs : (b.post t).digs.any (fun x => decide (x.ft ≤ r.ft)) = false) (hup : b.upFlits t 4 r.flits = some c) :
    b.postTrace t =
      (let d := c.setPost t { c.post t with trace := rest }
      (if (d.flag F.TTU_CTRL_trace_fwd && !d.hopDrops t) = true then d.relayTrace (dieOfTile t) (.boundary r) 3
        else d).sendDigs t) := by
  simp only [Block.postTrace, htrace, hclear, hdigs, hup, Bool.not_true, Bool.or_false, Bool.false_eq_true, if_false]

/-! ## The cut of a global stop (R681) -/

variable (items : List CapItem)

theorem Block.fld_stopCut : (b.stopCut items).fld F.TTU_STOP_STATUS_state = 2 := by
  rw [Block.stopCut, Block.fld_setFld_disjoint _ _ _ _ (by decide) (by decide),
    Block.fld_setFld_disjoint _ _ _ _ (by decide) (by decide), Block.fld_setFld _ _ _ (by decide)]
  decide

theorem Block.capture_stopCut : (b.stopCut items).ttu.capture = (items.take 16382).map CapItem.bytes := by
  simp only [Block.stopCut, Block.ttu_setFld]

end

/-- Settles O31, command by command. -/
theorem telemetryCommandsComplete : Obligations.TelemetryCommandsComplete := by
  unfold Obligations.TelemetryCommandsComplete
  refine ⟨?interval, ?post, ?relay, ?digest, ?graph, ?arm, ?cut⟩
  case interval =>
    rintro s now b c ring i h rfl hended hlate
    show execTelemetryIntervalEnd ring now s = _
    refine State.on_at h fun y hy => ?_
    simp only [hy, hended, Block.when_pos (Nat.ble_eq.mpr hlate)]
  case post =>
    intro s b c die t r rest h hpow htrace hclear hdigs hup
    refine ⟨_, rfl, ?_⟩
    show execTraceRecord die (some t) s = _
    refine State.on_eq h ?_
    simp only [Block.when_pos hpow]
    exact b.postTrace_sent t.val r rest htrace hclear hdigs hup
  case relay =>
    intro s b c die r rest h hvc3 hsent
    show execTraceRecord die none s = _
    refine State.on_eq h ?_
    simp only [hvc3, b.sendVc3_sent die.val (.boundary r) rest hsent, Block.now_popVc3]
  case digest =>
    intro s b c die r rest h hvc3 hsent
    show execDigestRecord die s = _
    refine State.on_eq h ?_
    simp only [hvc3, b.sendVc3_sent die.val (.digest r) rest hsent, Block.now_popVc3]
  case graph =>
    intro s b h hcore htick hnow
    show execWfgBuild s = _
    refine State.on_eq h ?_
    simp only [hcore, htick, hnow, Block.when, beq_self_eq_true, Bool.and_self, if_true]
  case arm =>
    intro s b h hidle
    show execStopArm s = _
    exact State.on_eq h (if_pos hidle)
  case cut =>
    intro s now b items h harmed hdue
    have hrun : execGlobalStopCut items now s = .next (s.done (b.stopCut items)) := by
      refine State.on_at h fun y hy => ?_
      simp only [hy, harmed, Block.when, beq_self_eq_true, Nat.ble_eq.mpr hdue, Bool.and_self, if_true]
    refine ⟨_, hrun, ?_, ?_⟩
    · show (b.stopCut items).settle.fld _ = _
      rw [Block.fld_settle, Block.fld_stopCut]
    · show (b.stopCut items).settle.ttu.capture = _
      rw [Block.ttu_settle, Block.capture_stopCut]

end Sys2Proof.Machine
end

section
/-! SUPPORT. The commands of a Post (R122-R133, R354). -/
namespace Sys2Proof.Machine
open Sys2Proof

/-- Settles O5, command by command. -/
theorem postCommandsComplete : Obligations.PostCommandsComplete := by
  unfold Obligations.PostCommandsComplete
  refine ⟨?latch, ?launch, ?last, ?earlier, ?segment, ?hold, ?publication, ?power⟩
  case latch =>
    intro s b tile act reading h hruns hclosing
    show execPostTickLatch tile act reading s = _
    exact State.on_eq h (Block.when_pos (by rw [hruns, hclosing]; rfl))
  case launch =>
    intro s now b tile tag act g h hruns hgate hgrant
    refine ⟨_, rfl, ?_⟩
    show execCommandLaunch tile tag act false now s = _
    refine State.on_at h fun y hy => ?_
    simp only [hy, hruns, hgate, hgrant, Bool.and_self, Bool.false_eq_true, if_false]
  case last =>
    intro s now b tile act h hruns hone
    refine ⟨_, rfl, ?_⟩
    show execCommandCompletion tile act false now s = _
    refine State.on_at h fun y hy => ?_
    rw [hy, Block.when_pos (by rw [hruns, hone]; rfl), hone, if_neg (Nat.lt_irrefl 1), if_neg Bool.false_ne_true]
  case earlier =>
    intro s now b tile act atLatch h hruns hmore
    show execCommandCompletion tile act atLatch now s = _
    refine State.on_at h fun y hy => ?_
    rw [hy, Block.when_pos (by rw [hruns, decide_eq_true (by omega)]; rfl), if_pos hmore]
  case segment =>
    intro s b tile h hruns
    show execSegmentAdd tile s = _
    exact State.on_eq h (Block.when_pos hruns)
  case hold =>
    intro s b tile h hhold hticks
    show execSnapHoldExpiry tile s = _
    exact State.on_eq h (Block.when_pos (by rw [hhold, decide_eq_true hticks]; rfl))
  case publication =>
    intro s now b c tile flip pub rest h hruns hpubs hcarry
    show execWeightPublication tile flip now s = _
    refine State.on_at h fun y hy => ?_
    simp only [hy, hruns, hpubs, hcarry]
  case power =>
    intro s b tile h hmay
    show execPostPowerUp tile s = _
    exact State.on_eq h (Block.when_pos hmay)

end Sys2Proof.Machine
end

section
/-! SUPPORT. Boot and live update (R564-R575), and the fetch of a ring's entry (R594). -/
namespace Sys2Proof.Machine
open Sys2Proof

/-- All four supervised cores are at a state. -/
theorem all_cores_at {b : Block} {st : Nat} (h : ∀ c < 4, b.coreState c = st) :
    ((List.range 4).all fun c => b.coreState c == st) = true :=
  List.all_eq_true.mpr fun c hc => beq_iff_eq.mpr (h c (List.mem_range.mp hc))

/-- Settles O20, command by command. -/
theorem updateCommandsComplete : Obligations.UpdateCommandsComplete := by
  unfold Obligations.UpdateCommandsComplete
  refine ⟨?go, ?checked, ?auth, ?parked, ?reflected, ?entered, ?adopted, ?abandoned⟩
  case go =>
    intro s b h hwait hpend hbusy hlock
    show execBootGo s = _
    refine State.on_eq h ?_
    rw [Block.bootGo, Block.when_pos (by rw [hwait, hpend, hbusy]; rfl), if_pos hlock]
  case checked =>
    intro s now b l h hpend hwait hbusy
    refine ⟨_, rfl, ?_⟩
    show execBootImageChecked (some l) now s = _
    refine State.on_at h fun y hy => ?_
    simp only [hy, hpend, hwait, hbusy, Block.when, Bool.and_self, if_true, Bool.false_eq_true, if_false]
  case auth =>
    intro s now b h hstate hlast hsup hcheck
    show execImageAuthenticated now s = _
    refine State.on_at h fun y hy => ?_
    simp only [hy, hstate, hlast, hsup, hcheck, Block.when, beq_self_eq_true, Bool.and_self, if_true]
    rfl
  case parked =>
    intro s b h hstate hsup hcrash hfail
    show execUpdateCoresParked s = _
    exact State.on_eq h (Block.when_pos (by rw [hstate, hsup, hcrash, hfail]; rfl))
  case reflected =>
    intro s b h hstate hsup hcrash hfail
    refine ⟨_, rfl, ?_⟩
    show execReflectionComplete s = _
    exact State.on_eq h (Block.when_pos (by rw [hstate, hsup, hcrash, hfail]; rfl))
  case entered =>
    intro s b h hstate hsup hcores
    show execUpdateCoresEntered s = _
    exact State.on_eq h (Block.when_pos (by rw [hstate, hsup, all_cores_at hcores]; rfl))
  case adopted =>
    intro s now b r img h hstate hsup hnow hcores hpend hrefl
    refine ⟨_, rfl, ?_⟩
    show execUpdateAdopted now s = _
    refine State.on_at h fun y hy => ?_
    simp only [hy, hstate, hsup, Nat.ble_eq.mpr hnow, all_cores_at hcores, hpend, hrefl, Block.when, beq_self_eq_true,
      Bool.and_self, if_true]
  case abandoned =>
    intro s now b h hstate hsup hfail
    refine ⟨_, rfl, ?_⟩
    show execUpdateAbandon true now s = _
    refine State.on_at h fun y hy => ?_
    have hlate : decide (3 ≤ 6) = true := rfl
    have hold : decide (6 ≤ 4) = false := rfl
    simp only [hy, hstate, hsup, hfail, hlate, hold, Block.when, beq_self_eq_true, Bool.and_self, Bool.true_or, Bool.false_and,
      Bool.false_eq_true, if_true, if_false]

/-! ## A fetched entry (R594, Table 15-2)

The model gives the completion the consumer position after the entry (`execPacketFetch` reads it from the advanced
position), the statement the one before it. -/

/-- After reset: core 0 runs, rings 0 and 64 are on with 64 entries each, and ring 0 holds one entry. -/
def oneEntry : Block :=
  [0, 64].foldl (fun b r => (b.setFld (F.HIU_RING_CFG_log2_size r) 6).setFld (F.HIU_RING_CFG_en r) 1)
    (((Block.reset.setCore 0 0).setFld F.FWC_STATUS_rom_wait 0).setFld (F.HIU_RING_PROD_pos 0) 1)

/-- The consumer positions that the accepted packets carry. -/
def acceptedPositions : Host.Outcome State Fault Refusal → List Nat
  | .next t => t.block.hiu.accepted.map (·.subCons)
  | _ => []

/-- The model's run: the NOP in ring 0's first entry is accepted with position 1. -/
theorem acceptedPositions_fetch :
    acceptedPositions (execPacketFetch 0 (some []) none 0 ⟨oneEntry, [], []⟩) = [1] := by decide +kernel

/-- Refutes O21: the packet fetched from ring 0's first entry carries the consumer position 1, not 0. -/
theorem not_ringCommandsComplete : ¬ Obligations.RingCommandsComplete := by
  unfold Obligations.RingCommandsComplete
  rintro ⟨-, -, -, -, hfetch, -⟩
  have hstated := congrArg acceptedPositions (hfetch ⟨oneEntry, [], []⟩ 0 (oneEntry.advance 0) 0 [] none
    ⟨by decide +kernel, by decide +kernel, rfl⟩ (by decide +kernel) (by decide +kernel) (by decide +kernel)
    (by decide +kernel) (by decide +kernel) (by decide +kernel))
  have hrun := acceptedPositions_fetch.symm.trans hstated
  exact absurd hrun (by decide +kernel)

end Sys2Proof.Machine
end

section
/-! SUPPORT. The firmware cores (R549-R563, R576-R580): watchdogs, crashes, debug, dumps and the event log. -/
namespace Sys2Proof.Machine
open Sys2Proof

/-! ## The event log (R552, Table 13-6) -/

section
variable (b : Block)

/-- The ECC state of a memory is not the firmware complex's. -/
theorem Block.fwc_eccWrite (sram addr : Nat) : (b.eccWrite sram addr).fwc = b.fwc := by
  unfold Block.eccWrite
  dsimp only
  split <;> rfl

variable (core : Nat) (ft : Ft)

theorem Block.elog_logEvent : (b.logEvent core ft).fwc.elog = ⟨ft, core, b.fwc.elogSeq⟩ :: b.fwc.elog.take 4095 := by
  simp only [Block.logEvent, Block.fwc_eccWrite, Block.clearSram]

theorem Block.elogAt_logEvent : (b.logEvent core ft).fwc.elogAt = b.fwc.elogAt + 1 := by
  simp only [Block.logEvent, Block.fwc_eccWrite, Block.clearSram]

/-- The new entry stands in the next place of the ring. -/
theorem Block.eventAt_logEvent_same :
    (b.logEvent core ft).fwc.eventAt (b.fwc.elogAt % 4096) = some ⟨ft, core, b.fwc.elogSeq⟩ := by
  have hplace : b.fwc.elogAt % 4096 < b.fwc.elogAt + 1 := Nat.lt_succ_of_le (Nat.mod_le _ _)
  have hfirst : (b.fwc.elogAt + 1 - 1 - b.fwc.elogAt % 4096) % 4096 = 0 := by omega
  rw [FwcS.eventAt, b.elogAt_logEvent, b.elog_logEvent, if_pos hplace, hfirst, List.getElem?_cons_zero]

/-- The other places keep their entries. -/
theorem Block.eventAt_logEvent_ne (k : Nat) (hk : k < 4096) (hne : k ≠ b.fwc.elogAt % 4096) :
    (b.logEvent core ft).fwc.eventAt k = b.fwc.eventAt k := by
  rw [FwcS.eventAt, FwcS.eventAt, b.elogAt_logEvent, b.elog_logEvent]
  by_cases hold : k < b.fwc.elogAt
  · have hnext : (b.fwc.elogAt + 1 - 1 - k) % 4096 = (b.fwc.elogAt - 1 - k) % 4096 + 1 := by omega
    rw [if_pos (Nat.lt_succ_of_lt hold), if_pos hold, hnext, List.getElem?_cons_succ,
      List.getElem?_take_of_lt (by omega)]
  · have hlast : ¬ k < b.fwc.elogAt + 1 := by
      intro hlt
      have : k = b.fwc.elogAt := by omega
      omega
    rw [if_neg hlast, if_neg hold]

end

/-- The fields of an entry's bytes (Table 13-6). -/
theorem LogEv.fields_bytes (e : LogEv) (hcore : e.core < 256) :
    e.bytes.length = 16 ∧ rdAt e.bytes 0 8 = e.ft.toNat ∧ rdAt e.bytes 8 1 = e.core := by
  have hft : e.ft.toNat < 256 ^ 8 := e.ft.isLt
  rw [LogEv.bytes, List.append_assoc]
  refine ⟨by simp [u64, u8], ?_, ?_⟩
  · rw [u64, rdAt_leBytes, Nat.mod_eq_of_lt hft]
  · rw [u64, rdAt_append 8 _ 8 1 _ (Nat.le_refl 8), u8, rdAt_leBytes, Nat.mod_eq_of_lt (by omega)]

/-! ## Debug (R576-R580) -/

section
variable (b : Block) (c : Nat)

theorem Block.haltCore_running (hacc : b.access 4 = true) (hupd : b.updState = 0) (hrun : b.coreState c = 0) :
    b.haltCore c = ((b.setCore c 1).setMapBit F.FWC_DBG_STATUS_halted c true).drainFollow :=
  Block.when_pos (by rw [hacc, hupd, hrun]; rfl)

theorem Block.resumeCore_halted (hc : c ≠ 4) (hhalted : b.coreState c = 1) :
    b.resumeCore c =
      ((((b.setCore c 0).setMapBit F.FWC_DBG_STATUS_halted c false).bindWaiting).wdRestart c).drainFollow := by
  rw [Block.resumeCore, Block.when_pos (beq_iff_eq.mpr hhalted)]
  simp only [if_neg hc]
  rfl

end

/-- Settles O19, command by command. -/
theorem coreCommandsComplete : Obligations.CoreCommandsComplete := by
  unfold Obligations.CoreCommandsComplete
  refine ⟨?service, ?expiry, ?crash, ?again, ?rebind, ?dump, ?ready, ?return_, ?supOver, ?supReady, ?halt, ?resume,
    ?breakpoint, ?slot, ?log⟩
  case service =>
    intro s now b core h hrun hstim
    show execWatchdogService core now s = _
    refine State.on_at h fun y hy => ?_
    simp only [hy, hrun, hstim, Block.when, beq_self_eq_true, if_true]
  case expiry =>
    intro s now b core h hover hstim
    show execWatchdogExpiry core now s = _
    refine State.on_at h fun y hy => ?_
    simp only [hy, hover, hstim, Block.when, if_true, Option.any_none, Bool.false_eq_true, if_false, Block.injecting]
  case crash =>
    intro s now b core cause h hstate
    show execCoreException core cause now s = _
    refine State.on_at h fun y hy => ?_
    have hrun : ¬ (b.coreState core.val = 1 ∧ b.fwc.since.getD core.val 0 = b.now) := by omega
    have hgo : (b.coreState core.val == 0 || b.coreState core.val == 5) = true := by simpa using hstate
    simp only [hy, if_neg hrun, Block.when_pos hgo]
  case again =>
    intro s now b core cause h hhalted hsince
    show execCoreException core cause now s = _
    refine State.on_at h fun y hy => ?_
    rw [hy, if_pos ⟨hhalted, hsince⟩]
  case rebind =>
    intro s b core h hsup hdue
    show execTaskRebind core s = _
    exact State.on_eq h (Block.when_pos (by rw [hsup, hdue]; rfl))
  case dump =>
    intro s b x rest h hdumping
    show execDumpComplete s = _
    refine State.on_eq h ?_
    simp only [hdumping]
  case ready =>
    intro s now b core h hstate hgood
    refine ⟨_, rfl, ?_⟩
    show execCoreReady core now s = _
    refine State.on_at h fun y hy => ?_
    simp only [hy, hstate, hgood, Block.when, beq_self_eq_true, if_true]
  case return_ =>
    intro s now b core h hdue
    show execTaskReturn core now s = _
    refine State.on_at h fun y hy => ?_
    rw [hy, Block.when_pos hdue]
  case supOver =>
    intro s now b h hover hstim
    refine ⟨_, _, rfl, rfl, ?_⟩
    show execSupervisorWatchdogExpiry now s = _
    refine State.on_at h fun y hy => ?_
    simp only [hy, hover, hstim, Block.when, if_true, Option.any_none, Bool.false_eq_true, if_false, Block.injecting]
  case supReady =>
    intro s now b h hstate
    refine ⟨_, rfl, ?_⟩
    show execSupervisorReady now s = _
    refine State.on_at h fun y hy => ?_
    simp only [hy, hstate, Block.when, beq_self_eq_true, if_true]
  case halt =>
    intro s now b core h hacc hupd hrun
    show execDebugHalt core now s = _
    refine State.on_at h fun y hy => ?_
    rw [hy, b.haltCore_running core.val hacc hupd hrun]
  case resume =>
    intro s now b core h hacc hhalted
    show execDebugResume ⟨core.val, _⟩ now s = _
    refine State.on_at h fun y hy => ?_
    rw [hy, Block.when_pos hacc, b.resumeCore_halted core.val (by omega) hhalted]
  case breakpoint =>
    intro s now b core k h hacc hupd hrun hkind
    show execBreakpointHit core k now s = _
    refine State.on_at h fun y hy => ?_
    have hset : (b.fld (F.FWC_BP_kind core.val k.val) != 0) = true := bne_iff_ne.mpr hkind
    rw [hy, Block.when_pos (by rw [hacc, hupd, hrun, hset]; rfl)]
  case slot =>
    intro s b h
    show execGranaryClr 1 s = _
    refine State.on_eq h ?_
    have hone : (List.range 2).filter (bit 1) = [0] := by decide
    show b.granaryClr 1 = _
    rw [Block.granaryClr, hone]
    rfl
  case log =>
    rintro b core ft place rfl hcore
    refine ⟨?_, ⟨_, b.eventAt_logEvent_same core ft, ?_⟩, b.eventAt_logEvent_ne core ft⟩
    · rw [b.elog_logEvent, List.length_cons, List.length_take]
      omega
    · exact LogEv.fields_bytes ⟨ft, core, b.fwc.elogSeq⟩ hcore

end Sys2Proof.Machine
end

section
/-! SUPPORT. A component read after it was written. -/
namespace Sys2Proof.Machine
open Sys2Proof

/-- A field reads back a value that fits it. -/
theorem Block.fld_setFld_fits (b : Block) (f : Fld) (v : Nat) (h : f.lo + f.width ≤ 64) (hv : v < 2 ^ f.width) :
    (b.setFld f v).fld f = v := by
  rw [Block.fld_setFld b f v h, Nat.mod_eq_of_lt hv]

section
variable (b : Block) (k : Nat)

@[simp] theorem Block.link_setLink (x : LinkS) : (b.setLink k x).link k = x := Tab.get_set_same _ _ _ _
@[simp] theorem Block.post_setPost (x : PostS) : (b.setPost k x).post k = x := Tab.get_set_same _ _ _ _
@[simp] theorem Block.tile_setTile (x : RelTile) : (b.setTile k x).tile k = x := Tab.get_set_same _ _ _ _
@[simp] theorem Block.relay_setRelay (x : RelayS) : (b.setRelay k x).relay k = x := Tab.get_set_same _ _ _ _
@[simp] theorem Block.chain_setChain (x : ChainS) : (b.setChain k x).chain k = x := Tab.get_set_same _ _ _ _
@[simp] theorem Block.wire_setWire (x : ChWire) : (b.setWire k x).wire k = x := Tab.get_set_same _ _ _ _
@[simp] theorem Block.slice_setSlice (x : SliceS) : (b.setSlice k x).slice k = x := Tab.get_set_same _ _ _ _
@[simp] theorem Block.margin_setMargin (x : MarginS) : (b.setMargin k x).margin k = x := Tab.get_set_same _ _ _ _
@[simp] theorem Block.vdom_setVdom (x : VrcDom) : (b.setVdom k x).vdom k = x := Tab.get_set_same _ _ _ _
@[simp] theorem Block.vph_setVph (x : VrcPh) : (b.setVph k x).vph k = x := Tab.get_set_same _ _ _ _
@[simp] theorem Block.vslice_setVslice (x : VrcSlice) : (b.setVslice k x).vslice k = x := Tab.get_set_same _ _ _ _

end

end Sys2Proof.Machine
end

section
/-! SUPPORT. The re-admission of a domain (R533): which lifecycle state its `en` depends on.

The model reads the lifecycle state before `fail_clr` (`Block.reqReadmitDomain`), the statement after it. On a state whose
slice holds a grant of a context beyond the 64 that exist, the refund inside `fail_clr` writes past the credits, onto the
lifecycle register. -/
namespace Sys2Proof.Machine
open Sys2Proof

/-- After reset: domain 0 is isolated and FAILED, its tile 0 is powered, and a grant of 5 nJ to tile 0 for context 4096
waits for its window. -/
def strayGrant : Block :=
  (((Block.reset.setFld (F.FC_ISO_DOM_map 0) 1).setFld (F.VRC_DOM_STATUS_state 0) Vs.failed).setPost 0
    { PostS.reset with powered := true }).setSlice 0
      { SliceS.reset with grants := [⟨0, 4096, 0, 1, 0, false, 5, [], false⟩] }

/-- The enable of domain 0 after a command. -/
def enableAfter : Host.Outcome State Fault Refusal → Option Nat
  | .next t => some (t.block.fld (F.VRC_DOM_CTRL_en 0))
  | _ => none

/-- The model's run enables the domain: before `fail_clr` the part is not SCRAPPED. -/
theorem enableAfter_readmit : enableAfter (execFcIsoReadmitDomain 0 ⟨strayGrant, [], []⟩) = some 1 := by decide +kernel

/-- Refutes O18: on `strayGrant` the model enables domain 0, and the state after `fail_clr`, which the statement reads,
says SCRAPPED. -/
theorem not_isolationCommandsComplete : ¬ Obligations.IsolationCommandsComplete := by
  unfold Obligations.IsolationCommandsComplete
  rintro ⟨-, -, -, hreadmit, -⟩
  obtain ⟨_, rfl, hstated⟩ := hreadmit ⟨strayGrant, [], []⟩ strayGrant _ 0 ⟨by decide +kernel, by decide +kernel, rfl⟩
    (by decide +kernel) rfl
  have hrun := enableAfter_readmit.symm.trans (congrArg enableAfter hstated)
  exact absurd hrun (by decide +kernel)

end Sys2Proof.Machine
end

section
/-! SUPPORT. The Fault Collector's own commands (R498-R523). -/
namespace Sys2Proof.Machine
open Sys2Proof

/-! ## Registers that return to their reset values (R508) -/

/-- A table without some of its keys. -/
theorem Tab.get_filter_key {α : Type} (d : Nat → α) (t : Tab α) (keep : Nat → Bool) (k : Nat) :
    Tab.get d (t.filter fun p => keep p.1) k = if keep k = true then Tab.get d t k else d k := by
  induction t with
  | nil => simp [Tab.get]
  | cons p t ih =>
    obtain ⟨k', v⟩ := p
    by_cases hkeep : keep k' = true
    · rw [List.filter_cons_of_pos (p := fun p : Nat × α => keep p.1) hkeep, Tab.get, Tab.get, ih]
      by_cases hk : k' = k
      · simp [hk, hk ▸ hkeep]
      · simp [hk]
    · rw [List.filter_cons_of_neg (p := fun p : Nat × α => keep p.1) hkeep, ih, Tab.get]
      by_cases hk : k' = k
      · simp [hk ▸ hkeep]
      · simp [hk]

section
variable (b : Block) (lo hi o : Nat)

theorem Block.reg_clearWin_inside (h : lo ≤ o ∧ o < hi) : (b.clearWin lo hi).reg o = resetWord o := by
  refine (Tab.get_filter_key resetWord b.win (fun k => !(decide (lo ≤ k) && decide (k < hi))) o).trans (if_neg ?_)
  simp [h]

theorem Block.reg_clearWin_outside (h : o < lo ∨ hi ≤ o) : (b.clearWin lo hi).reg o = b.reg o := by
  refine (Tab.get_filter_key resetWord b.win (fun k => !(decide (lo ≤ k) && decide (k < hi))) o).trans (if_pos ?_)
  simp
  omega

end

/-- Only the 26 listed groups have sources. -/
theorem group_lt_of_sourceExists {g src : Nat} (h : sourceExists g src = true) : g < 26 := by
  refine Decidable.byContradiction fun hg => ?_
  obtain ⟨k, rfl⟩ : ∃ k, g = k + 26 := ⟨g - 26, by omega⟩
  simp [sourceExists] at h

section
variable (b : Block)

/-- What first_clr leaves of FC_FIRST, FC_FIRST_OVF and FC_FIRST_FT. -/
theorem Block.reg_firstClr :
    b.firstClr.reg 0x10010 = (if b.firstNow = true then b.reg 0x10010 else resetWord 0x10010) ∧
      b.firstClr.reg 0x10014 = resetWord 0x10014 ∧
      b.firstClr.reg 0x10018 = (if b.firstNow = true then b.reg 0x10018 else resetWord 0x10018) ∧
      ∀ o, (o < 0x10010 ∨ 0x10020 ≤ o) → b.firstClr.reg o = b.reg o := by
  unfold Block.firstClr
  split
  · exact ⟨b.reg_clearWin_outside _ _ _ (by omega), b.reg_clearWin_inside _ _ _ (by omega),
      b.reg_clearWin_outside _ _ _ (by omega), fun o ho => b.reg_clearWin_outside _ _ _ (by omega)⟩
  · exact ⟨b.reg_clearWin_inside _ _ _ (by omega), b.reg_clearWin_inside _ _ _ (by omega),
      b.reg_clearWin_inside _ _ _ (by omega), fun o ho => b.reg_clearWin_outside _ _ _ (by omega)⟩

/-- The write of 1 to alert_pend leaves it for a fault of this cycle alone (R28, R516). -/
theorem Block.alertPend_alertClr :
    b.alertClr.flag F.FC_SUMMARY_alert_pend = true ↔ b.flag F.FC_SUMMARY_alert_pend = true ∧
      ∃ x ∈ b.fc.recent, x.at_ = b.now ∧ b.fld F.FC_CTRL_alert_min ≤ b.severity x.group x.source := by
  have hnow : (b.fc.recent.any fun x => x.at_ == b.now &&
      decide (b.fld F.FC_CTRL_alert_min ≤ b.severity x.group x.source)) = true ↔
      ∃ x ∈ b.fc.recent, x.at_ = b.now ∧ b.fld F.FC_CTRL_alert_min ≤ b.severity x.group x.source := by
    simp
  rw [← hnow, Block.alertClr]
  split
  next hfires => exact (and_iff_left hfires).symm
  next hquiet =>
    rw [Block.flag, Block.fld_setFld _ _ _ (by decide), Nat.zero_mod]
    exact ⟨fun h => absurd h (by decide), fun h => absurd h.2 hquiet⟩

/-- A source that fires in this very cycle keeps its sticky bit (R508). -/
theorem Block.clearSource_faultNow (g src : Nat) (h : b.faultNow g src = true) : b.clearSource g src = b := by
  rw [Block.clearSource, h, Bool.or_true, if_pos rfl]

theorem Block.takeFault_listed (r : FaultRec) (hsource : sourceExists r.group r.source = true) :
    b.takeFault r = b.raiseRec r false :=
  Block.when_pos (by rw [decide_eq_true (group_lt_of_sourceExists hsource), hsource]; rfl)

/-- go with an injection that the part takes (R523). -/
theorem Block.injGo_taken (hok : b.injAllowed (b.fld F.FC_INJ_CTRL_det) = true) (hfree : b.fc.armed = none) :
    b.injGo.fld F.FC_INJ_STATUS_result = 1 ∧ b.injGo.fc.armed = some (b.fld F.FC_INJ_CTRL_det,
      b.fld F.FC_INJ_CTRL_mode, b.fld F.FC_INJ_CTRL_instance, b.fld F.FC_INJ_CTRL_param) := by
  rw [Block.injGo, if_pos (by rw [hok, hfree]; rfl)]
  exact ⟨Block.fld_setFld_fits _ _ _ (by decide) (by decide), by rw [Block.fc_setFld]⟩

theorem Block.injGo_refused (hbad : b.injAllowed (b.fld F.FC_INJ_CTRL_det) = false) :
    b.injGo.fld F.FC_INJ_STATUS_result = 3 ∧ b.injGo.fc = b.fc := by
  rw [Block.injGo, hbad, Bool.false_and, if_neg Bool.false_ne_true]
  exact ⟨Block.fld_setFld_fits _ _ _ (by decide) (by decide), by rw [Block.fc_setFld, Block.fc_setFld]⟩

end

/-- Settles O17, command by command. -/
theorem faultCommandsComplete : Obligations.FaultCommandsComplete := by
  unfold Obligations.FaultCommandsComplete
  refine ⟨?hub, ?record, ?clear, ?first, ?alert, fun b g src => b.clearSource_faultNow g src, ?sev, ?force, ?go, ?refused,
    ?fire, ?risk⟩
  case hub =>
    intro s now b f h hsource
    show execHubFault f now s = _
    refine State.on_at h fun y hy => ?_
    rw [hy, b.takeFault_listed _ hsource]
  case record =>
    rintro s b c die f m r h hlink hnext rfl _ hsource
    show execFaultRecord die s = _
    refine State.on_eq h ?_
    simp only [Block.when_pos hlink, hnext, c.takeFault_listed _ hsource]
  case clear =>
    intro s b group bits h
    refine ⟨_, rfl, ?_⟩
    show execFcGrpClr group bits s = _
    refine State.on_eq h ?_
    rw [Block.grpClr, apply_ite Block.showFc]
  case first =>
    intro s b h
    exact ⟨_, (State.on_eq h rfl : execFirstClr s = _), b.reg_firstClr⟩
  case alert =>
    intro s b h
    exact ⟨_, (State.on_eq h rfl : execAlertPendClear s = _), b.alertPend_alertClr⟩
  case sev =>
    intro s b group value h
    show execFcGrpSevWrite group value s = _
    exact State.on_eq h rfl
  case force =>
    intro s now b group bits h
    show execFcGrpForce group bits now s = _
    refine State.on_at h fun y hy => ?_
    rw [hy, Block.grpForce]
  case go =>
    intro s b h hok hfree
    exact ⟨_, (State.on_eq h rfl : execInjectionGo s = _), b.injGo_taken hok hfree⟩
  case refused =>
    intro s b h hbad
    exact ⟨_, (State.on_eq h rfl : execInjectionGo s = _), b.injGo_refused hbad⟩
  case fire =>
    intro s now b det mode inst param h harmed
    show execInjectionFire now s = _
    refine State.on_at h fun y hy => ?_
    simp only [hy, harmed]
  case risk =>
    intro s b h hseen htick
    refine ⟨_, rfl, ?_⟩
    show execRiskInterval s = _
    exact State.on_eq h (Block.when_pos (by rw [decide_eq_true hseen, decide_eq_true htick]; rfl))

end Sys2Proof.Machine
end

section
/-! SUPPORT. Fabric time and its boundaries (R83-R98). -/
namespace Sys2Proof.Machine
open Sys2Proof

section
variable (b : Block)

/-- A missing marker outside LOCKED is counted and ends the run of good ones; the state stays. -/
theorem Block.markerMissed_unlocked (h : b.timeState ≠ 1) :
    b.markerMissed = { b.incSat F.CTU_FT_STATUS_markers_missed with
      time := { b.time with goodRun := 0, offsets := [] } } := by
  have hstate : (b.incSat F.CTU_FT_STATUS_markers_missed).timeState = b.timeState :=
    Block.fld_setFld_disjoint _ _ _ _ (by decide) (by decide)
  have htime : (b.incSat F.CTU_FT_STATUS_markers_missed).time = b.time := rfl
  rw [Block.markerMissed, htime]
  exact if_neg fun hlocked => h (hstate ▸ hlocked.1)

theorem Block.time_markerMissed_unlocked (h : b.timeState ≠ 1) :
    b.markerMissed.time = { b.time with goodRun := 0, offsets := [] } :=
  congrArg Block.time (b.markerMissed_unlocked h)

theorem Block.fld_markerMissed_unlocked (h : b.timeState ≠ 1) :
    b.markerMissed.fld F.CTU_FT_STATUS_markers_missed =
      satU F.CTU_FT_STATUS_markers_missed.width (b.fld F.CTU_FT_STATUS_markers_missed + 1) :=
  (congrArg (Block.fld · F.CTU_FT_STATUS_markers_missed) (b.markerMissed_unlocked h)).trans
    (Block.fld_setSat b _ _ (by decide))

/-- The marker timer is no part of the time a register shows. -/
theorem Block.fld_restartTimer (f : Fld) : b.restartTimer.fld f = b.fld f := by
  unfold Block.restartTimer Block.fld Block.reg
  dsimp only

theorem Block.time_restartTimer : b.restartTimer.time = { b.time with timer := b.time.timer - markerLimit } := by
  unfold Block.restartTimer
  dsimp only

theorem Block.tickBoundary_smooth (bmem : List (List (Option Int))) (h : ∀ o, b.time.corr ≠ .step o) :
    b.tickBoundary bmem = b.slewed.presentTick ((b.time.count.toNat / 1024 + 1) * 1024) bmem := by
  unfold Block.tickBoundary
  split
  next o hstep => exact absurd hstep (h o)
  next => rfl

end

/-- Settles O2, command by command. -/
theorem timeCommandsComplete : Obligations.TimeCommandsComplete := by
  unfold Obligations.TimeCommandsComplete
  refine ⟨?load, ?good, ?missing, ?acquiring, ?tick, ?epoch, ?step⟩
  case load =>
    intro s now marker gap b h hacq hload hmark hstrobe
    show execFabMarkStrobe marker true gap now s = _
    refine State.on_at h fun y hy => ?_
    have hacq' : b.strobeSeen.timeState = 0 := hacq
    have hload' : b.strobeSeen.time.loaded = false := hload
    simp [hy, hstrobe, hmark, hacq', hload']
  case good =>
    intro s now marker gap b h hstate hmark hgap
    show execFabMarkStrobe marker true gap now s = _
    refine State.on_at h fun y hy => ?_
    have hclose : (b.time.strobed && decide (gap ≤ 1024)) = false := by
      rcases hgap with hgap | hgap
      · rw [hgap, Bool.false_and]
      · rw [decide_eq_false (by omega), Bool.and_false]
    have hknown : ¬(b.strobeSeen.timeState = 0 ∧ (!b.strobeSeen.time.loaded) = true) := by
      rintro ⟨hacq, hload⟩
      rcases hstate with hstate | hstate
      · exact hstate hacq
      · exact Bool.false_ne_true ((Bool.not_eq_true' _).mp hload ▸ (hstate : b.strobeSeen.time.loaded = true))
    simp only [hy, hclose]
    refine (if_neg ?_).trans (if_neg hknown)
    rintro (hbad | hbad | hbad)
    · exact Bool.false_ne_true hbad
    · exact hbad hmark
    · exact Bool.false_ne_true hbad
  case missing =>
    intro s now b h hstate htimer
    refine ⟨_, (State.on_at h fun y hy => ?_ : execMarkerMissing now s = .next (s.done b.restartTimer.markerMissed)),
      ?_⟩
    · simp only [hy, Block.when_pos (decide_eq_true htimer)]
    · have hstate' : b.restartTimer.timeState ≠ 1 := by rwa [Block.timeState, Block.fld_restartTimer]
      have htime := b.restartTimer.time_markerMissed_unlocked hstate'
      rw [Block.time_restartTimer] at htime
      refine ⟨?_, ?_, ?_, ?_⟩
      · show b.restartTimer.markerMissed.time.timer = _
        rw [htime]
      · show b.restartTimer.markerMissed.settle.fld F.CTU_FT_STATUS_markers_missed = _
        rw [Block.fld_settle, Block.fld_markerMissed_unlocked _ hstate', Block.fld_restartTimer]
      · show b.restartTimer.markerMissed.time.goodRun = _
        rw [htime]
      · show b.restartTimer.markerMissed.time.offsets = _
        rw [htime]
  case acquiring =>
    intro s b h hacq hload hcount
    show execAcquiringTimeout s = _
    exact State.on_eq h (Block.when_pos (by rw [hacq, hload, decide_eq_true hcount]; rfl))
  case tick =>
    intro s b bmem h htick hsmooth
    have hrunning : b.frozen = false := h.2.2 ▸ h.2.1
    show execTickBoundary bmem s = _
    refine State.live_eq h ?_
    rw [Block.when_pos htick, hrunning, if_neg Bool.false_ne_true, b.tickBoundary_smooth bmem hsmooth]
  case epoch =>
    intro s b lanes h hdue
    show execEpochBoundary lanes s = _
    exact State.on_eq h (Block.when_pos (decide_eq_true hdue))
  case step =>
    intro s b polls h hdue
    show execThermalStepBoundary polls s = _
    exact State.on_eq h (Block.when_pos (decide_eq_true hdue))

end Sys2Proof.Machine
end

section
/-! SUPPORT. Launch requests at a Post (R304-R311, R326). -/
namespace Sys2Proof.Machine
open Sys2Proof

/-- The grants whose three windows have begun and not ended are released, but for the void ones (R308). -/
theorem releaseGrant_eq (w : Nat) (g : PGrant) :
    (if (!g.void && decide (g.win ≤ w) && decide (w < g.win + 3)) = true then { g with released := true } else g) =
      if g.void = false ∧ g.win ≤ w ∧ w < g.win + 3 then { g with released := true } else g := by
  refine ite_congr (propext ?_) (fun _ => rfl) (fun _ => rfl)
  rw [Bool.and_eq_true, Bool.and_eq_true, decide_eq_true_iff, decide_eq_true_iff, Bool.not_eq_true', and_assoc]

/-- Settles O10, command by command. -/
theorem postRequestsComplete : Obligations.PostRequestsComplete := by
  unfold Obligations.PostRequestsComplete
  refine ⟨?request, ?grant, ?wait, ?revoke, ?refuse, ?retry, ?resend, ?withdraw, ?gate, ?lapse⟩
  case request =>
    intro s now b tile ctx tag cls lead h
    show execTpRequest tile ctx tag cls lead now s = _
    refine State.on_at h fun y hy => ?_
    rw [hy]
  case grant =>
    intro s now b c tile tag ctx win src debit dflt r h hruns hpop hreq hwin
    show execGrant tile now s = _
    refine State.on_at h fun y hy => ?_
    simp only [hy, hruns, hpop, hreq]
    exact if_neg (Nat.not_le.mpr hwin)
  case wait =>
    intro s now b c tile tag ctx reason retry h hruns hpop
    show execWait tile now s = _
    refine State.on_at h fun y hy => ?_
    simp only [hy, hruns, hpop]
  case revoke =>
    intro s now b c tile tag ctx win g h hruns hpop hgrant hnow hvalid
    show execRevoke tile now s = _
    refine State.on_at h fun y hy => ?_
    simp only [hy, hruns, hpop, hnow, hgrant, hvalid, Bool.false_eq_true, if_false]
  case refuse =>
    intro s now b c tile tag ctx reason h hruns hpop hreq
    show execRefuse tile now s = _
    refine State.on_at h fun y hy => ?_
    simp only [hy, hruns, hpop, hreq, if_true]
  case retry =>
    intro s b tile tag r h hruns hreq
    show execRequestRetry tile tag s = _
    refine State.on_eq h ?_
    simp only [hruns, hreq]
  case resend =>
    intro s b tile tag r h hruns hreq
    show execRequestResend tile tag s = _
    refine State.on_eq h ?_
    simp only [hruns, hreq]
  case withdraw =>
    intro s now b tile tag r h hruns hreq
    show execRequestWithdraw tile tag now s = _
    refine State.on_at h fun y hy => ?_
    simp only [hy, hruns, hreq]
  case gate =>
    intro s now b tile h hruns hcal
    show execGateRelease tile now s = _
    refine State.on_at h fun y hy => ?_
    simp only [hy, hruns, Block.when_pos (bne_iff_ne.mpr hcal), Bool.true_and, releaseGrant_eq]
  case lapse =>
    intro s now b tile g h hruns hgrant
    show execGrantLapse tile now s = _
    refine State.on_at h fun y hy => ?_
    simp only [hy, hruns, hgrant]

end Sys2Proof.Machine
end

section
/-! SUPPORT. The protection of a regulator and the timebase of a slice (R401, R419-R429). -/
namespace Sys2Proof.Machine
open Sys2Proof

section
variable (b : Block)

/-- A short ends in HICCUP while the domain is enabled, in OFF otherwise (R418). -/
theorem Block.shortEnd_eq (d : Nat) :
    b.shortEnd d = if b.flag (F.VRC_DOM_CTRL_en d) = true then b.enterHiccup d else b.enterOff d := by
  rw [Block.shortEnd]
  cases b.flag (F.VRC_DOM_CTRL_en d)
  · exact (if_pos rfl).trans (if_neg Bool.false_ne_true).symm
  · exact (if_neg Bool.false_ne_true).trans (if_pos rfl).symm

/-- A timebase that begins to move keeps the rate it moves from (R425). -/
theorem Block.setSync_moving (die st : Nat) (hnew : b.fld (F.VRC_SLICE_SYNC_sync_state die) ≠ st)
    (hmove : st = 1 ∨ st = 3) :
    b.setSync die st = ((((b.setVslice die { b.vslice die with moveFrom := (b.vslice die).ppm, moved := 0 }).setFld
      (F.VRC_SLICE_SYNC_sync_state die) st).incSat (F.VRC_SLICE_STATUS_sync_changes die)).relayFault die 8 0 die) := by
  rw [Block.setSync, if_neg hnew]
  simp only [if_pos hmove]

end

/-- Settles O14, command by command. -/
theorem regulatorProtectionCompletes : Obligations.RegulatorProtectionCompletes := by
  unfold Obligations.RegulatorProtectionCompletes
  refine ⟨?short, ?overvolt, ?release, ?under, ?sense, ?phase, ?commit, ?restore, ?free, ?move, ?track, ?relock,
    fun b => b.setSync_moving, ?trim⟩
  case short =>
    intro s b dom h hshort
    refine ⟨_, rfl, ?_⟩
    show execShortDetected dom s = _
    refine State.live_eq h ?_
    simp only [Block.when_pos hshort, Block.shortEnd_eq]
    rfl
  case overvolt =>
    intro s b dom h hrun hstate hcrow
    refine ⟨_, rfl, ?_⟩
    show execOvervoltage dom s = _
    refine State.live_eq h ((Block.when_pos ?_).trans (ite_congr (propext ?_) (fun _ => rfl) (fun _ => rfl)))
    · rw [hcrow, decide_eq_true hrun, bne_iff_ne.mpr hstate]
      rfl
    · rw [List.length_cons]
      omega
  case release =>
    intro s b dom h hcrow hvolt
    refine ⟨_, rfl, ?_⟩
    show execOvervoltageRelease dom s = _
    exact State.live_eq h (Block.when_pos (by rw [hcrow, decide_eq_true hvolt]; rfl))
  case under =>
    intro s b dom h hstate hrun hstill hen
    refine ⟨_, rfl, ?_⟩
    show execUndervoltage dom s = _
    refine State.live_eq h (Block.when_pos ?_)
    have hon : (b.vstate dom.val == Vs.run || (b.vdom dom.val).shortNow) = true := by
      rcases hstate with hstate | hstate
      · rw [hstate, beq_self_eq_true, Bool.true_or]
      · rw [hstate, Bool.or_true]
    rw [hon, decide_eq_true hrun, decide_eq_true hstill, hen]
    rfl
  case sense =>
    intro s b dom h hrun hstate
    refine ⟨_, rfl, ?_⟩
    show execSenseFault dom none s = _
    refine State.live_eq h (Block.when_pos ?_)
    have hon : (b.vstate dom.val == Vs.soft || b.vstate dom.val == Vs.run) = true := by
      rcases hstate with hstate | hstate
      · rw [hstate, beq_self_eq_true, Bool.true_or]
      · rw [hstate, beq_self_eq_true, Bool.or_true]
    rw [hon, decide_eq_true hrun]
    rfl
  case phase =>
    intro s b dom p h hrun hstate
    refine ⟨_, rfl, ?_⟩
    show execSenseFault dom (some p) s = _
    exact State.live_eq h (Block.when_pos (by rw [decide_eq_true hrun, hstate]; rfl))
  case commit =>
    intro s b dom h hlink
    show execCoefCommit dom s = _
    exact State.on_eq h (Block.when_pos hlink)
  case restore =>
    intro s b phase h hlink hstate
    show execPhaseRestore phase s = _
    refine State.on_eq h ((Block.when_pos hlink).trans ?_)
    rw [Block.phaseRestore]
    exact Block.when_pos (beq_iff_eq.mpr hstate)
  case free =>
    intro s b die h
    refine ⟨_, rfl, ?_⟩
    show execSyncRelease die s = _
    exact State.on_eq h rfl
  case move =>
    intro s b die ppm h hstate hmoved
    refine ⟨_, rfl, ?_⟩
    show execSyncMoveComplete die ppm s = _
    refine State.on_eq h ((Block.when_pos (decide_eq_true hmoved)).trans ?_)
    exact if_pos hstate
  case track =>
    intro s b die ppm h hstate hmoved hphase hen
    show execSyncMoveComplete die ppm s = _
    refine State.on_eq h ((Block.when_pos (decide_eq_true hmoved)).trans ?_)
    simp only [hstate, hphase, hen]
    rfl
  case relock =>
    intro s b die h hroot htime hen hstate
    show execSyncRelock die s = _
    exact State.on_eq h (Block.when_pos (by rw [hroot, htime, hen, hstate]; rfl))
  case trim =>
    intro s b die h htrack
    show execDcoTrim die s = _
    exact State.on_eq h (Block.when_pos (decide_eq_true htrack))

end Sys2Proof.Machine
end

section
/-! SUPPORT. Budget lending (R476-R494). -/
namespace Sys2Proof.Machine
open Sys2Proof

/-- What a command with a stamp leaves, where only a part of it matters. -/
theorem State.on_at_exists {s : State} {now : Ft} {b : Block} {f : Block → Block} {P : Block → Prop}
    (h : s.readyAt now b) (hf : ∀ y : Block, y.advance now = b → P (f y)) :
    ∃ x, s.on f = .next (s.done x) ∧ P x := by
  obtain ⟨hg, hc, rfl⟩ := h
  exact ⟨_, State.on_eq ⟨hg, hc, rfl⟩ rfl, hf _ rfl⟩

section
variable (b : Block)

theorem Block.adopt_of_lending (h : b.lending = true) : b.lend.adopt = false := by
  rw [Block.lending, Bool.and_eq_true] at h
  exact (Bool.not_eq_true' _).mp h.2

/-- A message of the group that comes while core 1 serves it is checked and used (R492, R808). -/
theorem Block.lendReceive_used (bytes : List Byte) (use : Block → Nat → Nat → Block) (hkept : b.lendDropped.1 = false)
    (hgroup : 2 ≤ b.lend.cfg.n) (hcore : b.coreRuns 1 = true) (hadopt : b.lend.adopt = false)
    (hok : b.lendOk bytes = true) : b.lendReceive bytes use = use b (rdAt bytes 4 1) (rdAt bytes 20 4) := by
  have hserves : ¬(b.lend.cfg.n < 2 ∨ b.lend.adopt = true) := by
    rintro (hsmall | hreset)
    · omega
    · exact Bool.false_ne_true (hadopt ▸ hreset)
  rw [Block.lendReceive, hkept]
  refine (if_neg Bool.false_ne_true).trans ((if_neg hserves).trans ?_)
  rw [hcore, Bool.not_true]
  exact (if_neg Bool.false_ne_true).trans (if_pos hok)

theorem Block.lendRegs_setPending (v : Nat) : (b.setFld F.HIU_LEND_STATUS_pending v).lendRegs = b.lendRegs := by
  have hkeep (f : Fld) (hoff : F.HIU_LEND_STATUS_pending.off ≠ f.off) :
      (b.setFld F.HIU_LEND_STATUS_pending v).fld f = b.fld f := Block.fld_setFld_off _ _ _ _ hoff
  have hshare (m : Nat) : F.HIU_LEND_STATUS_pending.off ≠ (F.HIU_LEND_SHARE_share_mw m).off := by
    simp only [F.HIU_LEND_STATUS_pending, F.HIU_LEND_SHARE_share_mw]; omega
  have hnode (m : Nat) : F.HIU_LEND_STATUS_pending.off ≠ (F.HIU_LEND_NODE_node m).off := by
    simp only [F.HIU_LEND_STATUS_pending, F.HIU_LEND_NODE_node]; omega
  rw [Block.lendRegs, Block.lendRegs, hkeep _ (by decide), hkeep _ (by decide), hkeep _ (by decide),
    hkeep _ (by decide)]
  simp only [hkeep _ (hshare _), hkeep _ (hnode _)]

end

/-- Settles O16, command by command. -/
theorem lendingCommandsComplete : Obligations.LendingCommandsComplete := by
  unfold Obligations.LendingCommandsComplete
  refine ⟨?config, ?interval, ?offer, ?offerIn, ?claims, ?claimIn, ?decide, ?ack, ?adj, ?release⟩
  case config =>
    intro s now b h hpend hdue hborrow hn
    refine ⟨_, rfl, ?_⟩
    have hn' : (b.setFld F.HIU_LEND_STATUS_pending 0).lendRegs.n = 0 := by rw [Block.lendRegs_setPending, hn]
    have hborrow' : ((b.setFld F.HIU_LEND_STATUS_pending 0).lend.leases.any fun x => !x.lent) = false := hborrow
    show execGroupConfigEffect now s = _
    refine State.on_at h fun y hy => ?_
    simp only [hy, Block.when_pos (show (b.flag F.HIU_LEND_STATUS_pending && Nat.ble (b.fld F.HIU_LEND_X_ft) b.now) = true
      by rw [hpend, Nat.ble_eq.mpr hdue]; rfl), hborrow', Bool.false_eq_true, if_false, hn', if_true]
  case interval =>
    intro s now b h hlend hnew
    have hadopt : b.lend.adopt = false := b.adopt_of_lending hlend
    obtain ⟨x, hrun, hx⟩ : ∃ x, execOfferIntervalStart now s = .next (s.done x) ∧ x.lend.interval = b.interval ∧
        x.lend.offers = [] ∧ x.lend.decided = false ∧ x.lend.spare % 1000 = 0 ∧ x.lend.want % 1000 = 0 ∧
        (0 < x.lend.want → x.lend.spare = 0) := by
      refine State.on_at_exists h fun y hy => ?_
      simp only [hy, hadopt, Bool.false_and, Bool.false_eq_true, if_false,
        Block.when_pos (show (b.lending && decide (b.lend.interval < b.interval)) = true by
          rw [hlend, decide_eq_true hnew]; rfl)]
      refine ⟨?_, trivial, trivial, Nat.mul_mod_left _ _, Nat.mul_mod_left _ _, fun hwant => ?_⟩
      · split <;> rfl
      · rw [if_neg]
        rintro ⟨-, hnone, -⟩
        rw [hnone] at hwant
        exact absurd hwant (by decide)
    exact ⟨_, hrun, hx⟩
  case offer =>
    intro s now b h hin hoffered hdue
    refine ⟨_, rfl, ?_⟩
    show execOfferSend now s = _
    refine State.on_at h fun y hy => ?_
    simp only [hy, Block.when, hin, hoffered, Nat.ble_eq.mpr hdue, Bool.not_false, Bool.and_self, if_true]
  case offerIn =>
    intro s now b bytes h hkept hgroup hcore hadopt hok htype hclaimed hdue hother
    show execOfferMessage bytes now s = _
    refine State.on_at h fun y hy => ?_
    rw [hy, b.lendReceive_used bytes _ hkept hgroup hcore hadopt hok]
    refine if_neg ?_
    rw [htype, hclaimed]
    rintro (hbad | hbad | hbad | hbad)
    · exact hbad rfl
    · exact Bool.false_ne_true hbad
    · omega
    · exact hother hbad
  case claims =>
    intro s now b h hin hclaimed hdue hwant
    show execClaimsCompute now s = _
    refine State.on_at h fun y hy => ?_
    simp only [hy, Block.when, hin, hclaimed, Nat.ble_eq.mpr hdue, Bool.not_false, Bool.and_self, if_true, hwant]
  case claimIn =>
    intro s now b bytes h hkept hgroup hcore hadopt hok htype hdecided hdue
    show execLeaseMessage bytes now s = _
    refine State.on_at h fun y hy => ?_
    rw [hy, b.lendReceive_used bytes _ hkept hgroup hcore hadopt hok]
    refine if_neg ?_
    rw [htype, hdecided]
    rintro (hbad | hbad | hbad)
    · exact hbad rfl
    · exact Bool.false_ne_true hbad
    · omega
  case decide =>
    intro s now b h hin hdue hdecided hrx
    show execLenderDecide now s = _
    refine State.on_at h fun y hy => ?_
    simp only [hy, Block.when, hin, Nat.ble_eq.mpr hdue, hdecided, hrx, Bool.and_self, Bool.not_false, if_true,
      List.foldl_nil, grantClaims, List.filter_nil, List.map_nil, List.append_nil, List.isEmpty_nil]
  case ack =>
    intro s now b bytes h hkept hgroup hcore hadopt hok htype hdue hamount
    show execAckMessage bytes now s = _
    refine State.on_at h fun y hy => ?_
    rw [hy, b.lendReceive_used bytes _ hkept hgroup hcore hadopt hok]
    exact (if_neg (not_not_intro htype)).trans ((if_neg (Nat.not_lt.mpr hdue)).trans (if_neg (Nat.ne_of_gt hamount)))
  case adj =>
    intro s now b h hlend htick hborrow
    refine ⟨_, rfl, ?_⟩
    show execBorrowerAdjWrite now s = _
    refine State.on_at h fun y hy => ?_
    simp only [hy, Block.when, hlend, htick, hborrow, beq_self_eq_true, Bool.and_self, if_true]
  case release =>
    intro s now b h hcore htime hdue
    show execLeaseRelease now s = _
    refine State.on_at h fun y hy => ?_
    simp only [hy, Block.when, hcore, htime, hdue, beq_self_eq_true, Bool.and_self, if_true]

end Sys2Proof.Machine
end

section
/-! SUPPORT. What the flits of a sideband leave alone: everything but the links, the Relays and the chains. -/
namespace Sys2Proof.Machine
open Sys2Proof

/-- The block without the parts that a sideband's flits change. -/
def Block.offBand (b : Block) : Block := { b with links := [], relays := [], chains := [] }

section
variable (b : Block)

theorem Block.offBand_setLink (d : Nat) (l : LinkS) : (b.setLink d l).offBand = b.offBand := rfl

theorem Block.offBand_setRelay (d : Nat) (r : RelayS) : (b.setRelay d r).offBand = b.offBand := rfl

theorem Block.offBand_setChain (n : Nat) (c : ChainS) : (b.setChain n c).offBand = b.offBand := rfl

/-- What each step of a fold keeps, the fold keeps. -/
theorem Block.forAll_keeps {α β : Type} (g : Block → β) (f : Block → α → Block) (hf : ∀ x a, g (f x a) = g x)
    (l : List α) : g (b.forAll l f) = g b := by
  induction l generalizing b with
  | nil => rfl
  | cons a l ih => exact (ih (f b a)).trans (hf b a)

/-- What each step of a repetition keeps, the repetition keeps. -/
theorem Block.repeat_keeps {β : Type} (g : Block → β) (f : Block → Option Block) (hf : ∀ x y, f x = some y → g y = g x)
    (n : Nat) : g (b.repeat f n) = g b := by
  induction n generalizing b with
  | zero => rfl
  | succ n ih =>
    rw [Block.repeat]
    split
    next y hy => exact (ih y).trans (hf b y hy)
    next => rfl

section
variable {b} {c : Block}

theorem Block.offBand_sbUp {d vc type source : Nat} {body : DWord} {f : SbFlit}
    (h : b.sbUp d vc type source body = some (f, c)) : c.offBand = b.offBand := by
  unfold Block.sbUp at h
  simp only at h
  split at h
  · obtain ⟨⟨f', u, dn⟩, -, he⟩ := Option.map_eq_some_iff.mp h
    obtain ⟨-, rfl⟩ := Prod.mk.inj he
    exact b.offBand_setLink _ _
  · exact absurd h nofun

theorem Block.offBand_putVc0 {d type : Nat} {body : DWord} {bmem : Bool} (h : b.putVc0 d type body bmem = some c) :
    c.offBand = b.offBand := by
  obtain ⟨⟨f, x⟩, hup, rfl⟩ := Option.map_eq_some_iff.mp h
  exact (x.offBand_setLink _ _).trans (Block.offBand_sbUp hup)

/-- A flit put on VC0, with what its Relay and its link then note. -/
theorem Block.offBand_putVc0_noted {d type n : Nat} {body : DWord} {bmem : Bool} {r : RelayS} {l : Block → LinkS}
    (h : ((b.putVc0 d type body bmem).map fun s => (s.setRelay n r).setLink d (l s)) = some c) :
    c.offBand = b.offBand := by
  obtain ⟨x, hput, rfl⟩ := Option.map_eq_some_iff.mp h
  exact (Block.offBand_setLink _ _ _).trans ((x.offBand_setRelay _ _).trans (Block.offBand_putVc0 hput))

theorem Block.offBand_putFault {d : Nat} (h : b.putFault d = some c) : c.offBand = b.offBand := by
  unfold Block.putFault at h
  simp only at h
  split at h
  · exact absurd h nofun
  · repeat' split at h
    any_goals contradiction
    all_goals exact Block.offBand_putVc0_noted h

theorem Block.offBand_putGlint {n : Nat} (h : b.putGlint n = some c) : c.offBand = b.offBand := by
  unfold Block.putGlint at h
  simp only at h
  split at h
  · split at h
    · exact absurd h nofun
    · obtain ⟨x, hput, rfl⟩ := Option.map_eq_some_iff.mp h
      exact (Block.offBand_putVc0 hput : x.offBand = b.offBand)
  · exact absurd h nofun

end

theorem Block.offBand_vc0First (d : Nat) : (b.vc0First d).offBand = b.offBand := by
  have hglints (x : Block) (n : Nat) : (x.repeat (fun s => s.putGlint n) 16).offBand = x.offBand :=
    x.repeat_keeps Block.offBand _ (fun _ _ h => Block.offBand_putGlint h) 16
  exact (Block.forAll_keeps _ Block.offBand _ hglints _).trans
    (b.repeat_keeps Block.offBand _ (fun _ _ h => Block.offBand_putFault h) 7)

/-- Flits of one channel, one after another. -/
theorem Block.offBand_sbUpAll {d vc source : Nat} (l : List (Nat × DWord)) {o : Option Block} {c : Block}
    (h : l.foldl (fun s f => s.bind fun s => (s.sbUp d vc f.1 source f.2).map (·.2)) o = some c) :
    ∃ x, o = some x ∧ c.offBand = x.offBand := by
  induction l generalizing o with
  | nil => exact ⟨c, h, rfl⟩
  | cons f l ih =>
    obtain ⟨y, hy, hc⟩ := ih h
    obtain ⟨x, hx, hy⟩ := Option.bind_eq_some_iff.mp hy
    obtain ⟨⟨g, z⟩, hz, rfl⟩ := Option.map_eq_some_iff.mp hy
    exact ⟨x, hx, hc.trans (Block.offBand_sbUp hz)⟩

theorem Block.offBand_sbLows {d vc source : Nat} {l : List (Nat × DWord)} {c : Block}
    (h : b.sbLows d vc source l = some c) : c.offBand = b.offBand := by
  unfold Block.sbLows at h
  simp only at h
  split at h
  · obtain ⟨x, hx, hc⟩ := Block.offBand_sbUpAll l h
    rw [hc, ← Option.some.inj hx, Block.offBand_vc0First]
  · exact absurd h nofun

theorem Block.offBand_sbLow {d vc type source : Nat} {body : DWord} {c : Block}
    (h : b.sbLow d vc type source body = some c) : c.offBand = b.offBand := b.offBand_sbLows h

end

/-! ## What two blocks share that differ in the sidebands alone -/

section
variable {b c : Block} (h : c.offBand = b.offBand)
include h

theorem Block.now_of_offBand : c.now = b.now := (congrArg Block.now h : c.offBand.now = b.offBand.now)

theorem Block.tick_of_offBand : c.tick = b.tick := (congrArg Block.tick h : c.offBand.tick = b.offBand.tick)

theorem Block.fld_of_offBand (f : Fld) : c.fld f = b.fld f :=
  (congrArg (Block.fld · f) h : c.offBand.fld f = b.offBand.fld f)

end

end Sys2Proof.Machine
end

section
/-! SUPPORT. The thermal model and its forecasts (R447-R468). -/
namespace Sys2Proof.Machine
open Sys2Proof

/-! ## The flits of the bonded memory (R278, R447) -/

/-- The half word of a sensor's reading. -/
def readingCode (r : Option Int) : Nat := match r with | some v => ofSigned 16 v | none => 0x8000

theorem readingCode_lt (r : Option Int) : readingCode r < 2 ^ 16 := by
  cases r with
  | none => decide
  | some v =>
    show (v % (2 ^ 16 : Nat)).toNat < 2 ^ 16
    omega

/-- A reading in the range of the sensors decodes to itself; 0x8000 is none of them. -/
theorem readingOf_readingCode (r : Option Int) (h : ∀ v, r = some v → -32767 ≤ v ∧ v ≤ 32767) :
    readingOf (readingCode r) = r := by
  cases r with
  | none => rfl
  | some v =>
    obtain ⟨hlo, hhi⟩ := h v rfl
    have hcode : ofSigned 16 v ≠ 0x8000 := by
      show (v % (2 ^ 16 : Nat)).toNat ≠ 0x8000
      omega
    show (if ofSigned 16 v = 0x8000 then none else some (toSigned 16 (ofSigned 16 v))) = some v
    rw [if_neg hcode, toSigned_ofSigned 16 v (by decide) (by omega) (by omega)]

theorem sensorBody_quarter (l : List (Option Int)) (f q : Nat) (hq : q < 4) :
    getBits (sensorBody l f).toNat (16 * q) 16 = readingCode (l.getD (4 * f + q) none) := by
  have hfit (k : Nat) : readingCode (l.getD (4 * f + k) none) % 2 ^ 16 = readingCode (l.getD (4 * f + k) none) :=
    Nat.mod_eq_of_lt (readingCode_lt _)
  have hbody : sensorBody l f = BitVec.ofNat 64 (packBits ([0, 1, 2, 3].map fun k =>
      (16 * k, 16, readingCode (l.getD (4 * f + k) none)))) := rfl
  rw [hbody]
  obtain rfl | rfl | rfl | rfl : q = 0 ∨ q = 1 ∨ q = 2 ∨ q = 3 := by omega
  all_goals
    simp (disch := omega) only [List.map_cons, List.map_nil, packBits, packBits_step, packBits_end, getBits_ofNat,
      getBits_putBits_same, getBits_putBits_disjoint, hfit]

/-- One quarter of a flit of die `d` reaches the attribution and, while the step's inputs are taken, the thermal model. -/
def Block.takeSensor (d flit step : Nat) (w : DWord) (s : Block) (q : Nat) : Block :=
  let v := Machine.readingOf (getBits w.toNat (16 * q) 16)
  let key := 64 * d + 4 * flit + q
  let s := { s with ea := { s.ea with bmem := Tab.set (fun _ => none) s.ea.bmem key v } }
  s.when (decide (s.now % 131072 ≤ 4096)) fun s =>
    { s with tme := { s.tme with bmem := Tab.set (fun _ => (0, none)) s.tme.bmem key (step, v) } }

section
variable (b : Block) (d flit step : Nat) (w : DWord)

theorem Block.now_takeSensor (q : Nat) : (b.takeSensor d flit step w q).now = b.now := by
  unfold Block.takeSensor Block.when
  dsimp only
  split <;> rfl

theorem Block.eaBmem_takeSensor (q : Nat) : (b.takeSensor d flit step w q).ea.bmem =
    Tab.set (fun _ => none) b.ea.bmem (64 * d + 4 * flit + q) (Machine.readingOf (getBits w.toNat (16 * q) 16)) := by
  unfold Block.takeSensor Block.when
  dsimp only
  split <;> rfl

theorem Block.tmeBmem_takeSensor (q : Nat) (h : b.now % 131072 ≤ 4096) : (b.takeSensor d flit step w q).tme.bmem =
    Tab.set (fun _ => (0, none)) b.tme.bmem (64 * d + 4 * flit + q)
      (step, Machine.readingOf (getBits w.toNat (16 * q) 16)) :=
  congrArg (fun c : Block => c.tme.bmem) (Block.when_pos (decide_eq_true h))

/-- The quarters of a flit are kept each under its own sensor. -/
theorem Block.takeSensors (n q : Nat) (hq : q < n) :
    Tab.get (fun _ => none) (b.forAll (List.range n) (Block.takeSensor d flit step w)).ea.bmem (64 * d + 4 * flit + q) =
        Machine.readingOf (getBits w.toNat (16 * q) 16) ∧
      (b.now % 131072 ≤ 4096 →
        Tab.get (fun _ => (0, none)) (b.forAll (List.range n) (Block.takeSensor d flit step w)).tme.bmem
          (64 * d + 4 * flit + q) = (step, Machine.readingOf (getBits w.toNat (16 * q) 16))) := by
  induction n with
  | zero => omega
  | succ n ih =>
    have hnow : (b.forAll (List.range n) (Block.takeSensor d flit step w)).now = b.now :=
      b.forAll_keeps Block.now _ (fun x k => x.now_takeSensor d flit step w k) _
    have hlast : b.forAll (List.range (n + 1)) (Block.takeSensor d flit step w) =
        (b.forAll (List.range n) (Block.takeSensor d flit step w)).takeSensor d flit step w n := by
      rw [List.range_succ, Block.forAll, List.foldl_append]
      rfl
    rw [hlast, Block.eaBmem_takeSensor]
    by_cases hn : q = n
    · subst hn
      refine ⟨Tab.get_set_same _ _ _ _, fun htme => ?_⟩
      rw [Block.tmeBmem_takeSensor _ _ _ _ _ _ (by rw [hnow]; exact htme), Tab.get_set_same]
    · obtain ⟨hea, htme⟩ := ih (by omega)
      refine ⟨by rw [Tab.get_set_ne _ _ _ _ _ (by omega), hea], fun hin => ?_⟩
      rw [Block.tmeBmem_takeSensor _ _ _ _ _ _ (by rw [hnow]; exact hin), Tab.get_set_ne _ _ _ _ _ (by omega),
        htme hin]

/-! ## The results of a step (R453) -/

theorem Block.forAll_nil {α : Type} (f : Block → α → Block) : b.forAll [] f = b := rfl
theorem Block.fcCommit_inTime (h : ∀ p, b.tme.formed = some p → b.tick / 16384 ≤ p) :
    b.fcCommit = ((((({ b with tme := { b.tme with committed := true } }).setFld F.TME_STATUS_fc_missed 0).setFld
      F.TME_STATUS_fc_stale 0).unraise 3 1 0).coolCommit.coolUpdate).derateCommit := by
  refine if_neg ?_
  split
  next p hp => exact fun hlate => absurd (h p hp) (Nat.not_le.mpr (decide_eq_true_iff.mp hlate))
  next => exact Bool.false_ne_true

theorem Block.tick_setFld (f : Fld) (v : Nat) (h : f.off ≠ 0x2008) : (b.setFld f v).tick = b.tick := by
  have hstate : (b.setFld f v).timeState = b.timeState := Block.fld_setFld_off _ _ _ _ h
  rw [Block.tick, Block.tick, Block.now, Block.now, Block.ft, Block.ft, hstate]
  rfl

/-- A step's temperatures go to their registers. -/
def Block.showTemps (t : List Word) : Block :=
  b.forAll t.zipIdx fun s x => s.setFld (F.TME_NODE_T_temp x.2) (ofSigned 16 (satS 16 (Fp.roundScaled x.1 4)))

theorem Block.tick_showTemps (t : List Word) : (b.showTemps t).tick = b.tick :=
  b.forAll_keeps Block.tick _
    (fun x a => x.tick_setFld _ _ (by simp only [F.TME_NODE_T_temp]; omega)) _


theorem Block.tme_showTemps (t : List Word) : (b.showTemps t).tme = b.tme :=
  b.forAll_keeps Block.tme _ (fun x _ => x.tme_setFld _ _) _

/-- Time goes on as before while a step's results are shown. -/
theorem Block.clock_results (r : TmeOut) (n : Nat) :
    ((((b.setFld F.TME_LAST_STEP_ft (131072 * r.step)).showTemps r.t).setSat F.TME_STATUS_resid_max r.resid).setFld
        F.TME_STATUS_n_suspect n).tick = b.tick ∧
      ((((b.setFld F.TME_LAST_STEP_ft (131072 * r.step)).showTemps r.t).setSat F.TME_STATUS_resid_max r.resid).setFld
        F.TME_STATUS_n_suspect n).tme = b.tme := by
  rw [Block.tick_setFld _ _ _ (by decide), Block.tme_setFld, Block.setSat, Block.tick_setFld _ _ _ (by decide),
    Block.tme_setFld, Block.tick_showTemps, Block.tme_showTemps, Block.tick_setFld _ _ _ (by decide), Block.tme_setFld]
  exact ⟨rfl, rfl⟩

end

/-- Settles O15, command by command. -/
theorem thermalCommandsComplete : Obligations.ThermalCommandsComplete := by
  unfold Obligations.ThermalCommandsComplete
  refine ⟨?bmem, ?read, ?compute, ?results, ?suspect, ?ambient, ?forecast, ?commit, ?stale⟩
  case bmem =>
    intro s now b c die flit w h htime htick hw hsent
    have hband := b.offBand_sbLow hsent
    have hrun : execBmemSensorFlits die flit now s =
        .next (s.done (c.forAll (List.range 4) (Block.takeSensor die.val flit.val (b.tick / 128) w))) := by
      refine State.on_at h fun y hy => ?_
      simp only [hy, Block.when_pos (show (decide (flit.val / 4 ≤ b.tick % 128) && b.time.ticking) = true by
        rw [decide_eq_true htime, htick]; rfl), ← hw, hsent]
      rfl
    have hkeys := c.takeSensors die.val flit.val (b.tick / 128) w 4
    rw [Block.now_of_offBand hband] at hkeys
    generalize c.forAll (List.range 4) (Block.takeSensor die.val flit.val (b.tick / 128) w) = x at hrun hkeys
    exact ⟨_, hrun, hkeys⟩
  case read =>
    intro l f q hq hrange
    rw [sensorBody_quarter l f q hq, readingOf_readingCode _ hrange]
  case compute =>
    intro s now b h htick hfourth hnew
    show execTmeStep now s = _
    refine State.on_at h fun y hy => ?_
    simp only [hy, Block.when, htick, decide_eq_true hfourth, decide_eq_true hnew, Bool.and_self, if_true]
  case results =>
    intro s now b r h hnext hdue hstep hecc hclr hsus hcold
    refine ⟨_, rfl, ?_⟩
    show execTmeResultsVisible now s = _
    refine State.on_at h fun y hy => ?_
    simp only [hy, hnext, Block.when_pos (decide_eq_true hdue), hstep, hecc, hclr, hsus, Bool.false_eq_true, if_false,
      Block.forAll_nil]
    refine congrArg Block.coolUpdate (Block.when_neg (Bool.eq_false_iff.mpr fun hwarm =>
      absurd (Nat.ble_eq.mp hwarm) (Nat.not_le.mpr ?_)))
    obtain ⟨hticks, hfirst⟩ := Block.clock_results { b with tme := { b.tme with next := none } } r _
    rw [Block.showTemps] at hticks hfirst
    rw [hticks, hfirst]
    exact hcold
  case suspect =>
    intro s b h
    show execSuspectClr s = _
    exact State.on_eq h rfl
  case ambient =>
    intro s now b h hdefault hold
    show execAmbientAgeExpiry now s = _
    refine State.on_at h fun y hy => ?_
    simp only [hy, Block.when, hdefault, decide_eq_true hold, Bool.not_false, Bool.and_self, if_true]
  case forecast =>
    rintro s now b h hcore ⟨x, hin, hperiod⟩ hformed
    obtain ⟨c, hrun, hc⟩ : ∃ c, execForecastPeriod now s = .next (s.done c) ∧ c.tme.formed = some (b.tick / 16384) := by
      refine State.on_at_exists h fun y hy => ?_
      simp only [hy, Block.when, hcore, hin, hperiod, Option.isSome_some, Option.getD_some, beq_self_eq_true,
        bne_iff_ne.mpr hformed, Bool.and_self, if_true]
    exact ⟨_, hrun, hc⟩
  case commit =>
    intro s now b h hcore hformed
    show execFcCommit now s = _
    refine State.on_at h fun y hy => ?_
    rw [hy, Block.when_pos hcore, b.fcCommit_inTime hformed]
  case stale =>
    intro s now b h hmissed hactive
    show execForecastStale now s = _
    refine State.on_at h fun y hy => ?_
    simp only [hy, Block.when, hactive, decide_eq_true hmissed, Bool.not_false, Bool.and_self, if_true]

end Sys2Proof.Machine
end

section
/-! SUPPORT. The inputs of the energy attribution (R156-R190, R258, R402). -/
namespace Sys2Proof.Machine
open Sys2Proof

/-- A value registered at an edge is what reads from then on (R48). -/
theorem Staged.value_put (x : Staged) (v t : Nat) : (x.put v t).value = v := by
  unfold Staged.put
  split <;> rfl

section
variable {b c : Block} (h : c.offBand = b.offBand)
include h

theorem Block.inRecOf_of_offBand (w : Nat) : c.inRecOf w = b.inRecOf w :=
  (congrArg (Block.inRecOf · w) h : c.offBand.inRecOf w = b.offBand.inRecOf w)

theorem Block.lg_of_offBand : c.lg = b.lg := (congrArg Block.lg h : c.offBand.lg = b.offBand.lg)

theorem Block.ea_of_offBand : c.ea = b.ea := (congrArg Block.ea h : c.offBand.ea = b.offBand.ea)

theorem Block.vslice_of_offBand (d : Nat) : c.vslice d = b.vslice d :=
  (congrArg (Block.vslice · d) h : c.offBand.vslice d = b.offBand.vslice d)

end

section
variable (b : Block)

/-- A link gives its channel to a flit by its own state alone. -/
theorem Block.sbUp_of_link {x : Block} (d vc type source : Nat) (body : DWord) (h : x.link d = b.link d) :
    (x.sbUp d vc type source body).isSome = (b.sbUp d vc type source body).isSome := by
  unfold Block.sbUp
  rw [h]
  dsimp only
  split
  · rw [Option.isSome_map, Option.isSome_map]
  · rfl

theorem Block.up_of_sbUp {d vc type source : Nat} {body : DWord} (h : (b.sbUp d vc type source body).isSome = true) :
    (b.link d).state = .up := by
  unfold Block.sbUp at h
  simp only at h
  split at h
  next hup => exact hup.1
  next => exact absurd h Bool.false_ne_true

theorem Block.inputAtHub_inTime (d w : Nat) (h : b.now ≤ ((b.inRecOf w).tick + 2) * 1024) :
    b.inputAtHub d w = { b with lg := { b.lg with recs := b.lg.recs.set d (some (b.inRecOf w)) } } := if_pos h

/-- A record that its Relay holds alone goes to the Hub in its tick (R258). -/
theorem Block.sendInput_alone (d : Nat) (w : DWord) (hheld : (b.relay d).inHeld = [])
    (hsent : (b.link d).inputSent = false) (hup : (b.sbUp d 0 0x10 (srcRelay d) w).isSome = true)
    (hnow : b.now ≤ ((b.inRecOf w.toNat).tick + 2) * 1024) :
    ∃ c : Block, c.offBand = b.offBand ∧
      b.sendInput d w = { c with lg := { c.lg with recs := c.lg.recs.set d (some (b.inRecOf w.toNat)) } } := by
  have hstate : ¬(b.link d).state = .down := by
    rw [b.up_of_sbUp hup]
    exact nofun
  obtain ⟨x, hx⟩ : ∃ x, x = b.setRelay d { b.relay d with inHeld := (b.relay d).inHeld ++ [w] } := ⟨_, rfl⟩
  have hxheld : (x.relay d).inHeld = [w] := by rw [hx, Block.relay_setRelay, hheld, List.nil_append]
  have hxsent : (x.link d).inputSent = false := by rw [hx]; exact hsent
  obtain ⟨⟨f, y⟩, hy⟩ := Option.isSome_iff_exists.mp ((Block.sbUp_of_link b d 0 0x10 (srcRelay d) w (by rw [hx]; rfl) :
    (x.sbUp d 0 0x10 (srcRelay d) w).isSome = _).trans hup)
  have hband : y.offBand = b.offBand := (Block.offBand_sbUp hy).trans (by rw [hx, Block.offBand_setRelay])
  obtain ⟨z, hz⟩ : ∃ z, z = (y.setRelay d { y.relay d with inHeld := [] }).setLink d
    { y.link d with inputSent := true } := ⟨_, rfl⟩
  have hzband : z.offBand = b.offBand := by rw [hz]; exact hband
  refine ⟨z, hzband, ?_⟩
  have hrec : z.inRecOf w.toNat = b.inRecOf w.toNat := Block.inRecOf_of_offBand hzband _
  have hsend : b.sendInput d w = z.inputAtHub d w.toNat := by
    rw [Block.sendInput, if_neg hstate, ← hx, Block.flushInput]
    simp only [hxheld, hxsent, hy, Bool.false_eq_true, if_false]
    rw [hz]
  rw [hsend, z.inputAtHub_inTime d _ (by rw [Block.now_of_offBand hzband, hrec]; exact hnow), hrec]

end

/-- Settles O7, command by command. -/
theorem attributionCommandsComplete : Obligations.AttributionCommandsComplete := by
  unfold Obligations.AttributionCommandsComplete
  refine ⟨?sheaf, ?input, ?meas, ?evaluate, ?publish⟩
  case sheaf =>
    intro s now b c die e rest h hfifo hsent
    show execSheafAtHub die now s = _
    refine State.on_at h fun y hy => ?_
    simp only [hy, hfifo, hsent]
  case input =>
    intro s now b die record h hheld hsent hup hnow
    obtain ⟨x, hrun, hrecs, hvin⟩ : ∃ x, execInputSenseRecord die record now s = .next (s.done x) ∧
        x.lg.recs = b.lg.recs.set die.val (some (b.inRecOf record.toNat)) ∧
        (x.vslice die.val).vin16.value =
          vin16Of (b.inRecOf record.toNat).valid (b.inRecOf record.toNat).vIn := by
      refine State.on_at_exists h fun y hy => ?_
      simp only [hy]
      obtain ⟨z, hz⟩ : ∃ z, z = b.setVslice die.val { b.vslice die.val with
        vin16 := (b.vslice die.val).vin16.put
          (vin16Of (b.inRecOf record.toNat).valid (b.inRecOf record.toNat).vIn) b.edge
        inTick := some (b.inRecOf record.toNat).tick } := ⟨_, rfl⟩
      have hrec : z.inRecOf record.toNat = b.inRecOf record.toNat := by rw [hz]; rfl
      obtain ⟨c, hband, hsend⟩ := z.sendInput_alone die.val record (by rw [hz]; exact hheld) (by rw [hz]; exact hsent)
        (by rw [Block.sbUp_of_link b _ _ _ _ _ (by rw [hz]; rfl)]; exact hup)
        (by rw [hrec, hz]; exact hnow)
      rw [← hz, hsend, hrec]
      refine ⟨?_, ?_⟩
      · show c.lg.recs.set _ _ = _
        rw [Block.lg_of_offBand hband, hz]
        rfl
      · show (c.vslice die.val).vin16.value = _
        rw [Block.vslice_of_offBand hband, hz, Block.vslice_setVslice, Staged.value_put]
    exact ⟨_, _, hrun, hrecs, rfl, rfl, rfl, hvin⟩
  case meas =>
    intro s now b c dom m rest h hout hsent hnow
    have hband := b.offBand_sbLow hsent
    obtain ⟨x, hrun, hleft, hmeas⟩ : ∃ x, execDomainMeasurementRecord dom now s = .next (s.done x) ∧
        (x.vdom dom.val).out = rest ∧
        Tab.get (fun _ => none) x.ea.meas dom.val = some (measOfWord b.tick (m.word dom.val)) := by
      refine State.on_at_exists h fun y hy => ?_
      have htick (v : VrcDom) : (c.setVdom dom.val v).tick = b.tick := (Block.tick_of_offBand hband : c.tick = b.tick)
      have hclock (v : VrcDom) : (c.setVdom dom.val v).now = b.now := (Block.now_of_offBand hband : c.now = b.now)
      simp only [hy, hout, hsent, htick, hclock, if_pos hnow]
      exact ⟨congrArg VrcDom.out (c.vdom_setVdom _ _), Tab.get_set_same _ _ _ _⟩
    exact ⟨_, hrun, hleft, hmeas⟩
  case evaluate =>
    intro s now b h htick hnew hawake
    show execEaEvaluation now s = _
    refine State.on_at h fun y hy => ?_
    simp only [hy, Block.when, decide_eq_true htick, bne_iff_ne.mpr hnew, hawake, Bool.not_false, Bool.and_self, if_true]
  case publish =>
    intro s now b r h hstaged hdue
    show execEaPublication now s = _
    refine State.on_at h fun y hy => ?_
    simp only [hy, hstaged, Block.when_pos (decide_eq_true hdue)]

end Sys2Proof.Machine
end

section
/-! SUPPORT. Droop response and margin (R361-R375, R383). -/
namespace Sys2Proof.Machine
open Sys2Proof

/-! ## The margin's operations leave the chains alone -/

section
variable (b : Block)

theorem Block.chains_relayQueue (die : Nat) (r : FaultRec) : (b.relayQueue die r).chains = b.chains := by
  unfold Block.relayQueue
  dsimp only
  split
  · rfl
  · split <;> rfl

theorem Block.chains_relayFault (die g src inst : Nat) (ended : Bool) :
    (b.relayFault die g src inst ended).chains = b.chains := b.chains_relayQueue _ _

theorem Block.chains_vrcCause (d cause rate : Nat) : (b.vrcCause d cause rate).chains = b.chains := rfl

theorem Block.chains_showMargin (n : Nat) : (b.showMargin n).chains = b.chains := by
  simp -implicitDefEqProofs only [Block.showMargin, Block.setSat, Block.chains_setFld]

theorem Block.chains_retarget (n cause rate : Nat) : (b.retarget n cause rate).chains = b.chains := by
  rw [Block.retarget, Block.chains_showMargin]
  split
  · rfl
  · rw [Block.chains_vrcCause, Block.chains_setFld]

theorem Block.chains_raiseReady (n : Nat) : (b.raiseReady n).chains = b.chains := by
  rw [Block.raiseReady]
  split
  · split <;> rfl
  · rfl

theorem Block.chains_sendOrder (n : Nat) : (b.sendOrder n).chains = b.chains := by
  rw [Block.sendOrder]
  split <;> rfl

theorem Block.chains_endTransition (n : Nat) : (b.endTransition n).chains = b.chains := by
  simp -implicitDefEqProofs only [Block.endTransition, Block.chains_sendOrder, Block.chains_showMargin, Block.countModes, Block.chains_setFld,
    Block.chains_setMargin]

theorem Block.chains_transitionReady (n : Nat) : (b.transitionReady n).chains = b.chains := by
  rw [Block.transitionReady]
  split
  · exact b.chains_endTransition n
  · rfl

theorem Block.chains_fallback (n : Nat) : (b.fallback n).chains = b.chains := by
  simp -implicitDefEqProofs only [Block.fallback, Block.chains_relayFault, Block.incSat, Block.setSat, Block.chains_setFld,
    Block.chains_setMargin]

/-- A refit raises or ends its fault in the Relay and retargets the domain. -/
theorem Block.chains_refit (n cause rate : Nat) : (b.refit n cause rate).chains = b.chains := by
  simp -implicitDefEqProofs only [Block.refit, Block.chains_raiseReady, Block.chains_retarget, Block.chains_setMargin,
    apply_ite Block.chains, Block.chains_relayFault, Block.chains_setFld, ite_self]

theorem Block.chains_marginExit (n code : Nat) (fast hold : Bool) : (b.marginExit n code fast hold).chains = b.chains := by
  rw [Block.marginExit]
  dsimp only
  split
  · rfl
  · simp only [Block.chains_transitionReady, apply_ite Block.chains, Block.chains_vrcCause, Block.chains_refit,
      Block.chains_fallback, Block.chains_setFld, Block.chains_setMargin, ite_self]

theorem Block.chains_injecting (on : Bool) (f : Block → Block) (hf : ∀ x : Block, (f x).chains = x.chains) :
    (b.injecting on f).chains = b.chains := by
  rw [Block.injecting]
  split
  · exact hf _
  · exact hf _

theorem Block.chains_exitInjected (on : Bool) (n code : Nat) (fast hold : Bool) :
    (b.injecting on fun s => s.marginExit n code fast hold).chains = b.chains :=
  b.chains_injecting on _ fun x => x.chains_marginExit n code fast hold
/-- A glint summary is counted in the tick that it names (R102, R369). -/
theorem Block.glintTick_takeSummary (n : Nat) (w : DWord) :
    ((b.takeSummary n w).chain n).glintTick = expandStamp 8 b.tick (getBits w.toNat 46 8) := by
  have hstim (c : Prop) [Decidable c] (det inst : Nat) : (if c then b.setStim det inst none else b).tick = b.tick := by
    split <;> rfl
  obtain ⟨x, c, hchains, hc⟩ : ∃ (x : Block) (c : ChainS), (b.takeSummary n w).chains = Block.chains (x.setChain n c) ∧
      c.glintTick = expandStamp 8 b.tick (getBits w.toNat 46 8) := by
    unfold Block.takeSummary
    dsimp only
    simp -implicitDefEqProofs only [hstim, apply_ite Block.chains, Block.setSat, Block.chains_setFld, Block.chains_exitInjected,
      ite_self]
    exact ⟨_, _, rfl, rfl⟩
  rw [Block.chain, hchains, ← Block.chain, Block.chain_setChain, hc]

end

/-! ## What a Post takes from a margin order (Table 08-7) -/

theorem Block.takeOrder_fields (b : Block) (t w : Nat) : (b.takeOrder t w).fld (F.POST_LANTERN_thr t) = getBits w 60 4 ∧
    (b.takeOrder t w).fld (F.POST_LANTERN_deep t) = getBits w 58 2 ∧
    (b.takeOrder t w).fld (F.POST_LANTERN_div t) = getBits w 57 1 ∧
    ((b.takeOrder t w).post t).strHold = getBits w 48 9 := by
  have hpost (x : Block) (p : PostS) (f : Fld) : (x.setPost t p).fld f = x.fld f := rfl
  have hbits (lo n : Nat) : getBits w lo n % 2 ^ n = getBits w lo n := Nat.mod_mod _ _
  simp only [Block.takeOrder, hpost, Block.post_setPost, and_true]
  have hdeep : (F.POST_LANTERN_deep t).lo + (F.POST_LANTERN_deep t).width ≤ (F.POST_LANTERN_thr t).lo := by
    show 6 + 2 ≤ 8; decide
  have hdiv : (F.POST_LANTERN_div t).lo + (F.POST_LANTERN_div t).width ≤ (F.POST_LANTERN_deep t).lo := by
    show 5 + 1 ≤ 6; decide
  have hthr : (F.POST_LANTERN_thr t).lo + (F.POST_LANTERN_thr t).width ≤ 64 := by show 8 + 4 ≤ 64; decide
  refine ⟨?_, ?_, ?_⟩
  · rw [Block.fld_setFld_disjoint _ _ _ _ hthr (.inr (.inr (by omega))),
      Block.fld_setFld_disjoint _ _ _ _ hthr (.inr (.inr hdeep)), Block.fld_setFld _ _ _ hthr]
    exact hbits 60 4
  · rw [Block.fld_setFld_disjoint _ _ _ _ (by omega) (.inr (.inr hdiv)), Block.fld_setFld _ _ _ (by omega)]
    exact hbits 58 2
  · rw [Block.fld_setFld _ _ _ (by omega)]
    exact hbits 57 1

/-! ## The end of a calibration (R361) -/

/-- A Post whose calibration has ended shows it, and its gate. -/
def Block.calIdle (s : Block) (t : Nat) : Block :=
  let s := (s.setPost t { s.post t with cal := .idle }).setFld (F.POST_LANTERN_CAL_cal_busy t) 0
  ((s.setFld (F.POST_LANTERN_CAL_cal_req t) 0).showGate t).noteResid t

/-- A trim in range is kept with the temperature it was found at. -/
def Block.calTrim (s : Block) (t : Nat) (trim : Int) (read : Option Int) : Block :=
  let s := (s.setFldS (F.POST_LANTERN_CAL_trim t) trim).setFld (F.POST_LANTERN_CAL_cal_valid t) 1
  match read with
  | some r => s.setFld (F.POST_LANTERN_CAL_cal_temp t) (ofSigned 16 r)
  | none => let f := s.free; f.2.setFld (F.POST_LANTERN_CAL_cal_temp t) (f.1.toNat % 65536)

section
variable (b : Block) (t : Nat)

theorem Block.cal_noteResid : ((b.noteResid t).post t).cal = (b.post t).cal := by
  rw [Block.noteResid]
  split
  · rfl
  · rw [Block.post_setPost]

theorem Block.fld_noteResid (f : Fld) : (b.noteResid t).fld f = b.fld f := by
  rw [Block.noteResid]
  split <;> rfl

theorem Block.cal_calIdle : ((b.calIdle t).post t).cal = .idle := by
  rw [Block.calIdle, Block.cal_noteResid, Block.showGate, Block.post_setPost]
  exact congrArg PostS.cal (b.post_setPost t _)

theorem Block.fld_calIdle (f : Fld) (h : f.off ≠ 0x100504 + 0x1000 * t) : (b.calIdle t).fld f = b.fld f := by
  have hoff (lo w v : Nat) (x : Block) : (x.setFld ⟨0x100504 + 0x1000 * t, lo, w⟩ v).fld f = x.fld f :=
    Block.fld_setFld_off _ _ _ _ (Ne.symm h)
  rw [Block.calIdle, Block.fld_noteResid, Block.showGate]
  exact (hoff _ _ _ _).trans (hoff _ _ _ _)

theorem Block.post_calTrim (trim : Int) (read : Option Int) : (b.calTrim t trim read).post t = b.post t := by
  have hkeep (x : Block) (f : Fld) (v : Nat) : (x.setFld f v).post t = x.post t := rfl
  have hfree (x : Block) : x.free.2.post t = x.post t := rfl
  unfold Block.calTrim
  dsimp only
  split
  · rw [hkeep, hkeep, Block.setFldS, hkeep]
  · rw [hkeep, hfree, hkeep, Block.setFldS, hkeep]

/-- The temperature lies beside the trim and its mark. -/
theorem Block.fld_calTrim (trim : Int) (read : Option Int) (f : Fld)
    (hlo : f.lo + f.width ≤ 16) : (b.calTrim t trim read).fld f =
      ((b.setFldS (F.POST_LANTERN_CAL_trim t) trim).setFld (F.POST_LANTERN_CAL_cal_valid t) 1).fld f := by
  have htemp (x : Block) (v : Nat) : (x.setFld (F.POST_LANTERN_CAL_cal_temp t) v).fld f = x.fld f :=
    Block.fld_setFld_disjoint _ _ _ _ (by omega) (.inr (.inl hlo))
  unfold Block.calTrim
  dsimp only
  split
  · exact htemp _ _
  · exact htemp _ _

theorem Block.calValid_calTrim (trim : Int) (read : Option Int) :
    (b.calTrim t trim read).fld (F.POST_LANTERN_CAL_cal_valid t) = 1 := by
  rw [Block.fld_calTrim _ _ _ _ _ (by show 2 + 1 ≤ 16; decide)]
  exact Block.fld_setFld_fits _ _ _ (by show 2 + 1 ≤ 64; decide) (by show 1 < 2 ^ 1; decide)

theorem Block.trim_calTrim (trim : Int) (read : Option Int) (h : trim.natAbs ≤ 31) :
    (b.calTrim t trim read).fldI (F.POST_LANTERN_CAL_trim t) = trim := by
  have hkept : (b.calTrim t trim read).fldI (F.POST_LANTERN_CAL_trim t) =
      (b.setFldS (F.POST_LANTERN_CAL_trim t) trim).fldI (F.POST_LANTERN_CAL_trim t) := by
    rw [Block.fldI, Block.fldI, Block.fld_calTrim _ _ _ _ _ (by show 4 + 6 ≤ 16; decide),
      Block.fld_setFld_disjoint _ _ _ _ (by show 4 + 6 ≤ 64; decide) (.inr (.inr (by show 2 + 1 ≤ 4; decide)))]
  rw [hkept, Block.fldI_setFldS _ _ (by show 4 + 6 ≤ 64; decide) _ (by show 0 < 6; decide), satS_eq]
  show (if trim < -(2 : Int) ^ 5 then _ else if (2 : Int) ^ 5 - 1 < trim then _ else trim) = trim
  rw [if_neg (by omega), if_neg (by omega)]

end

/-- Settles O12, command by command. -/
theorem marginCommandsComplete : Obligations.MarginCommandsComplete := by
  unfold Obligations.MarginCommandsComplete
  refine ⟨?detection, ?release, ?stuck, ?stretch, ?summary, fun b => b.glintTick_takeSummary, ?record, ?order, ?taken,
    ?slew, ?hold, ?lock, ?request, ?start, ?finish⟩
  case detection =>
    intro s now b tile mv again h hlow
    show execLanternDetection tile mv again now s = _
    refine State.on_at h fun y hy => ?_
    simp only [hy, Block.when_pos (decide_eq_true hlow)]
  case release =>
    intro s b tile mv edges h hpow hreq hlevel hhold hstim
    show execLanternRelease ⟨tile, mv, edges⟩ s = _
    refine State.on_eq h (Block.when_pos ?_)
    have hstretched : ((b.post tile.val).primary || (b.post tile.val).deepReq) = true := Bool.or_eq_true _ _ ▸ hreq
    have hrecovered : (((b.post tile.val).after4 && !(b.post tile.val).deepReq) ||
        decide (b.releaseLevel tile.val + 5 ≤ mv.val)) = true := by
      rw [Bool.or_eq_true, Bool.and_eq_true, Bool.not_eq_true', decide_eq_true_iff]
      exact hlevel
    have hover : ((b.stim 0 tile.val).all fun m => decide (m.2 ≤ b.now)) = true := by
      rw [Option.all_eq_true]
      exact fun m hm => decide_eq_true (hstim m hm)
    rw [hpow, hstretched, hrecovered, decide_eq_true hhold, hover]
    rfl
  case stuck =>
    intro s b tile h hpow hstuck
    show execLanternStuck tile s = _
    exact State.on_eq h (Block.when_pos (by rw [hpow, decide_eq_true hstuck]; rfl))
  case stretch =>
    intro s b c tile l h hpow hquiet hl hsent
    show execStretchOrder tile s = _
    refine State.on_eq h ((Block.when_pos (by rw [hpow, hquiet]; rfl)).trans ?_)
    simp only [← hl, hsent]
  case summary =>
    intro s now b c tile k count a deep h hsummary hsent
    show execGlintSummary tile now s = _
    refine State.on_at h fun y hy => ?_
    simp only [hy, hsummary, hsent]
    rfl
  case record =>
    rintro s now b x y c dom mine f m h hup rfl rfl rfl hoff
    refine ⟨_, rfl, ?_⟩
    show execGlintRecord dom now s = _
    refine State.on_at h fun z hz => ?_
    simp only [hz, Block.when_pos hup, hoff]
  case order =>
    intro s b c tile h hpow hcarried
    show execMarginOrder tile s = _
    refine State.on_eq h ((Block.when_pos hpow).trans ?_)
    simp only [hcarried]
  case taken =>
    exact fun b => b.takeOrder_fields
  case slew =>
    intro s now b dom h htrans hwait hdue
    refine ⟨_, rfl, ?_⟩
    show execMarginTightenSlew dom now s = _
    refine State.on_at h fun y hy => ?_
    simp only [hy, Block.when, htrans, hwait, decide_eq_true hdue, beq_self_eq_true, Bool.and_self, if_true]
  case hold =>
    intro s b dom h hheld hhold hnext htrans
    show execMarginHoldEnd dom s = _
    exact State.on_eq h (Block.when_pos (by rw [hheld, hhold, hnext, htrans]; rfl))
  case lock =>
    intro s now b dom f h hpll
    refine ⟨_, rfl, ?_⟩
    show execPllLock dom now s = _
    refine State.on_at h fun y hy => ?_
    have hmargin : (b.setFld (F.LG_MARGIN_FREQ_f_now dom.val) f).margin dom.val = b.margin dom.val := by
      rw [Block.margin, Block.margin, Block.margins_setFld]
    have hrate (x : Block) (m : MarginS) : (x.setMargin dom.val m).domRate dom.val = x.domRate dom.val := rfl
    simp only [hy, Block.pllLock, hpll, hmargin, hrate]
  case request =>
    intro s b tile h hlink hpow hcal
    show execCalReq tile s = _
    refine State.on_eq h ((Block.when_pos hlink).trans ?_)
    rw [Block.calReq]
    exact Block.when_pos (by rw [hpow, hcal]; rfl)
  case start =>
    intro s b tile h hruns hcal hrun
    show execLanternCalStart tile s = _
    exact State.on_eq h (Block.when_pos (by rw [hruns, hcal, hrun]; rfl))
  case finish =>
    intro s b tile level h hruns hcal htrim
    refine ⟨(b.calIdle tile.val).calTrim tile.val
      ((level.val : Int) - b.fld (F.VRC_DOM_REF_vmean_mv (domOfTile tile.val))) (b.post tile.val).tempRead, ?_, ?_,
      Block.calValid_calTrim _ _ _ _, Block.trim_calTrim _ _ _ _ htrim⟩
    · have hmean : (b.calIdle tile.val).fld (F.VRC_DOM_REF_vmean_mv (domOfTile tile.val)) =
          b.fld (F.VRC_DOM_REF_vmean_mv (domOfTile tile.val)) := b.fld_calIdle _ _ (by
        simp only [F.VRC_DOM_REF_vmean_mv, domOfTile]; omega)
      show execLanternCalEnd tile level s = _
      refine State.on_eq h ((Block.when_pos (by rw [hruns, hcal]; rfl)).trans ?_)
      show Block.readmitCal (if ((level.val : Int) - (b.calIdle tile.val).fld
          (F.VRC_DOM_REF_vmean_mv (domOfTile tile.val))).natAbs ≤ 31 then (b.calIdle tile.val).calTrim tile.val
            ((level.val : Int) - (b.calIdle tile.val).fld (F.VRC_DOM_REF_vmean_mv (domOfTile tile.val)))
            (b.post tile.val).tempRead else _) tile.val = _
      rw [hmean, if_pos htrim]
    · rw [Block.post_calTrim, Block.cal_calIdle]

end Sys2Proof.Machine
end

section
/-! SUPPORT. The Limit Guard: package power, levels and what reaches a Relay (R257-R285). -/
namespace Sys2Proof.Machine
open Sys2Proof

/-- A global stop is not reached while the count goes on. -/
theorem State.readyAt.frozen_false {s : State} {now : Ft} {b : Block} (h : s.readyAt now b) : ¬b.frozen = true := by
  obtain ⟨-, hrunning, rfl⟩ := h
  rw [Block.frozen, Block.fld_advance, ← Block.frozen, hrunning]
  exact Bool.false_ne_true

section
variable (b : Block)

/-- The record that a trip comes with raises its source, every other record ends there (R277). -/
theorem Block.thermAtHub_eq (d w : Nat) (bmem : Bool) :
    b.thermAtHub d w bmem =
      (let e := (b.forAll (List.range 16) fun s k =>
        s.setFld (F.LG_DOM_STATE_therm_level (16 * d + k)) (getBits w (16 + 3 * k) 3)).showLevels.coolUpdate
      let t := 256 * d + getBits w 5 8
      if bit w 4 = false then e
      else if bmem = true then e.raise 0 1 d
      else e.injecting (e.stim 1 t).isSome fun e => e.raise 0 0 t) := by
  rw [Block.thermAtHub]
  cases bit w 4
  · exact (if_pos rfl).trans (if_pos rfl).symm
  · exact (if_neg Bool.false_ne_true).trans (if_neg (Ne.symm Bool.false_ne_true)).symm

/-- A row that could fall for the whole hold falls one level (R274). -/
theorem Block.rowFall_tile (die k : Nat)
    (hhold : b.fld F.LG_CTRL_hold_ticks ≤ ((b.thermS die).tile.getD k Row.reset).cool)
    (hlevel : 0 < ((b.thermS die).tile.getD k Row.reset).level)
    (hnot : ((b.thermS die).tile.getD k Row.reset).level ≠ 5) :
    b.rowFall die k 0 = b.setRows die { b.thermS die with
      tile := (b.thermS die).tile.set k ⟨((b.thermS die).tile.getD k Row.reset).level - 1, 0⟩ } := by
  have hfalls : ¬(((b.thermS die).tile.getD k Row.reset).cool < b.fld F.LG_CTRL_hold_ticks ∨
      ((b.thermS die).tile.getD k Row.reset).level = 0) := by omega
  rw [Block.rowFall]
  exact (if_neg hfalls).trans (if_neg hnot)

end

/-- Settles O9, command by command. -/
theorem guardCommandsComplete : Obligations.GuardCommandsComplete := by
  unfold Obligations.GuardCommandsComplete
  refine ⟨?evaluate, ?step, ?leave, ?package, ?domain, ?low, ?lent, ?borrowed, ?action, ?fall, ?record, ?hot⟩
  case evaluate =>
    intro s now b h htick hnew
    refine ⟨_, _, rfl, rfl, ?_⟩
    show execLgEvaluation now s = _
    refine State.on_at h fun y hy => ?_
    simp only [hy, Block.when, decide_eq_true htick, bne_iff_ne.mpr hnew, Bool.and_self, if_true]
  case step =>
    intro s b h hhold hpos hlow
    show execLgLevelStepDown s = _
    refine State.on_eq h ((Block.when_pos (by rw [decide_eq_true hhold, decide_eq_true hpos]; rfl)).trans ?_)
    simp only [if_neg (Nat.ne_of_lt hlow)]
  case leave =>
    intro s b h hhold hfive
    show execLgLevelStepDown s = _
    refine State.on_eq h ((Block.when_pos (by rw [decide_eq_true hhold, hfive]; rfl)).trans ?_)
    simp only [if_pos hfive]
  case package =>
    intro s b h hfive hrest hrelays hvid
    show execLevel5RestoreComplete none s = _
    refine State.on_eq h (Block.when_pos ?_)
    have hacts : ((List.range 4).all fun d => !b.flag (F.HUB_SB_STATUS_link_up d) || (b.relay d).act.restoring) = true := by
      rw [List.all_eq_true]
      intro d hd
      have hact := hrelays d (List.mem_range.mp hd)
      cases hlink : b.flag (F.HUB_SB_STATUS_link_up d)
      · rfl
      · rw [hact hlink, Bool.or_true]
    rw [hfive, hrest, hacts, hvid]
    rfl
  case domain =>
    intro s b n h hrest hvid
    show execLevel5RestoreComplete (some n) s = _
    exact State.on_eq h (Block.when_pos (by rw [hrest, hvid]; rfl))
  case low =>
    intro s b h hrun
    show execUnachievableLimit s = _
    exact State.on_eq h (Block.when_pos (beq_iff_eq.mpr hrun))
  case lent =>
    intro s now b h hadj hdue hwrite
    have hrunning : ¬b.frozen = true := h.frozen_false
    have hnot : ¬(b.lg.adj < 0 ∧ b.fld F.LG_L5_EXPIRY_tick < b.tick) := by omega
    show execL5Expiry now s = _
    refine State.live_at h fun y hy => ?_
    simp only [hy, if_pos hadj, hwrite]
    refine (Block.when_pos ?_).trans ((if_neg hrunning).trans (congrArg Block.settle (if_neg hnot)))
    rw [bne_iff_ne.mpr (Int.ne_of_gt hadj), decide_eq_true hdue, decide_eq_true hadj]
    rfl
  case borrowed =>
    intro s now b h hadj htime hdue hwrite
    have hrunning : ¬b.frozen = true := h.frozen_false
    show execL5Expiry now s = _
    refine State.live_at h fun y hy => ?_
    simp only [hy, if_neg (Int.not_lt.mpr (Int.le_of_lt hadj)), hwrite]
    refine (Block.when_pos ?_).trans ((if_neg hrunning).trans (congrArg Block.settle
      (ite_congr (propext (and_iff_right hadj)) (fun _ => rfl) (fun _ => rfl))))
    rw [bne_iff_ne.mpr (Int.ne_of_lt hadj), decide_eq_true hdue, htime,
      decide_eq_false (Int.not_lt.mpr (Int.le_of_lt hadj))]
    rfl
  case action =>
    intro s b c die f a rest h hacts htake
    show execLgActionAtRelay die s = _
    refine State.on_eq h ?_
    simp only [hacts, htake]
  case fall =>
    intro s b die dom h hhold hlevel hnot
    show execThermalLevelFall die dom 0 s = _
    exact State.on_eq h (b.rowFall_tile die.val dom.val hhold hlevel hnot)
  case record =>
    intro s now b c die f bmem h hup hoff
    refine ⟨_, _, rfl, rfl, ?_⟩
    show execThermalStateRecord die now s = _
    refine State.on_at h fun y hy => ?_
    simp only [hy, Block.when_pos hup, hoff, Block.thermAtHub_eq]
  case hot =>
    intro s now b asserted h
    show execHotNChange asserted now s = _
    refine State.on_at h fun y hy => ?_
    simp only [hy]

end Sys2Proof.Machine
end

section
/-! SUPPORT. A regulator's period, its limits, its start and its stop (R385-R421). -/
namespace Sys2Proof.Machine
open Sys2Proof

/-! ## The two switches of a phase (R388, R406, R413, R423) -/

/-- The low side is held low while the high side is asserted. -/
theorem Pulse.low_of_high (q : Pulse) (t : Int) (h : q.high t = true) : q.low t = true := by
  simp only [Pulse.high, Pulse.low, decide_eq_true_eq] at h ⊢
  omega

/-- The two switches of a phase are never on together. -/
theorem VrcPh.never_both (x : VrcPh) (t : Int) : (x.hsAt t && x.lsAt t) = false := by
  cases hhs : x.hsAt t
  · rfl
  · have hlow : (x.pulse.any (·.low t) || x.tail.any (·.low t)) = true := by
      rw [VrcPh.hsAt, Bool.or_eq_true, Option.any_eq_true, Option.any_eq_true] at hhs
      rw [Bool.or_eq_true, Option.any_eq_true, Option.any_eq_true]
      exact hhs.imp (fun ⟨q, hq, h⟩ => ⟨q, hq, q.low_of_high t h⟩) fun ⟨q, hq, h⟩ => ⟨q, hq, q.low_of_high t h⟩
    rw [VrcPh.lsAt, hlow, Bool.not_true, Bool.and_false, Bool.false_and, Bool.and_false]

theorem VrcPh.hsAt_crowbar (x : VrcPh) (t : Int) : x.crowbar.hsAt t = false := rfl

theorem VrcPh.lsAt_crowbar (x : VrcPh) (t : Int) : x.crowbar.lsAt t = true := rfl

/-- The high side follows the period's pulse, and the one before it past its period's end. -/
theorem VrcPh.hsAt_drive (x : VrcPh) (w o dtLh dtHl : Nat) (t : Int) :
    (x.drive w o dtLh dtHl).hsAt t = true ↔ ((o : Int) ≤ t ∧ t < o + w) ∨
      ∃ q, x.pulse = some q ∧ q.rise - 256 ≤ t ∧ t < q.rise - 256 + q.width := by
  have htail : (x.drive w o dtLh dtHl).tail = x.pulse.map Pulse.next := by
    unfold VrcPh.drive
    dsimp only
    split <;> rfl
  have hpulse : ((x.drive w o dtLh dtHl).pulse.any (·.high t)) = true ↔ (o : Int) ≤ t ∧ t < o + w := by
    unfold VrcPh.drive
    dsimp only
    split
    next hw => simp only [Option.any_none, Bool.false_eq_true, false_iff]; omega
    next => simp only [Option.any_some, Pulse.high, decide_eq_true_eq]
  rw [VrcPh.hsAt, Bool.or_eq_true, hpulse, htail, Option.any_map, Option.any_eq_true]
  exact or_congr_right (exists_congr fun q => and_congr_right fun _ => decide_eq_true_iff)

theorem VrcPh.lsAt_drive_low (x : VrcPh) (w o dtLh dtHl : Nat) (t : Int) (hw : 0 < w) (hls : x.ls = true)
    (hlo : (o : Int) - dtLh ≤ t) (hhi : t < o + w + dtHl) : (x.drive w o dtLh dtHl).lsAt t = false := by
  have hlow : ((x.drive w o dtLh dtHl).pulse.any (·.low t)) = true := by
    simp only [VrcPh.drive, if_neg (Nat.ne_of_gt hw), hls, if_true, Option.any_some, Pulse.low, decide_eq_true_eq]
    exact ⟨hlo, hhi⟩
  rw [VrcPh.lsAt, hlow, Bool.true_or, Bool.not_true, Bool.and_false, Bool.false_and]

theorem VrcPh.lsAt_drive_high (x : VrcPh) (w o dtLh dtHl : Nat) (t : Int) (hw : 0 < w) (hpulse : x.pulse = none)
    (hzero : x.zero = []) (h : (o : Int) + w + dtHl ≤ t) : (x.drive w o dtLh dtHl).lsAt t = true := by
  have hlow : (⟨o, w, if x.ls = true then dtLh else o + 256, dtHl⟩ : Pulse).low t = false := by
    simp only [Pulse.low, decide_eq_false_iff_not]
    omega
  simp only [VrcPh.lsAt, VrcPh.drive, if_neg (Nat.ne_of_gt hw), hpulse, hzero, Option.map_none, Option.any_some, Option.any_none,
    hlow, List.map_nil, List.filter_nil, List.all_nil, Bool.or_self, Bool.not_false, Bool.and_self]

/-- A peak limit ends the asserted pulse within 16 fine steps (R406). -/
theorem VrcPh.hsAt_limit (x y : VrcPh) (p : Pulse) (t u : Int) (htail : x.tail = none) (hpulse : x.pulse = some p)
    (hrise : p.rise ≤ t) (hlimit : x.limit t = some y) (hu : t + 16 ≤ u) : y.hsAt u = false := by
  rw [VrcPh.limit, htail, hpulse] at hlimit
  simp only at hlimit
  split at hlimit
  · obtain rfl := Option.some.inj hlimit
    simp only [VrcPh.hsAt, Option.any_none, Bool.or_false, Option.any_some, Pulse.high, Pulse.truncate,
      decide_eq_false_iff_not]
    omega
  · exact absurd hlimit nofun

/-- The zero comparator holds the low side low from 16 fine steps on, until the next pulse (R413). -/
theorem VrcPh.lsAt_zeroAt (x : VrcPh) (t u : Int) (hu : t + 16 ≤ u)
    (hnext : ∀ p, x.pulse = some p → t < p.rise → u < p.rise) : (x.zeroAt t).lsAt u = false := by
  have hheld : (decide (u < t + 16) || ((x.pulse.filter fun p => decide (t < p.rise)).map (·.rise)).any
      fun b => decide (b ≤ u)) = false := by
    rw [Bool.or_eq_false_iff, decide_eq_false_iff_not, Bool.eq_false_iff, ne_eq, Option.any_eq_true]
    refine ⟨by omega, ?_⟩
    rintro ⟨r, hr, hle⟩
    obtain ⟨p, hp, rfl⟩ := Option.map_eq_some_iff.mp hr
    obtain ⟨hp, hlt⟩ := Option.filter_eq_some_iff.mp hp
    exact absurd (hnext p hp (decide_eq_true_iff.mp hlt)) (Int.not_lt.mpr (decide_eq_true_iff.mp hle))
  simp only [VrcPh.lsAt, VrcPh.zeroAt, List.all_append, List.all_cons, List.all_nil, hheld, Bool.false_and, Bool.and_false]

section
variable (b : Block)

/-- A trip below the fourth within the window shuts the phase down for its wait (R407). -/
theorem Block.tripPhase_waits (p : Nat) (hon : b.phState p = 1) (htrips : (b.vph p).trips.length < 3) :
    ∃ c : Block, c = (((b.setVph p { (b.vph p).cut with trips := 0 :: (b.vph p).trips, wait := 1024 }).incSat
        (F.VRC_PH_COUNT_trip_total p)).setFld (F.VRC_PH_STATUS_trips p) ((b.vph p).trips.length + 1)).relayFault
          (dieOfDom (domOfPhase p)) 6 0 p ∧
      b.tripPhase p = (({ c with fc := { c.fc with riskT := c.fc.riskT + 1 } }).setPhState p 3).showPhases
        (domOfPhase p) := by
  have hcount : min 4 (0 :: (b.vph p).trips).length = (b.vph p).trips.length + 1 := by
    rw [List.length_cons]
    omega
  have hfew : ¬4 ≤ (0 :: (b.vph p).trips).length := by
    rw [List.length_cons]
    omega
  refine ⟨_, rfl, ?_⟩
  rw [Block.tripPhase, Block.when_pos (beq_iff_eq.mpr hon)]
  simp only [hcount, if_neg hfew]

theorem Block.vdom_setFld (f : Fld) (v d : Nat) : (b.setFld f v).vdom d = b.vdom d := by
  rw [Block.vdom, Block.vdoms_setFld, Block.vdom]

/-- A domain of the array or the uncore that runs goes to STOPPING at once (R421). -/
theorem Block.cmdDisable_running (d : Nat) (hdom : 64 ≤ d) (hstate : b.vstate d = Vs.run) :
    b.cmdDisable d = (b.setFld (F.VRC_DOM_CTRL_en d) 0).enterStopping d := by
  have hkept : (b.setFld (F.VRC_DOM_CTRL_en d) 0).vstate d = Vs.run := by
    rw [← hstate, Block.vstate, Block.vstate, Block.fld_setFld_off _ _ _ _ (by
      simp only [F.VRC_DOM_CTRL_en, F.VRC_DOM_STATUS_state]; omega)]
  have hearly : ¬(Vs.run = Vs.prebias ∨ Vs.run = Vs.hiccup) := by decide
  have hcore : ¬(d < 64 ∧ ((tilesOf d).any fun t => !((b.setFld (F.VRC_DOM_CTRL_en d) 0).post t).open_) = true) := by
    omega
  rw [Block.cmdDisable, if_neg (Nat.not_lt.mpr hdom), Block.disableDomain, hkept]
  exact (if_neg hearly).trans ((if_pos (.inr rfl)).trans (if_neg hcore))

theorem Block.vdoms_showPhases (d : Nat) : (b.showPhases d).vdoms = b.vdoms := by
  simp -implicitDefEqProofs only [Block.showPhases, Block.vdoms_setFld]

/-- Phases that come on leave the state of their domain's loop alone. -/
theorem Block.vdom_phasesOn (d : Nat) (l : List Nat) :
    ((b.forAll l fun e q => (e.setPhState q 1).setVph q { e.vph q with acc := 0 }).showPhases d).vdom d = b.vdom d := by
  have hstep (x : Block) (q : Nat) : ((x.setPhState q 1).setVph q { x.vph q with acc := 0 }).vdoms = x.vdoms := by
    rw [Block.vdoms_setVph, Block.setPhState, Block.vdoms_setFld]
  rw [Block.vdom, Block.vdoms_showPhases, b.forAll_keeps Block.vdoms _ hstep, Block.vdom]

end

/-- Settles O13, command by command. -/
theorem regulatorCommandsComplete : Obligations.RegulatorCommandsComplete := by
  unfold Obligations.RegulatorCommandsComplete
  refine ⟨?period, ?peak, ?trip, ?wait, ?zero, ?rating, ?enable, ?prebias, ?ramped, ?reached, ?hiccup, ?retry, ?clear,
    ?disable, ?stop, ?switches, VrcPh.hsAt_limit, VrcPh.lsAt_zeroAt⟩
  case period =>
    intro s now b dom x y isns h
    refine ⟨_, _, _, _, rfl, rfl, rfl, rfl, ?_⟩
    show execPwmPeriod dom (x, y) isns now s = _
    refine State.live_at h fun z hz => ?_
    rw [hz]
  case peak =>
    intro s b phase x h hon hlimit
    show execPeakLimit phase s = _
    refine State.live_eq h ?_
    simp only [Block.peakLimit, hlimit]
    exact Block.when_pos (beq_iff_eq.mpr hon)
  case trip =>
    intro s b phase h hon htrips
    obtain ⟨c, hc, htrip⟩ := b.tripPhase_waits phase.val hon htrips
    refine ⟨c, hc, ?_⟩
    show execPhaseTrip phase s = _
    exact State.live_eq h htrip
  case wait =>
    intro s b phase h hwait hover hrun hshed
    show execTripWaitEnd phase s = _
    refine State.live_eq h ((Block.when_pos (by rw [hwait, hover]; rfl)).trans ?_)
    simp only [hrun, hshed, Bool.not_false, or_true, and_self, if_true]
  case zero =>
    intro s b phase h hde hon hcrow
    show execZeroCross phase s = _
    exact State.live_eq h (Block.when_pos (by rw [hde, hon, hcrow]; rfl))
  case rating =>
    intro s b phase h hover hrun
    refine ⟨_, _, _, rfl, rfl, rfl, ?_⟩
    show execOverRating phase s = _
    refine State.live_eq h ((Block.when_pos (decide_eq_true hover)).trans (if_neg (Nat.not_le.mpr ?_)))
    have hkeep (c : Prop) [Decidable c] (e : Block) (f : Fld) (v d : Nat) :
        (if c then e else e.setFld f v).vdom d = e.vdom d := by
      split
      · rfl
      · exact e.vdom_setFld f v d
    rw [hkeep, Block.vdom_phasesOn, Block.vdom_setFld]
    exact hrun
  case enable =>
    intro s b dom h hmay
    show execDomainEnable dom s = _
    exact State.on_eq h (Block.when_pos hmay)
  case prebias =>
    intro s b dom h hstate hmean
    show execPrebiasRelease dom s = _
    exact State.live_eq h (Block.when_pos (by rw [hstate, decide_eq_true hmean]; rfl))
  case ramped =>
    intro s b dom h hdom hstate href
    refine ⟨_, rfl, ?_⟩
    show execSoftstartComplete dom s = _
    have hramped := beq_iff_eq.mpr href
    refine State.live_eq h ((Block.when_pos (by rw [hstate, hramped]; rfl)).trans ?_)
    simp only [Block.vdom_setFld, if_pos hdom]
  case reached =>
    intro s b dom h hdom hstate hreached
    show execVrcCommandReached dom s = _
    refine State.on_eq h ((Block.when_pos (by rw [hstate, hreached]; rfl)).trans ?_)
    exact if_neg (Nat.not_lt.mpr hdom)
  case hiccup =>
    intro s b dom h hstate hover
    show execHiccupEnd dom s = _
    exact State.live_eq h (Block.when_pos (by rw [hstate, hover]; rfl))
  case retry =>
    intro s b dom h hstate hrun
    show execRetryReset dom s = _
    exact State.live_eq h (Block.when_pos (by rw [hstate, decide_eq_true hrun]; rfl))
  case clear =>
    intro s b dom h hlink hstate
    show execFailClr dom s = _
    refine State.on_eq h ((Block.when_pos hlink).trans ?_)
    rw [Block.failClr, Block.when_pos (beq_iff_eq.mpr hstate)]
  case disable =>
    intro s b dom h hlink hdom hstate
    show execDomainDisable dom s = _
    exact State.on_eq h ((Block.when_pos hlink).trans (b.cmdDisable_running dom.val hdom hstate))
  case stop =>
    intro s b dom h hstate href
    show execStopComplete dom s = _
    exact State.live_eq h (Block.when_pos (by rw [hstate, decide_eq_true href]; rfl))
  case switches =>
    rintro x y w o dtLh dtHl t rfl
    exact ⟨VrcPh.never_both _ t, x.hsAt_crowbar t, x.lsAt_crowbar t, x.hsAt_drive w o dtLh dtHl t,
      x.lsAt_drive_low w o dtLh dtHl t, x.lsAt_drive_high w o dtLh dtHl t⟩

end Sys2Proof.Machine
end

section
/-! SUPPORT. What a fault and its reactions (R505-R518, R525) leave alone. -/
namespace Sys2Proof.Machine
open Sys2Proof

/-- A Relay without its fault queue. -/
def RelayS.offFaults (r : RelayS) : RelayS := { r with faults := [], faultPend := [], overflow := none, overTick := 0 }

/-- The block without the parts that a fault and its reactions change: registers, records, margins, grants and
switches; and each Relay without its fault queue. -/
def Block.offFault (b : Block) : Block × (Nat → RelayS) :=
  ({ b with win := [], fc := FcS.reset, ttu := TtuS.reset, margins := [], vdoms := [], relays := [], slices := [],
            sdoms := [], posts := [] }, fun d => (b.relay d).offFaults)

section
variable (b : Block)

/-! ## The parts -/

theorem Block.offFault_setReg (o : Nat) (v : DWord) : (b.setReg o v).offFault = b.offFault := rfl

theorem Block.offFault_setFld (f : Fld) (v : Nat) : (b.setFld f v).offFault = b.offFault := rfl

theorem Block.offFault_setMargin (n : Nat) (x : MarginS) : (b.setMargin n x).offFault = b.offFault := rfl

theorem Block.offFault_setVdom (d : Nat) (x : VrcDom) : (b.setVdom d x).offFault = b.offFault := rfl

theorem Block.relay_setRelay_ne (d d' : Nat) (x : RelayS) (h : d ≠ d') : (b.setRelay d x).relay d' = b.relay d' :=
  Tab.get_set_ne _ _ _ _ _ h

theorem Block.offFault_setRelay (d : Nat) (x : RelayS) (h : x.offFaults = (b.relay d).offFaults) :
    (b.setRelay d x).offFault = b.offFault := by
  refine Prod.ext rfl (funext fun d' => ?_)
  show ((b.setRelay d x).relay d').offFaults = (b.relay d').offFaults
  by_cases hd : d = d'
  · rw [← hd, Block.relay_setRelay, h]
  · rw [Block.relay_setRelay_ne b d d' x hd]

theorem Block.offFault_setSlice (d : Nat) (x : SliceS) : (b.setSlice d x).offFault = b.offFault := rfl

theorem Block.offFault_setSdom (n : Nat) (x : SiloDom) : (b.setSdom n x).offFault = b.offFault := rfl

theorem Block.offFault_setPost (t : Nat) (x : PostS) : (b.setPost t x).offFault = b.offFault := rfl

theorem Block.offFault_fc (x : FcS) : ({ b with fc := x } : Block).offFault = b.offFault := rfl

theorem Block.offFault_ttu (x : TtuS) : ({ b with ttu := x } : Block).offFault = b.offFault := rfl

theorem Block.offFault_fc_ttu (x : FcS) (y : TtuS) : ({ b with fc := x, ttu := y } : Block).offFault = b.offFault := rfl

theorem Block.offFault_forAll {α : Type} (f : Block → α → Block) (hf : ∀ x a, (f x a).offFault = x.offFault)
    (l : List α) : (b.forAll l f).offFault = b.offFault := b.forAll_keeps Block.offFault f hf l

theorem Block.offFault_setSat (f : Fld) (v : Nat) : (b.setSat f v).offFault = b.offFault := b.offFault_setFld f _

theorem Block.offFault_incSat (f : Fld) (n : Nat) : (b.incSat f n).offFault = b.offFault := b.offFault_setSat f _

theorem Block.offFault_setFldS (f : Fld) (v : Int) : (b.setFldS f v).offFault = b.offFault := b.offFault_setFld f _

theorem Block.offFault_setMapBit (f : Fld) (k : Nat) (v : Bool) : (b.setMapBit f k v).offFault = b.offFault :=
  b.offFault_setFld f _

/-! ## Events -/

theorem Block.offFault_stage (e : Entry) : (b.stage e).offFault = b.offFault := by
  simp -implicitDefEqProofs only [Block.stage, Block.loseEntries, apply_ite Block.offFault, Block.offFault_incSat,
    Block.offFault_setFld, Block.offFault_setSat, Block.offFault_ttu, ite_self]

theorem Block.offFault_event (kind : Nat) (ft : Ft) (body : List Byte) : (b.event kind ft body).offFault = b.offFault :=
  b.offFault_stage _

/-! ## Faults of a die, and the margin -/

theorem Block.offFault_relayQueue (die : Nat) (r : FaultRec) : (b.relayQueue die r).offFault = b.offFault := by
  unfold Block.relayQueue
  dsimp only
  split
  · exact b.offFault_setRelay _ _ rfl
  · split
    · exact b.offFault_setRelay _ _ rfl
    · exact b.offFault_setRelay _ _ rfl

theorem Block.offFault_relayFault (die g src inst : Nat) (ended : Bool) :
    (b.relayFault die g src inst ended).offFault = b.offFault := b.offFault_relayQueue _ _

theorem Block.offFault_showMargin (n : Nat) : (b.showMargin n).offFault = b.offFault := by
  simp -implicitDefEqProofs only [Block.showMargin, Block.offFault_setSat, Block.offFault_setFld]

theorem Block.offFault_vrcCause (d cause rate : Nat) : (b.vrcCause d cause rate).offFault = b.offFault :=
  b.offFault_setVdom _ _

theorem Block.offFault_retarget (n cause rate : Nat) : (b.retarget n cause rate).offFault = b.offFault := by
  simp -implicitDefEqProofs only [Block.retarget, Block.offFault_showMargin, apply_ite Block.offFault,
    Block.offFault_vrcCause, Block.offFault_setFld, ite_self]

theorem Block.offFault_raiseReady (n : Nat) : (b.raiseReady n).offFault = b.offFault := by
  rw [Block.raiseReady]
  split
  · split
    · exact b.offFault_setMargin _ _
    · rfl
  · rfl

theorem Block.offFault_sendOrder (n : Nat) : (b.sendOrder n).offFault = b.offFault := by
  simp -implicitDefEqProofs only [Block.sendOrder, apply_ite Block.offFault, Block.offFault_setMargin, ite_self]

theorem Block.offFault_endTransition (n : Nat) : (b.endTransition n).offFault = b.offFault := by
  simp -implicitDefEqProofs only [Block.endTransition, Block.offFault_sendOrder, Block.offFault_showMargin,
    Block.countModes, Block.offFault_setFld, Block.offFault_setMargin]

theorem Block.offFault_transitionReady (n : Nat) : (b.transitionReady n).offFault = b.offFault := by
  simp -implicitDefEqProofs only [Block.transitionReady, apply_ite Block.offFault, Block.offFault_endTransition, ite_self]

theorem Block.offFault_fallback (n : Nat) : (b.fallback n).offFault = b.offFault := by
  simp -implicitDefEqProofs only [Block.fallback, Block.offFault_relayFault, Block.offFault_incSat, Block.offFault_setFld,
    Block.offFault_setMargin]

theorem Block.offFault_refit (n cause rate : Nat) : (b.refit n cause rate).offFault = b.offFault := by
  simp -implicitDefEqProofs only [Block.refit, Block.offFault_raiseReady, Block.offFault_retarget,
    Block.offFault_setMargin, apply_ite Block.offFault, Block.offFault_relayFault, Block.offFault_setFld, ite_self]

theorem Block.offFault_refloor (n : Nat) : (b.refloor n).offFault = b.offFault := b.offFault_refit _ _ _

theorem Block.offFault_marginExit (n code : Nat) (fast hold : Bool) :
    (b.marginExit n code fast hold).offFault = b.offFault := by
  simp -implicitDefEqProofs only [Block.marginExit, Block.offFault_transitionReady, apply_ite Block.offFault,
    Block.offFault_vrcCause, Block.offFault_refit, Block.offFault_fallback, Block.offFault_setFld,
    Block.offFault_setMargin, ite_self]

theorem Block.offFault_degrade (k : InstKind) : (b.degrade k).offFault = b.offFault := by
  refine b.offFault_forAll _ (fun x n => ?_) _
  simp -implicitDefEqProofs only [apply_ite Block.offFault, Block.offFault_marginExit, ite_self]

/-! ## Grants -/

theorem Block.offFault_refund (g : Grant) : (b.refund g).offFault = b.offFault := by
  simp -implicitDefEqProofs only [Block.refund, Block.offFault_setSlice, Block.setCredit, Block.offFault_setFldS,
    Block.offFault_setSdom]

theorem Block.offFault_reply (d : Nat) (r : Reply) : (b.reply d r).offFault = b.offFault := b.offFault_setSlice _ _

theorem Block.offFault_revokeWhere (d : Nat) (p : Grant → Bool) : (b.revokeWhere d p).offFault = b.offFault :=
  b.offFault_forAll _ (fun x g => ((x.refund g).offFault_reply _ _).trans (x.offFault_refund g)) _

theorem Block.offFault_stopGrants : b.stopGrants.offFault = b.offFault :=
  b.offFault_forAll _ (fun x d => (Block.offFault_revokeWhere _ _ _).trans (x.offFault_setSlice d _)) _

theorem Block.offFault_fatal : b.fatal.offFault = b.offFault := by
  simp -implicitDefEqProofs only [Block.fatal, Block.offFault_degrade, Block.offFault_setFld, Block.offFault_stopGrants]

/-! ## The record of a fault -/

theorem Block.offFault_showFc : b.showFc.offFault = b.offFault := by
  simp -implicitDefEqProofs only [Block.showFc, Block.offFault_setFld]

theorem Block.offFault_fcIrq (core : Nat) : (b.fcIrq core).offFault = b.offFault := by
  simp -implicitDefEqProofs only [Block.fcIrq, apply_ite Block.offFault, Block.offFault_fc, ite_self]

theorem Block.offFault_decideFirst (g src inst sev cost : Nat) (ft : Ft) (injected forced : Bool) :
    (b.decideFirst g src inst sev cost ft injected forced).offFault = b.offFault := by
  simp -implicitDefEqProofs only [Block.decideFirst, Block.latchFirst, apply_ite Block.offFault, Block.offFault_setFld,
    Block.offFault_setReg, Block.offFault_incSat, ite_self]

theorem Block.offFault_faultEntry (r : FaultRec) (sev cost : Nat) (forced : Bool) :
    (b.faultEntry r sev cost forced).offFault = b.offFault := by
  simp -implicitDefEqProofs only [Block.faultEntry, apply_ite Block.offFault, Block.offFault_event, ite_self]

theorem Block.offFault_riskHint : b.riskHint.offFault = b.offFault := by
  simp -implicitDefEqProofs only [Block.riskHint, apply_ite Block.offFault, Block.offFault_event, ite_self]

theorem Block.offFault_record (r : FaultRec) (sev : Nat) (forced dry : Bool) :
    (b.record r sev forced dry).offFault = b.offFault := by
  simp -implicitDefEqProofs only [Block.record, apply_ite Block.offFault, Block.offFault_riskHint, Block.offFault_showFc,
    Block.offFault_faultEntry, Block.offFault_fcIrq, Block.offFault_setFld, Block.offFault_decideFirst,
    Block.offFault_fc, Block.offFault_incSat, Block.offFault_setMapBit, ite_self]

theorem Block.offFault_noteRecent (r : FaultRec) (forced : Bool) : (b.noteRecent r forced).offFault = b.offFault :=
  b.offFault_fc _

theorem Block.offFault_unforce (r : FaultRec) (x : Recent) : (b.unforce r x).offFault = b.offFault := by
  simp -implicitDefEqProofs only [Block.unforce, Block.offFault_showFc, Block.offFault_fc_ttu, apply_ite Block.offFault,
    Block.offFault_setFld, Block.offFault_setMapBit, ite_self]

theorem Block.offFault_reactBase (r : FaultRec) : (b.reactBase r).offFault = b.offFault := by
  simp -implicitDefEqProofs only [Block.reactBase, apply_ite Block.offFault, Block.offFault_fatal, Block.offFault_degrade,
    ite_self]

/-- A fault's record and its reaction, once the reaction is known to keep the rest. -/
theorem Block.offFault_raiseBy (react : Block → FaultRec → Block) (hreact : ∀ x r, (react x r).offFault = x.offFault)
    (r : FaultRec) (forced : Bool) : (b.raiseBy react r forced).offFault = b.offFault := by
  unfold Block.raiseBy
  dsimp only
  split
  · simp -implicitDefEqProofs only [apply_ite Block.offFault, Block.offFault_faultEntry, Block.offFault_fc, ite_self]
  · split
    · rfl
    · split
      · rfl
      · split <;> simp -implicitDefEqProofs only [apply_ite Block.offFault, hreact, Block.offFault_fc,
          Block.offFault_unforce, Block.offFault_record, Block.offFault_noteRecent, ite_self]

theorem Block.offFault_raiseBase (r : FaultRec) : (b.raiseBase r).offFault = b.offFault :=
  b.offFault_raiseBy _ Block.offFault_reactBase r false

/-! ## Isolation -/

theorem Block.offFault_showIso (u : Bool × Nat) (on : Bool) : (b.showIso u on).offFault = b.offFault := by
  have htiles (x : Block) : (x.forAll (tilesOf u.2) fun s t =>
      s.setMapBit (F.FC_ISO_TILE_map (t / 32)) (t % 32) on).offFault = x.offFault :=
    x.offFault_forAll _ (fun y t => y.offFault_setMapBit _ _ _) _
  simp -implicitDefEqProofs only [Block.showIso, apply_ite Block.offFault, Block.offFault_setMapBit, htiles, ite_self]

theorem Block.offFault_isoResult (op target result : Nat) : (b.isoResult op target result).offFault = b.offFault := by
  simp -implicitDefEqProofs only [Block.isoResult, apply_ite Block.offFault, Block.offFault_setFld, ite_self]

theorem Block.offFault_endReadmit (t result : Nat) : (b.endReadmit t result).offFault = b.offFault := by
  unfold Block.endReadmit
  dsimp only
  split
  · rfl
  · split <;> simp -implicitDefEqProofs only [apply_ite Block.offFault, Block.offFault_isoResult, Block.offFault_showIso,
      Block.offFault_fc, ite_self]

theorem Block.offFault_orderSwitches (tiles : List Nat) : (b.orderSwitches tiles).offFault = b.offFault :=
  b.offFault_forAll _ (fun x _ => x.offFault_setPost _ _) _

theorem Block.offFault_dropReadmit (t src result : Nat) : (b.dropReadmit t src result).offFault = b.offFault := by
  simp -implicitDefEqProofs only [Block.dropReadmit, apply_ite Block.offFault, Block.offFault_raiseBase,
    Block.offFault_refloor, Block.offFault_orderSwitches, Block.offFault_setPost, Block.offFault_endReadmit, ite_self]

theorem Block.offFault_noteIso (u : Bool × Nat) : (b.noteIso u).offFault = b.offFault := b.offFault_fc _

theorem Block.offFault_orderIsolation (u : Bool × Nat) (ft : Ft) : (b.orderIsolation u ft).offFault = b.offFault := by
  have hdrop : (b.forAll (unitTiles u) fun s t => s.dropReadmit t 1 3).offFault = b.offFault :=
    b.offFault_forAll _ (fun x t => x.offFault_dropReadmit t 1 3) _
  have hnoted := (Block.offFault_noteIso _ u).trans hdrop
  rw [Block.orderIsolation]
  split
  · exact hnoted
  · exact (Block.offFault_fc _ _).trans hnoted

theorem Block.offFault_react (r : FaultRec) : (b.react r).offFault = b.offFault := by
  rw [Block.react]
  split <;> simp -implicitDefEqProofs only [apply_ite Block.offFault, Block.offFault_noteIso,
    Block.offFault_orderIsolation, Block.offFault_reactBase, ite_self]

theorem Block.offFault_raiseRec (r : FaultRec) (forced : Bool) : (b.raiseRec r forced).offFault = b.offFault :=
  b.offFault_raiseBy _ Block.offFault_react r forced

/-- A fault leaves alone what neither its record nor its reactions name. -/
theorem Block.offFault_raise (g src inst : Nat) : (b.raise g src inst).offFault = b.offFault := b.offFault_raiseRec _ _

theorem Block.offFault_unraise (g src inst : Nat) : (b.unraise g src inst).offFault = b.offFault :=
  b.offFault_raiseRec _ _

end

end Sys2Proof.Machine
end

section
/-! SUPPORT. The live calibration (R222-R243). -/
namespace Sys2Proof.Machine
open Sys2Proof

section
variable (b : Block)

theorem Block.wce_raise (g src inst : Nat) : (b.raise g src inst).wce = b.wce :=
  (congrArg (·.1.wce) (b.offFault_raise g src inst) : (b.raise g src inst).offFault.1.wce = b.offFault.1.wce)

theorem Block.wce_cntPkg (i n : Nat) : (b.cntPkg i n).wce = b.wce := rfl

theorem Block.wce_showEnter (d : Nat) : (b.showEnter d).wce = b.wce := b.wce_setFld _ _

theorem Block.wce_showWinnow (d outcome : Nat) : (b.showWinnow d outcome).wce = b.wce := by
  simp -implicitDefEqProofs only [Block.showWinnow, Block.setSat, Block.wce_setFld, Block.wce_showEnter]

/-- conf_enter is taken at WCE cycle 0 (R250). -/
theorem Block.wce_takeEnter : b.takeEnter.wce = { b.wce with enter := b.fld F.WCE_CFG_conf_enter } :=
  Block.forAll_keeps _ Block.wce _ Block.wce_showEnter _

theorem Block.winst_takeEnter (d : Nat) : b.takeEnter.winst d = b.winst d := by
  rw [Block.winst, b.wce_takeEnter, ← Block.winst]

/-- A result made visible leaves the boundary of the results as it was (R235). -/
theorem Block.resultEpoch_setWinst (d : Nat) (x : WInst) : (b.setWinst d x).wce.resultEpoch = b.wce.resultEpoch := rfl

theorem Block.resultEpoch_winnowResult (d : Nat) (x : WInst) (outcome : Nat) :
    (b.winnowResult d x outcome).wce.resultEpoch = b.wce.resultEpoch := by
  simp -implicitDefEqProofs only [Block.winnowResult, apply_ite (fun s : Block => s.wce.resultEpoch), Block.wce_raise,
    Block.wce_cntPkg, Block.wce_setFld, Block.incSat, Block.setSat, Block.wce_showWinnow, Block.resultEpoch_setWinst,
    ite_self]

theorem Block.showResults_due (hres : b.wce.results.isEmpty = false) (hdue : b.wce.resultEpoch + 32768 ≤ b.tick * 1024)
    (hepoch : b.time.epoch = b.tick / 16) :
    b.showResults = (Block.forAll { b with wce := { b.wce with results := [] } } b.wce.results
      fun c r => c.winnowResult r.1 r.2.1 r.2.2).setFld F.WCE_LAST_EPOCH_ft b.wce.resultEpoch := by
  have hkept : (Block.forAll { b with wce := { b.wce with results := [] } } b.wce.results
      fun c r => c.winnowResult r.1 r.2.1 r.2.2).wce.resultEpoch = b.wce.resultEpoch :=
    Block.forAll_keeps _ (fun s : Block => s.wce.resultEpoch) _ (fun x r => x.resultEpoch_winnowResult _ _ _) _
  rw [Block.showResults, Block.when_pos (by rw [hres, decide_eq_true hdue, hepoch, beq_self_eq_true]; rfl)]
  simp only [hkept]

theorem Block.formImage_free (p : Nat) (h : b.wce.released = none) : b.formImage p = { b with wce := { b.wce with
    formed := (b.wce.formed.filter fun f => f.at_ != p) ++ [⟨b.snapshot, p, p + b.wce.delay, b.wce.setDue⟩] } } := by
  rw [Block.formImage, h, Option.isSome_none]
  exact if_neg Bool.false_ne_true

theorem Block.commitSet_due {l : List WFactory} {flag : Bool} {dig ep : Nat}
    (hset : b.wce.pendingSet = some (l, flag, dig, ep)) (hdue : ep < b.time.epoch) :
    b.commitSet = (Block.forAll { b with wce := { b.wce with
        pendingSet := none, factory := some l, factoryFlag := flag, digCfg := dig, setDue := true } }
          (List.range 72) Block.restoreInst).formImage (b.time.epoch * 16) := by
  have hcommits : b.setCommits = true := by
    rw [Block.setCommits, hset]
    exact decide_eq_true hdue
  simp only [Block.commitSet, hset, Block.when_pos hcommits]

end

/-- Settles O8, command by command. -/
theorem winnowCommandsComplete : Obligations.WinnowCommandsComplete := by
  unfold Obligations.WinnowCommandsComplete
  refine ⟨?update, ?visible, ?restore, ?all, ?boundary, fun b => b.formImage_free, ?skip, ?release, ?lapse, ?commit⟩
  case update =>
    intro s b h hdue htick hnew hhold
    obtain ⟨x, hrun, hx⟩ : ∃ x, execWinnowUpdate s = .next (s.done x) ∧ x.wce = { b.takeEnter.wce with
        results := ((List.range 72).filter fun d => decide ((b.takeEnter.winst d).since < b.dueEpoch * 16384)).map
          fun d => (d, (b.takeEnter.winnowDom (b.dueEpoch - 1) d).1, (b.takeEnter.winnowDom (b.dueEpoch - 1) d).2)
        resultEpoch := b.dueEpoch * 16384, updated := b.dueEpoch } := by
      refine ⟨_, State.on_eq h (Block.when_pos ?_), rfl⟩
      rw [decide_eq_true hdue, decide_eq_true htick, bne_iff_ne.mpr hnew, hhold]
      rfl
    rw [Block.wce_takeEnter] at hx
    simp only [Block.winst_takeEnter] at hx
    exact ⟨_, hrun, congrArg WceS.updated hx, congrArg WceS.resultEpoch hx, (congrArg WceS.insts hx :),
      (congrArg WceS.enter hx :), congrArg WceS.results hx⟩
  case visible =>
    intro s b h hres hdue hepoch
    refine ⟨_, ?_, rfl⟩
    show execWinnowResultsVisible s = _
    exact State.on_eq h (b.showResults_due hres hdue hepoch)
  case restore =>
    intro s b dom h
    show execWceDomRestore dom s = _
    exact State.on_eq h rfl
  case all =>
    intro s b h
    show execWceRestoreAll s = _
    exact State.on_eq h rfl
  case boundary =>
    rintro s b c h hnew hepoch rfl hen hfactory hformed
    show execPublicationBoundary s = _
    refine State.on_eq h ((Block.when_pos (by rw [bne_iff_ne.mpr hnew, hepoch, beq_self_eq_true]; rfl)).trans (if_neg ?_))
    rw [hen, hformed]
    rintro (hbad | hbad | hbad)
    · exact Bool.false_ne_true hbad
    · rw [Option.isNone_iff_eq_none] at hbad
      rw [hbad] at hfactory
      exact Bool.false_ne_true hfactory
    · exact Bool.false_ne_true hbad
  case skip =>
    intro b p h
    exact if_pos h
  case release =>
    rintro s b c x h hfind hcore hfree rfl
    show execImageRelease s = _
    refine State.on_eq h ?_
    simp only [hfind]
    refine (Block.when_pos (by rw [hcore, hfree]; rfl)).trans ?_
    simp only [Bool.and_eq_true]
  case lapse =>
    intro s b x h hfind
    show execImageLapse s = _
    refine State.on_eq h ?_
    simp only [hfind]
  case commit =>
    intro s b l flag dig ep h hset hdue
    refine ⟨_, rfl, ?_⟩
    show execFactorySetCommit s = _
    exact State.on_eq h (b.commitSet_due hset hdue)

end Sys2Proof.Machine
end

section
/-! SUPPORT. The sidebands of the dies (R64-R78). -/
namespace Sys2Proof.Machine
open Sys2Proof

/-! ## What a Sheaf at a Relay leaves of the links and of the Relays' merging -/

/-- The links, and whether each Relay merges. -/
def Block.linkView (b : Block) : Tab LinkS × (Nat → Bool) := (b.links, fun d => (b.relay d).merging)

section
variable (b : Block)

section
variable {b} {c : Block}

/-- A fault leaves them alone. -/
theorem Block.linkView_of_offFault (h : c.offFault = b.offFault) : c.linkView = b.linkView :=
  Prod.ext (congrArg (·.1.links) h : c.offFault.1.links = b.offFault.1.links)
    (funext fun d => (congrArg (fun p => (p.2 d).merging) h : (c.offFault.2 d).merging = (b.offFault.2 d).merging))

theorem Block.link_of_linkView (h : c.linkView = b.linkView) (d : Nat) : c.link d = b.link d := by
  have hlinks : c.links = b.links := congrArg Prod.fst h
  rw [Block.link, hlinks, ← Block.link]

theorem Block.merging_of_linkView (h : c.linkView = b.linkView) (d : Nat) : (c.relay d).merging = (b.relay d).merging :=
  congrFun (congrArg Prod.snd h : c.linkView.2 = b.linkView.2) d

end

theorem Block.linkView_setFld (f : Fld) (v : Nat) : (b.setFld f v).linkView = b.linkView := rfl

theorem Block.linkView_setTile (t : Nat) (x : RelTile) : (b.setTile t x).linkView = b.linkView := rfl

theorem Block.linkView_setTherm (d : Nat) (x : ThermS) : (b.setTherm d x).linkView = b.linkView := rfl

theorem Block.linkView_setSdom (n : Nat) (x : SiloDom) : (b.setSdom n x).linkView = b.linkView := rfl

theorem Block.linkView_setSlice (d : Nat) (x : SliceS) : (b.setSlice d x).linkView = b.linkView := rfl

theorem Block.linkView_setPost (t : Nat) (x : PostS) : (b.setPost t x).linkView = b.linkView := rfl

theorem Block.linkView_setVdom (d : Nat) (x : VrcDom) : (b.setVdom d x).linkView = b.linkView := rfl

theorem Block.linkView_setVph (p : Nat) (x : VrcPh) : (b.setVph p x).linkView = b.linkView := rfl

theorem Block.linkView_setMargin (n : Nat) (x : MarginS) : (b.setMargin n x).linkView = b.linkView := rfl

theorem Block.linkView_setStim (det inst : Nat) (v : Option (Nat × Nat)) : (b.setStim det inst v).linkView = b.linkView :=
  rfl

theorem Block.linkView_clearWin (lo hi : Nat) : (b.clearWin lo hi).linkView = b.linkView := rfl

theorem Block.linkView_cntDie (d k n : Nat) : (b.cntDie d k n).linkView = b.linkView := rfl

theorem Block.linkView_countGood (t : Nat) (good : Bool) : (b.countGood t good).linkView = b.linkView := rfl

theorem Block.linkView_setRelay (d : Nat) (x : RelayS) (h : x.merging = (b.relay d).merging) :
    (b.setRelay d x).linkView = b.linkView := by
  refine Prod.ext rfl (funext fun d' => ?_)
  show ((b.setRelay d x).relay d').merging = (b.relay d').merging
  by_cases hd : d = d'
  · rw [← hd, Block.relay_setRelay, h]
  · rw [Block.relay_setRelay_ne b d d' x hd]

theorem Block.linkView_forAll {α : Type} (f : Block → α → Block) (hf : ∀ x a, (f x a).linkView = x.linkView)
    (l : List α) : (b.forAll l f).linkView = b.linkView := b.forAll_keeps Block.linkView f hf l

theorem Block.linkView_relayFault (die g src inst : Nat) (ended : Bool) :
    (b.relayFault die g src inst ended).linkView = b.linkView :=
  Block.linkView_of_offFault (b.offFault_relayFault die g src inst ended)

theorem Block.linkView_vrcCause (d cause rate : Nat) : (b.vrcCause d cause rate).linkView = b.linkView :=
  Block.linkView_of_offFault (b.offFault_vrcCause d cause rate)

theorem Block.linkView_refit (n cause rate : Nat) : (b.refit n cause rate).linkView = b.linkView :=
  Block.linkView_of_offFault (b.offFault_refit n cause rate)

theorem Block.linkView_sendOrder (n : Nat) : (b.sendOrder n).linkView = b.linkView :=
  Block.linkView_of_offFault (b.offFault_sendOrder n)

theorem Block.linkView_marginExit (n code : Nat) (fast hold : Bool) :
    (b.marginExit n code fast hold).linkView = b.linkView :=
  Block.linkView_of_offFault (b.offFault_marginExit n code fast hold)

theorem Block.linkView_revokeFrom (n w : Nat) : (b.revokeFrom n w).linkView = b.linkView :=
  Block.linkView_of_offFault (b.offFault_revokeWhere _ _)

theorem Block.linkView_stopGrants : b.stopGrants.linkView = b.linkView :=
  Block.linkView_of_offFault b.offFault_stopGrants

theorem Block.linkView_lowerCap (n start : Nat) : (b.lowerCap n start).linkView = b.linkView := by
  simp -implicitDefEqProofs only [Block.lowerCap, apply_ite Block.linkView, Block.linkView_vrcCause,
    Block.linkView_setVdom, ite_self]

theorem Block.linkView_syncCap (n : Nat) (again : Bool) : (b.syncCap n again).linkView = b.linkView := by
  rw [Block.syncCap]
  split
  · exact b.linkView_lowerCap _ _
  · exact (Block.linkView_vrcCause _ _ _ _).trans (b.linkView_setVdom _ _)
  · rfl

theorem Block.linkView_applyLevel (n : Nat) : (b.applyLevel n).linkView = b.linkView := by
  simp -implicitDefEqProofs only [Block.applyLevel, apply_ite Block.linkView, Block.linkView_revokeFrom,
    Block.linkView_setSdom, Block.linkView_syncCap, ite_self]

theorem Block.linkView_thermRecord (die : Nat) (trip : Option (Bool × Nat)) :
    (b.thermRecord die trip).linkView = b.linkView := b.linkView_setRelay _ _ rfl

theorem Block.linkView_setRows (die : Nat) (t : ThermS) : (b.setRows die t).linkView = b.linkView := by
  have hlevels (x : Block) : (x.forAll (List.range 16) fun s k => s.applyLevel (16 * die + k)).linkView = x.linkView :=
    x.linkView_forAll _ (fun y k => y.linkView_applyLevel _) _
  simp -implicitDefEqProofs only [Block.setRows, apply_ite Block.linkView, Block.linkView_thermRecord, hlevels,
    Block.linkView_setTherm, ite_self]

/-! ### A trip -/

theorem Block.linkView_withdrawTile (t : Nat) : (b.withdrawTile t).linkView = b.linkView :=
  (Block.linkView_setSlice _ _ _).trans
    (b.linkView_forAll _ (fun x g => Block.linkView_of_offFault (x.offFault_refund g)) _)

theorem Block.linkView_postOff (t : Nat) : (b.postOff t).linkView = b.linkView := by
  simp -implicitDefEqProofs only [Block.postOff, Block.linkView_clearWin, Block.linkView_setPost,
    Block.linkView_withdrawTile]

theorem Block.linkView_railLost (t : Nat) : (b.railLost t).linkView = b.linkView := by
  simp -implicitDefEqProofs only [Block.railLost, apply_ite Block.linkView, Block.linkView_setPost,
    Block.linkView_postOff, ite_self]

theorem Block.linkView_showPhases (d : Nat) : (b.showPhases d).linkView = b.linkView := by
  simp -implicitDefEqProofs only [Block.showPhases, Block.linkView_setFld]

theorem Block.linkView_cutPhases (d : Nat) : (b.cutPhases d).linkView = b.linkView := by
  have hrails (x : Block) (l : List Nat) : (x.forAll l fun s t => s.railLost t).linkView = x.linkView :=
    x.linkView_forAll _ Block.linkView_railLost l
  have hphases (x : Block) (l : List Nat) : (x.forAll l fun s p =>
      (s.setPhState p 0).setVph p { (s.vph p).cut with wait := 0, lim := false }).linkView = x.linkView :=
    x.linkView_forAll _ (fun y p => (Block.linkView_setVph _ _ _).trans (y.linkView_setFld _ _)) l
  simp -implicitDefEqProofs only [Block.cutPhases, Block.linkView_showPhases, hphases, apply_ite Block.linkView, hrails,
    ite_self]

theorem Block.linkView_abortCmd (d : Nat) : (b.abortCmd d).linkView = b.linkView := by
  simp -implicitDefEqProofs only [Block.abortCmd, Block.raiseCmd, apply_ite Block.linkView, Block.linkView_setFld,
    Block.linkView_setMargin, ite_self]

theorem Block.linkView_marginFailed (n : Nat) : (b.marginFailed n).linkView = b.linkView := by
  simp -implicitDefEqProofs only [Block.marginFailed, Block.countModes, Block.linkView_setFld, Block.linkView_sendOrder,
    Block.linkView_refit, Block.linkView_setMargin]

theorem Block.linkView_enterOff (d : Nat) : (b.enterOff d).linkView = b.linkView := by
  simp -implicitDefEqProofs only [Block.enterOff, Block.linkView_showPhases, apply_ite Block.linkView,
    Block.linkView_marginFailed, Block.linkView_setVdom, Block.linkView_setFld, Block.linkView_abortCmd,
    Block.linkView_cutPhases, ite_self]

theorem Block.linkView_allOff : b.allOff.linkView = b.linkView := b.linkView_forAll _ Block.linkView_enterOff _

theorem Block.linkView_power (x : PowerS) : ({ b with power := x } : Block).linkView = b.linkView := rfl

theorem Block.linkView_endTransitions : b.endTransitions.linkView = b.linkView := by
  simp -implicitDefEqProofs only [Block.endTransitions, apply_ite Block.linkView, Block.linkView_setFld,
    Block.linkView_power, ite_self]

theorem Block.linkView_lg (x : LgS) : ({ b with lg := x } : Block).linkView = b.linkView := rfl

theorem Block.linkView_tripNow (die : Nat) (bmem : Bool) (tile : Nat) :
    (b.tripNow die bmem tile).linkView = b.linkView := by
  simp -implicitDefEqProofs only [Block.tripNow, apply_ite Block.linkView, Block.linkView_thermRecord,
    Block.linkView_stopGrants, Block.linkView_allOff, Block.linkView_endTransitions, Block.linkView_setFld,
    Block.linkView_lg, ite_self]

/-! ### A Sheaf -/

theorem Block.linkView_tileReading (t : Nat) (r : Option Int) : (b.tileReading t r).linkView = b.linkView := by
  unfold Block.tileReading
  dsimp only
  split
  · exact b.linkView_setTile _ _
  · split <;> simp -implicitDefEqProofs only [apply_ite Block.linkView, Block.linkView_tripNow, Block.linkView_setFld,
      Block.linkView_setRows, Block.linkView_setTile, Block.linkView_setStim, ite_self]

theorem Block.linkView_sheafAtRelay (t w : Nat) : (b.sheafAtRelay t w).linkView = b.linkView := by
  unfold Block.sheafAtRelay
  dsimp only
  split
  · rfl
  · split
    · simp -implicitDefEqProofs only [Block.linkView_countGood, Block.linkView_cntDie, Block.linkView_relayFault,
        Block.incSat, Block.setSat, Block.linkView_setFld]
    · have hqueued (x : Block) (d : Nat) (l : List FifoE) :
          (x.setRelay d { x.relay d with fifo := l }).linkView = x.linkView := x.linkView_setRelay d _ rfl
      simp -implicitDefEqProofs only [apply_ite Block.linkView, Block.linkView_tileReading, hqueued,
        Block.linkView_setTile, ite_self]

theorem Block.linkView_unpark (d n : Nat) : (b.unpark d n).linkView = b.linkView := by
  induction n generalizing b with
  | zero => rfl
  | succ n ih =>
    rw [Block.unpark]
    split
    · rw [ih, Block.linkView_sheafAtRelay]
      exact b.linkView_setRelay d _ rfl
    · rfl

end

/-! ## Credits (R65, R67) -/

/-- The credits of a channel, held and owed. -/
def Cred.total (c : Cred) (ch : Nat) : Nat := c.credits.getD ch 0 + c.owed.getD ch 0

/-- Both ends of a direction know the four channels. -/
def Cred.four (c : Cred) : Prop := c.credits.length = 4 ∧ c.owed.length = 4

theorem getD_set_four (l : List Nat) (k ch v : Nat) (hk : k < l.length) :
    (l.set k v).getD ch 0 = if ch = k then v else l.getD ch 0 := by
  by_cases h : ch = k
  · subst h
    simp [hk]
  · simp [List.getD_eq_getElem?_getD, List.getElem?_set_ne (Ne.symm h), h]

section
variable (c : Cred) (h : c.four)
include h

theorem Cred.four_pay (k top : Nat) : (c.pay k top).four :=
  ⟨(List.length_set ..).trans h.1, (List.length_set ..).trans h.2⟩

theorem Cred.credits_pay (k top : Nat) (hk : k < 4) :
    (c.pay k top).credits.getD k 0 = c.credits.getD k 0 + min top (c.owed.getD k 0) := by
  obtain ⟨hcredits, -⟩ := h
  simp only [Cred.pay, getD_set_four _ _ _ _ (hcredits ▸ hk), if_true]

/-- A return moves credits from what is owed to what is held. -/
theorem Cred.total_pay (k top : Nat) (hk : k < 4) (ch : Nat) : (c.pay k top).total ch = c.total ch := by
  obtain ⟨hcredits, howed⟩ := h
  simp only [Cred.total, Cred.pay, getD_set_four _ _ _ _ (hcredits ▸ hk), getD_set_four _ _ _ _ (howed ▸ hk)]
  by_cases hch : ch = k
  · subst hch
    simp only [if_true]
    omega
  · simp only [if_neg hch]

theorem Cred.total_give (top ch : Nat) : (c.give top).2.2.total ch = c.total ch := by
  rw [Cred.give]
  split
  next k hk => exact c.total_pay h k top (h.2 ▸ List.mem_range.mp (List.mem_of_find?_eq_some hk)) ch
  next => rfl

/-- What a channel holds once the receiver has returned what an empty one is owed. -/
theorem Cred.take_none (vc top : Nat) (hvc : vc < 4) (htop : 0 < top) :
    c.take vc top = none ↔ c.credits.getD vc 0 = 0 ∧ c.owed.getD vc 0 = 0 := by
  rw [Cred.take]
  by_cases hzero : c.credits.getD vc 0 = 0
  · simp only [hzero, if_true, c.credits_pay h vc top hvc, Nat.zero_add, true_and]
    constructor
    · intro hnone
      refine Decidable.byContradiction fun howed => ?_
      rw [if_neg (by omega)] at hnone
      exact absurd hnone nofun
    · intro howed
      rw [if_pos (by omega)]
  · simp only [hzero, if_false, false_and, iff_false]
    exact nofun

/-- A taken credit is owed from then on. -/
theorem Cred.total_take (vc top : Nat) (hvc : vc < 4) (d : Cred) (htake : c.take vc top = some d) (ch : Nat) :
    d.total ch = c.total ch := by
  rw [Cred.take] at htake
  obtain ⟨e, he, hfour, htotal⟩ : ∃ e : Cred, e = (if c.credits.getD vc 0 = 0 then c.pay vc top else c) ∧ e.four ∧
      e.total ch = c.total ch := by
    refine ⟨_, rfl, ?_, ?_⟩
    · split
      · exact c.four_pay h vc top
      · exact h
    · split
      · exact c.total_pay h vc top hvc ch
      · rfl
  simp only [← he] at htake
  split at htake
  · exact absurd htake nofun
  next hheld =>
    obtain rfl := Option.some.inj htake
    rw [← htotal]
    obtain ⟨hcredits, howed⟩ := hfour
    simp only [Cred.total, getD_set_four _ _ _ _ (hcredits ▸ hvc), getD_set_four _ _ _ _ (howed ▸ hvc)]
    by_cases hch : ch = vc
    · subst hch
      simp only [if_true]
      omega
    · simp only [if_neg hch]

end

/-- The source and the slot in a header, whatever its other fields (Table 01-8). -/
theorem sbHeader_source (vc type cv cn source slot : Nat) :
    getBits (sbHeader vc type cv cn source slot).toNat 5 11 = source % 2 ^ 11 ∧
      getBits (sbHeader vc type cv cn source slot).toNat 2 3 = slot % 2 ^ 3 := by
  simp (disch := omega) only [sbHeader, packBits, packBits_step, packBits_end, getBits_ofNat, getBits_putBits_same,
    getBits_putBits_disjoint, and_self]

section
variable (x back : SbDir) (vc type source : Nat) (body : DWord)

/-- Sending a flit takes its credit and no other. -/
theorem SbDir.send_eq_some {f : SbFlit} {y z : SbDir} (h : x.send back vc type source body = some (f, y, z)) :
    ∃ cv cn, f = ⟨sbHeader vc type cv cn source x.group.length, body⟩ ∧ x.flow.take vc 63 = some y.flow ∧
      z.flow = (back.flow.give 63).2.2 ∧ y.group.length = if 7 ≤ x.group.length then 0 else x.group.length + 1 := by
  rw [SbDir.send] at h
  split at h
  · exact absurd h nofun
  next flow htake =>
    by_cases hfull : 7 ≤ x.group.length
    · simp only [List.length_append, List.length_singleton, if_pos (show 8 ≤ x.group.length + 1 by omega)] at h
      obtain ⟨rfl, rest⟩ := Prod.mk.inj (Option.some.inj h)
      obtain ⟨rfl, rfl⟩ := Prod.mk.inj rest
      exact ⟨_, _, rfl, htake, rfl, (if_pos hfull).symm⟩
    · simp only [List.length_append, List.length_singleton, if_neg (show ¬8 ≤ x.group.length + 1 by omega)] at h
      obtain ⟨rfl, rest⟩ := Prod.mk.inj (Option.some.inj h)
      obtain ⟨rfl, rfl⟩ := Prod.mk.inj rest
      exact ⟨_, _, rfl, htake, rfl, by rw [if_neg hfull, List.length_append, List.length_singleton]⟩

theorem SbDir.send_eq_none : x.send back vc type source body = none ↔ x.flow.take vc 63 = none := by
  rw [SbDir.send]
  split
  next htake => simp only [htake]
  next flow htake => simp only [htake, reduceCtorEq]

end

theorem LinkS.takes_iff (l : LinkS) :
    (l.takes true = true ↔ l.state = .down ∨ (l.state = .training ∧ l.lost = false)) ∧
      (l.takes false = true ↔ l.state ≠ .up) := by
  rw [LinkS.takes, LinkS.takes]
  cases l.state <;> cases l.lost <;> decide

section
variable (b : Block)

theorem Block.link_setFld (f : Fld) (v d : Nat) : (b.setFld f v).link d = b.link d := by
  rw [Block.link, Block.links_setFld, ← Block.link]

theorem Block.link_setRelay (d d' : Nat) (x : RelayS) : (b.setRelay d x).link d' = b.link d' := by
  rw [Block.link, Block.links_setRelay, ← Block.link]

theorem Block.links_raise (g src inst : Nat) : (b.raise g src inst).links = b.links :=
  (congrArg (·.1.links) (b.offFault_raise g src inst) : (b.raise g src inst).offFault.1.links = b.offFault.1.links)

theorem Block.links_unraise (g src inst : Nat) : (b.unraise g src inst).links = b.links :=
  (congrArg (·.1.links) (b.offFault_unraise g src inst) : (b.unraise g src inst).offFault.1.links = b.offFault.1.links)

theorem Block.links_follow (g src inst : Nat) (now : Bool) : (b.follow g src inst now).links = b.links := by
  simp -implicitDefEqProofs only [Block.follow, apply_ite Block.links, Block.links_raise, Block.links_unraise, ite_self]

theorem Block.links_cntDie (d k n : Nat) : (b.cntDie d k n).links = b.links := rfl

theorem Block.flag_cleared (f : Fld) (h : f.lo + f.width ≤ 64) : (b.setFld f 0).flag f = false := by
  rw [Block.flag, Block.fld_setFld _ _ _ h, Nat.zero_mod]
  rfl

theorem Block.startTraining_link (d : Nat) (lost : Bool) :
    (b.startTraining d lost).link d = { b.link d with state := .training, ticks := 0, lost := lost } := by
  rw [Block.startTraining, Block.link_setFld, Block.link_setLink, Block.link_setRelay]

/-- A flit that goes up leaves the Relays, and its link trained. -/
theorem Block.keeps_of_sbUp {b c : Block} {d vc type source : Nat} {body : DWord} {f : SbFlit}
    (h : b.sbUp d vc type source body = some (f, c)) : c.relays = b.relays ∧ (c.link d).state = (b.link d).state := by
  unfold Block.sbUp at h
  simp only at h
  split at h
  · obtain ⟨⟨f', u, dn⟩, -, he⟩ := Option.map_eq_some_iff.mp h
    obtain ⟨-, rfl⟩ := Prod.mk.inj he
    exact ⟨rfl, by rw [Block.link_setLink]⟩
  · exact absurd h nofun

theorem Block.relay_setLink (d d' : Nat) (x : LinkS) : (b.setLink d x).relay d' = b.relay d' := rfl

theorem Block.relay_of_relays {b c : Block} (h : c.relays = b.relays) (d : Nat) : c.relay d = b.relay d := by
  rw [Block.relay, h, ← Block.relay]

theorem Block.link_of_links {b c : Block} (h : c.links = b.links) (d : Nat) : c.link d = b.link d := by
  rw [Block.link, h, ← Block.link]

/-- An input-sense record that goes out leaves its link trained and its Relay as it was but for the record. -/
theorem Block.flushInput_keeps (d : Nat) : ((b.flushInput d).link d).state = (b.link d).state ∧
    ((b.flushInput d).relay d).merging = (b.relay d).merging ∧
    ((b.flushInput d).relay d).ceilHeld = (b.relay d).ceilHeld := by
  have hhub (x : Block) (w : Nat) : (x.inputAtHub d w).links = x.links ∧ (x.inputAtHub d w).relays = x.relays := by
    unfold Block.inputAtHub
    dsimp only
    split <;> exact ⟨rfl, rfl⟩
  rw [Block.flushInput]
  split
  next w rest hheld =>
    split
    · exact ⟨rfl, rfl, rfl⟩
    · split
      next f x hup =>
        obtain ⟨hrelays, hstate⟩ := Block.keeps_of_sbUp hup
        simp -implicitDefEqProofs only [Block.link_of_links (hhub _ _).1, Block.relay_of_relays (hhub _ _).2,
          Block.link_setLink, Block.relay_setLink, Block.relay_setRelay, hstate,
          Block.relay_of_relays hrelays, and_self]
      next => exact ⟨rfl, rfl, rfl⟩
  next => exact ⟨rfl, rfl, rfl⟩

theorem Block.relays_lastInputs (d : Nat) : (b.lastInputs d).relays = b.relays := by
  have hkeep (x : Block) (k : Nat) : (x.keepInput d k).relays = x.relays := by
    rw [Block.keepInput]
    split <;> rfl
  simp -implicitDefEqProofs only [Block.lastInputs, apply_ite Block.relays, hkeep, ite_self]

end

section
variable (b : Block) (d : Nat)

/-- The link that goes down, before its Relay merges. -/
def Block.linkLost : Block :=
  let s := b.lastInputs d
  let s := s.setLink d { s.link d with state := .down, ticks := 0, lost := false }
  let s := (s.setFld (F.HUB_SB_STATUS_lanes_up d) 0).setFld (F.HUB_SB_STATUS_link_up d) 0
  let s := s.setFld (F.HUB_SB_STATUS_degraded_seen d) 1
  (s.unraise 11 0 d).raise 11 1 d

theorem Block.linkLost_keeps : ((b.linkLost d).link d).state = .down ∧
    ((b.linkLost d).relay d).offFaults = (b.relay d).offFaults := by
  constructor
  · simp -implicitDefEqProofs only [Block.linkLost, Block.link_of_links (Block.links_raise _ _ _ _),
      Block.link_of_links (Block.links_unraise _ _ _ _), Block.link_setFld, Block.link_setLink]
  · have hraise (x : Block) : ((x.raise 11 1 d).relay d).offFaults = (x.relay d).offFaults :=
      (congrFun (congrArg Prod.snd (x.offFault_raise 11 1 d)) d : (x.raise 11 1 d).offFault.2 d = x.offFault.2 d)
    have hunraise (x : Block) : ((x.unraise 11 0 d).relay d).offFaults = (x.relay d).offFaults :=
      (congrFun (congrArg Prod.snd (x.offFault_unraise 11 0 d)) d : (x.unraise 11 0 d).offFault.2 d = x.offFault.2 d)
    have hset (x : Block) (f : Fld) (v : Nat) : (x.setFld f v).relay d = x.relay d :=
      Block.relay_of_relays (x.relays_setFld f v) d
    simp -implicitDefEqProofs only [Block.linkLost, hraise, hunraise, hset, Block.relay_setLink,
      Block.relay_of_relays (b.relays_lastInputs d)]

/-- Its Relay then merges, one Sheaf a tile, and takes what is parked. -/
def Block.linkMerging : Block :=
  let q := (b.linkLost d).relay d
  ((b.linkLost d).setRelay d { q with merging := true, fifo := q.fifo.foldl fifoMerge [], inHeld := [] }).unpark d
    q.parked.length

theorem Block.goDown_eq : b.goDown d =
    (b.linkMerging d).forAll ((List.range 16).map (16 * d + ·)) fun c n => c.marginExit n 5 true false := rfl

theorem Block.linkMerging_keeps : ((b.linkMerging d).link d).state = .down ∧
    ((b.linkMerging d).relay d).merging = true ∧
    ((b.relay d).parked = [] → ((b.linkMerging d).relay d).fifo = (b.relay d).fifo.foldl fifoMerge []) := by
  obtain ⟨hstate, hoff⟩ := b.linkLost_keeps d
  have hfifo : ((b.linkLost d).relay d).fifo = (b.relay d).fifo :=
    (congrArg RelayS.fifo hoff : ((b.linkLost d).relay d).offFaults.fifo = (b.relay d).offFaults.fifo)
  have hparked : ((b.linkLost d).relay d).parked = (b.relay d).parked :=
    (congrArg RelayS.parked hoff : ((b.linkLost d).relay d).offFaults.parked = (b.relay d).offFaults.parked)
  refine ⟨?_, ?_, fun hnone => ?_⟩
  · rw [Block.linkMerging, Block.link_of_linkView (Block.linkView_unpark _ _ _), Block.link_setRelay, hstate]
  · rw [Block.linkMerging, Block.merging_of_linkView (Block.linkView_unpark _ _ _), Block.relay_setRelay]
  · rw [Block.linkMerging, hparked, hnone, List.length_nil, Block.unpark, Block.relay_setRelay, hfifo]

end

/-- Settles O3, command by command. -/
theorem linkCommandsComplete : Obligations.LinkCommandsComplete := by
  unfold Obligations.LinkCommandsComplete
  refine ⟨?loss, ?retrain, LinkS.takes_iff, ?down, ?crc, ?send⟩
  case loss =>
    intro s b die h hup
    refine ⟨?_, ?_, ?_⟩
    · show execSidebandLaneLoss die s = _
      exact State.on_eq h (Block.when_pos (beq_iff_eq.mpr hup))
    · exact b.startTraining_link die.val true
    · exact Block.flag_cleared _ _ (by show 0 + 1 ≤ 64; decide)
  case retrain =>
    intro s b die lanes8 h htakes
    refine ⟨_, (State.on_eq h (Block.when_pos htakes) : execLinkRetrainComplete die lanes8 s = _), ?_, ?_, ?_⟩
    · rw [(Block.flushInput_keeps _ _).1, Block.link_setRelay]
      rw [Block.link_of_links (Block.links_unraise _ _ _ _), Block.link_of_links (Block.links_follow _ _ _ _ _),
        Block.link_of_links (Block.links_cntDie _ _ _ _)]
      generalize (if lanes8 then 8 else 4) = n
      split <;> simp -implicitDefEqProofs only [Block.link_setFld, Block.link_setLink]
    · rw [(Block.flushInput_keeps _ _).2.1, Block.relay_setRelay]
    · rw [(Block.flushInput_keeps _ _).2.2, Block.relay_setRelay]
  case down =>
    intro s b die h hup
    exact ⟨b.linkMerging die.val, (State.on_eq h (Block.when_pos (by rw [bne_iff_ne]; exact hup)) :
      execLinkDown die s = .next (s.done (b.goDown die.val))), b.linkMerging_keeps die.val⟩
  case crc =>
    intro s now b die up h hup
    refine ⟨_, rfl, ?_⟩
    show execSidebandCrcMismatch die up now s = _
    refine State.on_at h fun y hy => ?_
    simp only [hy, Block.when_pos (beq_iff_eq.mpr hup)]
  case send =>
    intro x back vc type source body hvc hx hxo hback hbacko
    refine ⟨(x.send_eq_none back vc type source body).trans (x.flow.take_none ⟨hx, hxo⟩ vc 63 hvc (by decide)), ?_⟩
    intro f y z hsend
    obtain ⟨cv, cn, rfl, htake, hback', hgroup⟩ := x.send_eq_some back vc type source body hsend
    obtain ⟨hsrc, hslot⟩ := sbHeader_source vc type cv cn source x.group.length
    refine ⟨rfl, fun hsource => hsrc.trans (Nat.mod_eq_of_lt hsource), hslot, hgroup, fun ch _ => ⟨?_, ?_⟩⟩
    · exact x.flow.total_take ⟨hx, hxo⟩ vc 63 hvc y.flow htake ch
    · rw [hback']
      exact back.flow.total_give ⟨hback, hbacko⟩ 63 ch

end Sys2Proof.Machine
end

section
/-! SUPPORT. A soft reset (R720) of a window whose table lists a register twice.

Reading takes the first entry of an offset (`Tab.get`); the soft reset stores the entries again one by one, so that the
last one stays (`windowAfter`). The statement's clause about `qv_soft` asks that the lock state and fabric time stay, of
every state. -/
namespace Sys2Proof.Machine
open Sys2Proof

/-- After reset, but for a window that lists CTU_FT_STATUS twice, first with the state LOCKED and then with ACQUIRING,
at fabric time 5. -/
def twiceListed : Block :=
  { Block.reset with win := [(0x2008, 2), (0x2008, 0)], time := { TimeS.reset with count := 5 } }

/-- What the run of `qv_soft` shows of the window and of the image that would start. -/
def softSeen : Host.Outcome State Fault Refusal → Option (Nat × Nat × Bool)
  | .next t => some (t.block.timeState, t.block.now, (t.block.region t.block.fwc.boot.active).isEmpty)
  | _ => none

theorem softSeen_twiceListed : softSeen (execQvSoft 5 ⟨twiceListed, [], []⟩) = some (0, 0, true) := by decide +kernel

section
variable (c : Block)

theorem Block.fwc_bootWait : c.bootWait.fwc = c.fwc := by
  have hraise (x : Block) : (x.raise 15 3 0).fwc = x.fwc :=
    (congrArg (·.1.fwc) (x.offFault_raise 15 3 0) : (x.raise 15 3 0).offFault.1.fwc = x.offFault.1.fwc)
  rw [Block.bootWait]
  split
  · rfl
  · exact hraise _

/-- With no image to start, the boot ROM waits and touches its own registers alone. -/
theorem Block.timeState_bootWait (h : (c.region c.fwc.boot.active).isEmpty = true) :
    c.bootWait.timeState = c.timeState := by
  rw [Block.bootWait]
  split
  · exact congrArg (fun v : DWord => getBits v.toNat 0 3)
      (Tab.get_set_ne resetWord c.win 0x3000 (resetWord 0x3000) 0x2008 (by decide))
  next hfull => exact absurd h hfull

theorem Block.timeState_bootAdopt : c.bootAdopt.timeState = c.timeState :=
  Block.fld_setFld_off _ F.FWC_GRANARY_commit_valid F.CTU_FT_STATUS_state 0 (by decide)

theorem Block.timeState_settle : c.settle.timeState = c.timeState := rfl

end

/-- Refutes O1: on `twiceListed` the soft reset takes the lock state from LOCKED to ACQUIRING, and fabric time from 5
to 0. -/
theorem not_resetsComplete : ¬ Obligations.ResetsComplete := by
  unfold Obligations.ResetsComplete
  rintro ⟨-, -, -, -, -, hsoft, -⟩
  obtain ⟨c, hrun, hnow, hstate, -, -, -, -, -, -, hboot⟩ := hsoft ⟨twiceListed, [], []⟩ 5 twiceListed
    ⟨by decide +kernel, by decide +kernel, by decide +kernel⟩ (by decide +kernel)
  have hseen := softSeen_twiceListed.symm.trans (congrArg softSeen hrun)
  obtain ⟨hst, hrest⟩ := Prod.mk.inj (Option.some.inj hseen)
  obtain ⟨ht, hempty⟩ := Prod.mk.inj hrest
  by_cases hok : c.bootAdopt.bootOk = true
  · obtain ⟨-, -, -, hkept⟩ := hboot hok
    exact absurd (ht.trans (hkept : c.bootSelect.settle.now = twiceListed.now)) (by decide +kernel)
  · have hwait : c.bootSelect = c.bootAdopt.bootWait := if_neg hok
    have hnone : (c.bootAdopt.region c.bootAdopt.fwc.boot.active).isEmpty = true := by
      have hfwc : c.bootSelect.fwc = c.bootAdopt.fwc := by rw [hwait, Block.fwc_bootWait]
      rw [Block.region, ← hfwc]
      exact hempty.symm
    have hkept : c.bootSelect.timeState = twiceListed.timeState := by
      rw [hwait, Block.timeState_bootWait _ hnone, Block.timeState_bootAdopt, hstate]
    exact absurd (hst.trans hkept) (by decide +kernel)

end Sys2Proof.Machine
end

section
/-! SUPPORT. The slice decides, and the pool is divided (R306-R344). -/
namespace Sys2Proof.Machine
open Sys2Proof

section
variable (b : Block) (t tag cls lead : Nat)

/-- A class whose word is good. -/
theorem Block.decideReq_refused (ctx : Nat) (hgood : (b.slice (dieOfTile t)).badCls.contains cls = false)
    (h : ctx ≠ b.tileCtx t ∨ ctx = 0 ∨ b.ctxState (dieOfTile t) ctx = 0) :
    b.decideReq t ctx tag cls lead = b.sendRefuse t tag ctx 0 := by
  unfold Block.decideReq
  simp only [hgood, Bool.false_eq_true, if_false]
  exact if_pos h

end

/-- Settles O11, command by command. -/
theorem siloCommandsComplete : Obligations.SiloCommandsComplete := by
  unfold Obligations.SiloCommandsComplete
  refine ⟨?request, ?refused, ?granted, ?cancel, ?idle, ?window, ?verified, ?post, ?report, ?division, ?delegation⟩
  case request =>
    intro s now b c tile flip f h hfirst hpop
    refine ⟨_, _, rfl, rfl, ?_⟩
    show execLaunchRequest tile flip now s = _
    refine State.on_at h fun y hy => ?_
    simp only [hy, hfirst, hpop] <;> rfl
  case refused => exact fun b tile ctx tag cls lead hgood h => b.decideReq_refused tile.val tag cls lead ctx hgood h
  case granted =>
    rintro b tile tag cls lead d n lim w x ent st rfl rfl rfl rfl hgood hctx hstate hiso hdef hstopped hgs htrip
      hlevel hcredit rfl rfl hfind
    have hpace : decide (1 ≤ b.fld (F.SILO_DOM_LIM_level (domOfTile tile.val))) =
        decide (b.fld (F.SILO_DOM_LIM_level (domOfTile tile.val)) = 1) := decide_eq_decide.mpr (by omega)
    have hactive : ¬b.ctxState (dieOfTile tile.val) (b.tileCtx tile.val) = 0 := by rw [hstate]; decide
    have hdraining : ¬b.ctxState (dieOfTile tile.val) (b.tileCtx tile.val) = 2 := by rw [hstate]; decide
    unfold Block.decideReq
    simp only [hgood, hctx, hactive, hdraining, hiso, hdef, hstopped, hgs, htrip, hlevel, hcredit, hpace, decide_eq_true_eq, hfind,
      Nat.not_le.mpr hlevel, Bool.false_eq_true, if_false, if_true, false_and, or_self, ne_eq, not_true_eq_false,
      Bool.not_true, and_self]
  case cancel =>
    intro s now b c tile f h hpop
    refine ⟨_, rfl, ?_⟩
    show execCancel tile now s = _
    refine State.on_at h fun y hy => ?_
    simp only [hy, hpop] <;> rfl
  case idle =>
    intro s b c tile f h hpop
    refine ⟨_, rfl, ?_⟩
    show execIdleNotice tile s = _
    refine State.on_eq h ?_
    simp only [hpop]
  case window =>
    intro s now b h hlast
    refine ⟨_, rfl, ?_⟩
    show execLimiterWindow now s = _
    refine State.on_at h fun y hy => ?_
    simp only [hy]
    exact Block.when_pos (decide_eq_true hlast)
  case verified =>
    rintro s b c h hloading rfl
    refine ⟨?_, ?_⟩
    · show execClassTableVerified s = _
      exact State.on_eq h (Block.when_pos hloading)
    · exact b.fld_setFld _ _ (by decide)
  case post =>
    intro s now b h hcore
    show execPoolPost now s = _
    refine State.on_at h fun y hy => ?_
    simp only [hy]
    exact Block.when_pos hcore
  case report =>
    rintro s b c die deb waited busy k w h hreport rfl rfl hdue hsent
    refine ⟨_, rfl, ?_⟩
    show execCreditReport die s = _
    refine State.on_eq h ?_
    simp only [hreport]
    refine (if_neg (Nat.not_lt.mpr hdue)).trans ?_
    simp only [hsent]
  case division =>
    rintro s now b c n res h hdivided hdue hdeep rfl rfl rfl
    have hgo : (b.silo.divided != some b.epoch && decide (10240 ≤ b.now % 16384) && !b.inDeep) = true := by
      rw [bne_iff_ne.mpr hdivided, decide_eq_true hdue, hdeep]
      rfl
    refine ⟨fun pool a tot hpool hforce ha htot => ⟨_, rfl, ?_⟩, fun hration hnormal => ?_, fun hration hnormal => ?_⟩
    · show execPoolDivision now s = _
      refine State.on_at h fun y hy => ?_
      simp only [hy]
      refine (Block.when_pos hgo).trans ?_
      simp only [hpool, hforce, ha, htot]
    · show execPoolDivision now s = _
      refine State.on_at h fun y hy => ?_
      simp only [hy]
      refine (Block.when_pos hgo).trans ?_
      split
      next pool hpool hnoforce =>
        rcases hration with hnone | hforce
        · exact absurd (hnone.symm.trans hpool) nofun
        · exact absurd (hforce.symm.trans hnoforce) nofun
      next => simp only [hnormal, if_true]
    · show execPoolDivision now s = _
      refine State.on_at h fun y hy => ?_
      simp only [hy]
      refine (Block.when_pos hgo).trans ?_
      split
      next pool hpool hnoforce =>
        rcases hration with hnone | hforce
        · exact absurd (hnone.symm.trans hpool) nofun
        · exact absurd (hforce.symm.trans hnoforce) nofun
      next => simp only [hnormal, Bool.false_eq_true, if_false]
  case delegation =>
    rintro s b c die l k bodies h hout rfl hdue rfl hsent
    show execDelegationReceived die s = _
    refine State.on_eq h ?_
    simp only [hout]
    refine (if_neg fun hwait => Nat.not_lt.mpr (hdue hwait.1) hwait.2).trans ?_
    simp only [hsent] <;> rfl

end Sys2Proof.Machine
end

section
/-! SUPPORT. A chain and its Posts' records (R140-R148, R218-R221, R500, R501). -/
namespace Sys2Proof.Machine
open Sys2Proof

/-! ## The copies a sender keeps -/

section
variable (down : Bool) (hop pn : Nat)

/-- An acknowledgement drops copies and adds none. -/
theorem mem_of_mem_ackKept (n : Nat) (l : List Kept) {x : Kept} (h : x ∈ ackKept down hop pn l n) : x ∈ l := by
  induction n generalizing l with
  | zero => exact h
  | succ n ih =>
    rw [ackKept] at h
    split at h
    · exact List.mem_of_mem_erase (ih _ h)
    · exact h

/-- An acknowledgement leaves the copy of a flit that failed. -/
theorem mem_ackKept_of_bad (n : Nat) (l : List Kept) {x : Kept} (h : x ∈ l) (hbad : x.bad = true) :
    x ∈ ackKept down hop pn l n := by
  induction n generalizing l with
  | zero => exact h
  | succ n ih =>
    rw [ackKept]
    split
    next y hy =>
      have hgood : y.bad = false := by
        have hfound := List.find?_some hy
        rw [Bool.and_eq_true, Bool.not_eq_true'] at hfound
        exact hfound.2
      have hne : x ≠ y := fun hxy => Bool.false_ne_true (hgood.symm.trans (hxy ▸ hbad))
      exact ih _ ((List.mem_erase_of_ne hne).mpr h)
    · exact h

end

section
variable (b : Block)

theorem Block.wire_setChain (n m : Nat) (c : ChainS) : (b.setChain n c).wire m = b.wire m := rfl

theorem Block.chain_setWire (n m : Nat) (w : ChWire) : (b.setWire n w).chain m = b.chain m := rfl

/-- A flit that fails its CRC on the way is kept behind the copies that are still waiting, and its hop owes a NAK. -/
theorem Block.chLost_keeps {n : Nat} {x : Kept} {c : Block} (h : b.chLost n x = some c) :
    (∃ k, (c.wire n).kept = ackKept x.down x.hop x.pn (b.wire n).kept k ++ [x]) ∧
      (c.chain n).nak.contains (x.down, x.hop) = true := by
  rw [Block.chLost] at h
  obtain ⟨-, h⟩ := Option.ite_none_left_eq_some.mp h
  obtain rfl := Option.some.inj h
  refine ⟨⟨_, by rw [Block.wire_setChain, Block.wire_setWire]⟩, ?_⟩
  rw [Block.chain_setChain]
  dsimp only
  split
  next hnak => exact hnak
  · rw [List.contains_iff_mem]
    exact List.mem_append_right _ (List.mem_singleton_self _)

/-! ## What a flit of a chain leaves of the sums of its regressors -/

/-- The sums and the mask of a chain. -/
def Block.sumsView (n : Nat) : List Nat × Nat := ((b.chain n).sums, (b.chain n).mask)

theorem Block.sumsView_setChain (n m : Nat) (y : ChainS) (h : (y.sums, y.mask) = b.sumsView m) :
    (b.setChain m y).sumsView n = b.sumsView n := by
  rw [Block.sumsView, Block.chain, Block.setChain, Tab.get_set]
  split
  next hm => rw [← hm, ← h]
  next => rfl

variable {b} {c : Block}

/-- A chain that takes a flit is live, and the end of its stall is a fault of its Relay. -/
theorem Block.sumsView_upFlit {n t pn type : Nat} {body : DWord} (h : b.upFlit t pn type body = some c) :
    c.sumsView n = b.sumsView n := by
  have hfault (x : Block) (die g src inst : Nat) (ended : Bool) :
      (x.relayFault die g src inst ended).sumsView n = x.sumsView n :=
    (congrArg (fun p => p.1.sumsView n) (x.offFault_relayFault die g src inst ended) :
      (x.relayFault die g src inst ended).offFault.1.sumsView n = x.offFault.1.sumsView n)
  rw [Block.upFlit] at h
  split at h
  · obtain rfl := Option.some.inj h
    rfl
  · obtain ⟨x, hsend, rfl⟩ := Option.map_eq_some_iff.mp h
    have hx : x.sumsView n = b.sumsView n := by
      rw [Block.postUpFlit, Block.chSend] at hsend
      obtain ⟨-, hsend⟩ := Option.ite_none_left_eq_some.mp hsend
      obtain ⟨w, -, rfl⟩ := Option.map_eq_some_iff.mp hsend
      rfl
    have hlive : (x.setChain (domOfTile t) { x.chain (domOfTile t) with live := true, quiet := 0 }).sumsView n =
        x.sumsView n := x.sumsView_setChain n _ _ rfl
    rw [← hx, Block.chainLive]
    split
    · exact (hfault _ _ _ _ _ _).trans hlive
    · exact hlive

theorem Block.sumsView_upFlits {n t pn : Nat} {l : List (Nat × DWord)} (h : b.upFlits t pn l = some c) :
    c.sumsView n = b.sumsView n := by
  have hall (l : List (Nat × DWord)) (o : Option Block)
      (h : l.foldl (fun s f => s.bind fun s => s.upFlit t pn f.1 f.2) o = some c) :
      ∃ x, o = some x ∧ c.sumsView n = x.sumsView n := by
    induction l generalizing o with
    | nil => exact ⟨c, h, rfl⟩
    | cons f l ih =>
      obtain ⟨y, hy, hc⟩ := ih _ h
      obtain ⟨x, hx, hy⟩ := Option.bind_eq_some_iff.mp hy
      exact ⟨x, hx, hc.trans (Block.sumsView_upFlit hy)⟩
  obtain ⟨x, hx, hc⟩ := hall l _ h
  obtain rfl := Option.some.inj hx
  exact hc

end

section
variable (b : Block) (t : Nat) (w : DWord)

/-- At a Relay with room and nothing waiting, a Sheaf passes the buffer of its hop. -/
theorem Block.hopSheaf_room (hdrops : b.hopDrops t = false) (hparked : (b.relay (dieOfTile t)).parked = [])
    (hroom : (b.relay (dieOfTile t)).merging = true ∨ (b.relay (dieOfTile t)).fifo.length < 512) :
    ∃ c : Block, b.hopSheaf t w = c.sheafAtRelay t w.toNat ∧
      c.relay (dieOfTile t) = b.relay (dieOfTile t) ∧ c.posts = b.posts ∧ c.tiles = b.tiles := by
  refine ⟨(b.setRelay (dieOfTile t) { b.relay (dieOfTile t) with parked := [(t, w)] }).setRelay (dieOfTile t)
    { b.relay (dieOfTile t) with parked := [] }, ?_, ?_, rfl, rfl⟩
  · rw [Block.hopSheaf, if_neg (hdrops ▸ Bool.false_ne_true), hparked, List.length_nil, Block.unpark,
      Block.relay_setRelay]
    have hgo : ((b.relay (dieOfTile t)).merging || decide ((b.relay (dieOfTile t)).fifo.length < 512)) = true := by
      rw [Bool.or_eq_true, decide_eq_true_eq]
      exact hroom
    simp only [hgo, List.nil_append, Block.unpark]
  · rw [Block.relay_setRelay, ← hparked]

/-- At a full Relay it waits behind the others. -/
theorem Block.hopSheaf_full (hdrops : b.hopDrops t = false) (hmerging : (b.relay (dieOfTile t)).merging = false)
    (hfull : 512 ≤ (b.relay (dieOfTile t)).fifo.length) :
    b.hopSheaf t w = b.setRelay (dieOfTile t) { b.relay (dieOfTile t) with
      parked := (b.relay (dieOfTile t)).parked ++ [(t, w)] } := by
  rw [Block.hopSheaf, if_neg (hdrops ▸ Bool.false_ne_true), Block.unpark, Block.relay_setRelay]
  simp only [hmerging, decide_eq_false (Nat.not_lt.mpr hfull), Bool.or_self]

end

section
variable (b : Block) (t : Nat)

/-- A Sheaf that left its Post is the last one sent, and one valid one more. -/
def Block.sheafLeft (rest : List WSheaf) (w : DWord) : Block :=
  let s := (b.setPost t { b.post t with sheafs := rest }).setFld (F.POST_SHEAF_LAST_sheaf t) w.toNat
  s.setFld (F.POST_STATUS_valid_sheafs t) (min 16 (s.fld (F.POST_STATUS_valid_sheafs t) + 1))

variable (rest : List WSheaf) (w : DWord)

theorem Block.sheafs_sheafLeft : ((b.sheafLeft t rest w).post t).sheafs = rest := by
  rw [Block.sheafLeft, Block.post, Block.posts_setFld, Block.posts_setFld, ← Block.post, Block.post_setPost]

theorem Block.last_sheafLeft : (b.sheafLeft t rest w).fld (F.POST_SHEAF_LAST_sheaf t) = w.toNat := by
  rw [Block.sheafLeft, Block.fld_setFld_off _ _ _ _ (by show 0x100008 + 0x1000 * t ≠ 0x100018 + 0x1000 * t; omega),
    Block.fld_setFld _ _ _ (by show 0 + 64 ≤ 64; decide)]
  exact Nat.mod_eq_of_lt w.isLt

theorem Block.wire_setFld (f : Fld) (v n : Nat) : (b.setFld f v).wire n = b.wire n := rfl

theorem Block.wire_setPost (n : Nat) (x : PostS) : (b.setPost t x).wire n = b.wire n := rfl

theorem Block.wire_sheafLeft (n : Nat) : (b.sheafLeft t rest w).wire n = b.wire n := by
  rw [Block.sheafLeft, Block.wire_setFld, Block.wire_setFld, Block.wire_setPost]

theorem Block.chain_sheafLeft (n : Nat) : (b.sheafLeft t rest w).chain n = b.chain n := by
  rw [Block.sheafLeft, Block.chain, Block.chains_setFld, Block.chains_setFld, Block.chains_setPost, ← Block.chain]

end

/-- A record that its Relay sent: it waits no more, and the Winnow has it. -/
def Block.recordSent (d : Block) (n : Nat) (r : DomRec) : Block :=
  let c := d.chain n
  let s := d.setChain n (if c.ready.isSome then { c with ready := none } else { c with due := none })
  { s with wce := { s.wce with recs := Tab.set (fun _ => none) s.wce.recs (64 * (r.epoch % 4) + n) (some r) } }

theorem Block.ready_recordSent (d : Block) (n : Nat) (r : DomRec) : ((d.recordSent n r).chain n).ready = none := by
  have hchain : (d.recordSent n r).chain n = if (d.chain n).ready.isSome then { d.chain n with ready := none }
      else { d.chain n with due := none } := d.chain_setChain n _
  rw [hchain]
  split
  · rfl
  next hnone => exact Option.not_isSome_iff_eq_none.mp hnone

/-- Settles O6, command by command. -/
theorem chainCommandsComplete : Obligations.ChainCommandsComplete := by
  unfold Obligations.ChainCommandsComplete
  refine ⟨?sheaf, ?dropped, ?taken, ?parked, ?isolated, ?crc, ?nak, ?silent, ?stalled, ?fault, ?send, ?regressor, ?domain⟩
  case sheaf =>
    intro s now b d tile flip x rest h hruns hroom hsheafs hclear hup
    refine ⟨d.sheafLeft tile.val rest (sheafWord tile.val x), d.sheafs_sheafLeft _ _ _, d.last_sheafLeft _ _ _,
      fun n => ⟨d.wire_sheafLeft _ _ _ n, d.chain_sheafLeft _ _ _ n⟩, ?_⟩
    show execSheafAtRelay tile flip now s = _
    refine State.on_at h fun y hy => ?_
    simp only [hy, hruns, hroom, hclear, hsheafs, Bool.and_self, hup, Block.sheafLeft]
  case dropped => exact fun b tile w hdrops => if_pos hdrops
  case taken =>
    intro b tile w hdrops hparked hroom
    exact b.hopSheaf_room tile.val w hdrops hparked hroom
  case parked =>
    intro b tile w hdrops hmerging hfull
    exact b.hopSheaf_full tile.val w hdrops hmerging hfull
  case isolated => exact fun b tile pn type body hdrops => if_pos hdrops
  case crc =>
    intro s now b c dom down hop channel body h hchannel hlost
    obtain ⟨⟨k, hkept⟩, hnak⟩ := b.chLost_keeps hlost
    refine ⟨?_, ⟨_, hkept, fun x hx => mem_of_mem_ackKept _ _ _ _ _ hx,
      fun x hx hbad => mem_ackKept_of_bad _ _ _ _ _ hx hbad⟩, hnak⟩
    show execChainCrcError ⟨dom, down, hop⟩ channel body now s = _
    refine State.on_at h fun y hy => ?_
    have hway : (!(down && channel.val == 4)) = true := by
      cases down
      · rfl
      · rw [Bool.true_and, beq_eq_false_iff_ne.mpr (hchannel rfl)]
        rfl
    simp only [hy, hway, hlost]
  case nak =>
    intro s b dom down hop channel h hnak
    refine ⟨b.chNak dom.val down hop.val channel.val, ?_, ?_, ?_, ?_, ?_, ?_⟩
    · show execChainNak ⟨dom, down, hop⟩ channel s = _
      exact State.on_eq h (Block.when_pos hnak)
    all_goals rw [Block.chNak]
    · rw [Block.chain_setChain]
    · rw [Block.wire_setChain, Block.wire_setWire]
      simp only [List.filter_filter, Bool.and_comm]
    · rw [Block.wire_setChain, Block.wire_setWire]
    · intro hdown
      rw [Block.wire_setChain, Block.wire_setWire]
      exact if_pos hdown
    · intro hup
      rw [Block.wire_setChain, Block.wire_setWire]
      exact if_neg (hup ▸ Bool.false_ne_true)
  case silent =>
    intro s b tile h hsilent hopen
    show execPostSilent tile s = _
    exact State.on_eq h (Block.when_pos (by rw [decide_eq_true hsilent, hopen]; rfl))
  case stalled =>
    intro s b dom h hquiet hpowered
    show execChainStalled dom s = _
    exact State.on_eq h (Block.when_pos (by rw [decide_eq_true hquiet, hpowered]; rfl))
  case fault =>
    intro s now b tile x h hruns
    show execPostFault tile (some x) now s = _
    refine State.on_at h fun y hy => ?_
    simp only [hy]
    exact Block.when_pos hruns
  case send =>
    intro s now b tile h hruns
    show execPostFault tile none now s = _
    refine State.on_at h fun y hy => ?_
    simp only [hy]
    exact Block.when_pos hruns
  case regressor =>
    intro s b d tile ep prob up h hruns hsheafs hclear hfrom hto hreg hdue hepoch htick hup
    have hsums : d.sumsView (domOfTile tile.val) = b.sumsView (domOfTile tile.val) := Block.sumsView_upFlits hup
    obtain ⟨hsum, hmask⟩ := Prod.mk.inj hsums
    refine ⟨{ d.chain (domOfTile tile.val) with
      sums := (List.range 32).map fun i => ((d.chain (domOfTile tile.val)).sums.getD i 0 +
        regCode (((List.range 32).map fun i => regK ((b.post tile.val).kcap.getD i 0)).getD i 0)) % 2 ^ 32
      mask := setBit (d.chain (domOfTile tile.val)).mask (tile.val % 16) true
      probation := (d.chain (domOfTile tile.val)).probation || prob
      poweredUp := (d.chain (domOfTile tile.val)).poweredUp || up }, ?_, ?_, congrArg (setBit · _ true) hmask⟩
    · show execPostRegressorRecord tile s = _
      refine State.on_eq h ?_
      simp only [hruns, hsheafs, List.isEmpty_nil, hclear, decide_eq_true hfrom, decide_eq_true hto, Bool.and_self,
        hreg]
      refine (if_pos ⟨hdue, hepoch, htick⟩).trans ?_
      simp only [hup]
      rfl
    · refine List.map_congr_left fun i hi => ?_
      have hi : i < 32 := List.mem_range.mp hi
      simp only [hsum, List.getD_eq_getElem?_getD, List.getElem?_map, List.getElem?_range hi, Option.map_some,
        Option.getD_some]
  case domain =>
    intro s b d dom r h hready htick hsent
    have hrun : execDomainRegressorRecord dom s = .next (s.done (d.recordSent dom.val r)) := by
      refine State.on_eq h ?_
      simp only [hready]
      refine (if_pos htick).trans ?_
      rw [hsent]
      rfl
    exact ⟨_, hrun, d.ready_recordSent dom.val r,
      Tab.get_set_same (fun _ => none) d.wce.recs (64 * (r.epoch % 4) + dom.val) (some r)⟩

end Sys2Proof.Machine
end
